-- ==== Sys2Proof/Word.lean ====
section
/-! DEFINITION. The word types of the model and the fixed-size table, with their plainest arithmetic. -/

namespace Sys2Proof

/-- One byte of memory or of a record. -/
abbrev Byte := BitVec 8

/-- A 16-bit count that wraps. -/
abbrev W16 := BitVec 16

/-- A 32-bit count, sequence number or running frame count that wraps (R17, R102, R117). -/
abbrev W32 := BitVec 32

/-- `n` like things, numbered from 0: lanes, inputs, taps, buses, paths, pins, clip records, map entries. -/
structure Table (α : Type) (n : Nat) where
  items : List α
  size_eq : items.length = n
deriving DecidableEq, Repr

namespace Table

variable {α β : Type} {n : Nat}

/-- Entry `i`. -/
def get (t : Table α n) (i : Fin n) : α := t.items[i.val]'(by rw [t.size_eq]; exact i.isLt)

/-- The table with entry `i` replaced. -/
def set (t : Table α n) (i : Fin n) (a : α) : Table α n :=
  ⟨t.items.set i.val a, by rw [List.length_set, t.size_eq]⟩

/-- The table with entry `i` changed by `f`. -/
def modify (t : Table α n) (i : Fin n) (f : α → α) : Table α n := t.set i (f (t.get i))

/-- `n` copies of one entry. -/
def fill (n : Nat) (a : α) : Table α n := ⟨List.replicate n a, List.length_replicate⟩

/-- Every entry changed by `f`. -/
def map (f : α → β) (t : Table α n) : Table β n :=
  ⟨t.items.map f, by rw [List.length_map, t.size_eq]⟩

/-- The table whose entry `i` is `f i`. -/
def ofFn (f : Fin n → α) : Table α n := ⟨(List.finRange n).map f, by simp⟩

end Table

end Sys2Proof
end

