-- ==== Sys2Proof/Config.lean ====
section
/-! DEFINITION. The part's fixed parameters, as 00_scope.md "Part parameters" and the chapters give them.
The manual leaves no value of a running part open (INVENTORY.md, "What the manual leaves open"), so no constant here
is free: what it leaves open is an operand of a command or a marked convention of the assumption log. -/

namespace Sys2Proof.Config

/-- The address space of the fabric and of DRAM: 40-bit byte addresses (00_scope.md, request model). -/
def addressSpace : Nat := 2 ^ 40

/-- What a byte of DRAM that nothing has written reads as. DESIGN CHOICE (log 1): the spec gives DRAM no contents;
unsafe, since DRAM after power-on may hold anything. -/
def unwrittenByte : Byte := 0

/-- The in-flight list holds up to 16 pieces (R1). -/
def inFlightRoom : Nat := 16

/-- The insert queue holds up to 64 entries (R12). -/
def insertRoom : Nat := 64

/-- The arbiter's threshold (R13). -/
def arbiterThreshold : Nat := 48

/-- Frames per second of a rate code (02_station_clock_and_timecode.md, 2.1). -/
def framesPerSecond (rate : Fin 5) : Nat :=
  match rate with
  | 0 => 24
  | 1 => 25
  | 2 => 30
  | 3 => 50
  | 4 => 60

/-- Sample ticks per frame: 48 000 per second over the frames per second (2.1). -/
def ticksPerFrame (rate : Fin 5) : Nat := 48000 / framesPerSecond rate

/-- D, the frames per day (2.1). -/
def framesPerDay (rate : Fin 5) : Nat := framesPerSecond rate * 86400

/-- The lookback window in frames (2.1). -/
def lookback (rate : Fin 5) : Nat := framesPerSecond rate * 3600

/-- The part code and revision of the header record (R173, Command area layout). -/
def partCode : Nat := 0x7140
/-- The part revision described by the manual. -/
def partRevision : Nat := 1

/-- The COMMANDS base with CFGSEL low, and before any entry of the load names another (R4, R172). -/
def defaultCommandsBase : Nat := 0xFFFFF00000

/-- Entries of one frame index (R125). -/
def indexRoom : Nat := 128
/-- Cues in the table (R151). -/
def cueRoom : Nat := 32
/-- Entries of the send queue (R164). -/
def sendRoom : Nat := 8
/-- Tags in a path's pending list (R104). -/
def tagRoom : Nat := 4
/-- Labels of one clip (R136). -/
def labelRoom : Nat := 6
/-- Where the 16-bit holding counts stay. -/
def hold16 : Nat := 65535

end Sys2Proof.Config
end

