-- ==== Sys2Proof/Syntax.lean ====
section
/-! DEFINITION. The commands of the Moravin 7140: one constructor per row of spec/opcode_table.json.
An operand stands where the event brings data that the part's state does not hold. The host's commands (SET_APERTURE
to CLEAR_MEDIA, and UNKNOWN_COMMAND) have none but pin levels: the part carries them out from the head of its own
command queue, with the fields of the slot body copied at arrival (R174, R175, R184). -/

namespace Sys2Proof

/-- What an upstream request asks for (00_scope.md, request model): a READ of a length, or a WRITE of bytes. -/
inductive ReqOp where
  | read (len : Nat)
  | write (data : List Byte)
deriving DecidableEq, Repr

/-- The request's length in bytes. -/
def ReqOp.len : ReqOp → Nat
  | .read n => n
  | .write d => d.length

/-- An upstream request (00_scope.md, request model). -/
structure Request where
  addr : BitVec 40
  initiator : Fin 16
  op : ReqOp
deriving DecidableEq, Repr

/-- One block's share of a tick. The blocks act on a tick independently of one another (R16), so a tick command names
the order in which they are taken (log 4). All but `mixer` and `pin` act at a FRAME TICK only. -/
inductive TickAct where
  /-- guard reports (R9) -/
  | guards
  /-- the MIDNIGHT notice (R19) -/
  | midnight
  /-- the miss count and REF_LOST (R24) -/
  | refLoss
  /-- a path's stall timer (R100) -/
  | stall (p : Fin 2)
  /-- on-air counters (R67) -/
  | onAir
  /-- row tallies joining rows stored (R147) -/
  | tallies
  /-- the firing of the leading due cue, if any (R154) -/
  | cueNext
  /-- the firing of every due cue, then any rebasing (R154, R158) -/
  | cues
  /-- the mixer's whole work (R77, R82 to R85, R88, R89) -/
  | mixer
  /-- the sampling of one event pin (R133) -/
  | pin (p : Fin 12)
  /-- the status block (R181) -/
  | status
deriving DecidableEq, Repr

/-- What a tick brings: the level each event pin shows, bit i for EPi, and the order in which the blocks are taken.
Acts that `order` does not name follow in the order of `Sys2Proof.Machine.frameActs`. -/
structure TickIn where
  levels : BitVec 12
  order : List TickAct
deriving DecidableEq, Repr

/-- The commands, in the order of spec/opcode_table.json. -/
inductive Instr where
  /-- power-on reset, with the CFGSEL strap (R14, R172) -/
  | powerOnReset (cfgsel : Bool)
  | linkReset
  /-- one entry of the configuration memory (its byte 0 in the low bits), or no acknowledge, and the pin levels shown
  should the load end here (R131, R172) -/
  | configEntryRead (entry : Option (BitVec 64)) (levels : BitVec 12)
  | requestAccept (r : Request)
  | downstreamGrant
  | readServed
  | insertQueueJoin
  | sampleTick (t : TickIn)
  | frameTick (t : TickIn)
  | frameCountWrap (t : TickIn)
  | midnight (t : TickIn)
  | refPulse
  | refLost (t : TickIn)
  | unknownCommand
  | setAperture
  | clearAperture
  | setClock
  | presetTimecode
  | setPicture
  | setLane
  | setProgram
  | setSound
  | setTap
  | setBus
  | setPath
  | setRoute
  | setStore
  /-- with the levels the pins show when the command is carried out (R132) -/
  | setPin (levels : BitVec 12)
  | setLineLevels
  | addCue
  | cancelCue
  | forceCue
  | clipMark
  | clipLabel
  | clipDelete
  | sendClip
  | abortSend
  | setNotices
  | clearMedia
  | soundSilent (i : Fin 4) (t : TickIn)
  | soundUnitClose (t : TickIn)
  | markConfirm (p : Fin 12) (t : TickIn)
  | stall (p : Fin 2) (t : TickIn)
  | cueFiring (t : TickIn)
  | transferReadIssue
  | storeReadServed
  | linkUp
deriving DecidableEq, Repr

end Sys2Proof
end

