-- ==== Sys2Proof/WellFormed.lean ====
section
/-! DEFINITION. The commands that can be sent: an upstream request has 1 to 256 bytes and lies in the 40-bit address
space (00_scope.md, request model). Every other operand is in range by its type. -/

namespace Sys2Proof

/-- The request's length is 1 to 256 bytes (request model). -/
def Request.lengthOk (r : Request) : Bool := decide (1 ≤ r.op.len) && decide (r.op.len ≤ 256)

/-- The request's last byte lies in the address space (request model; log 25). -/
def Request.inSpace (r : Request) : Bool := decide (r.addr.toNat + r.op.len ≤ Config.addressSpace)

/-- A command that can be sent. -/
def Instr.wf : Instr → Bool
  | .requestAccept r => r.lengthOk && r.inSpace
  | .powerOnReset _ | .linkReset | .configEntryRead _ _ | .downstreamGrant | .readServed | .insertQueueJoin
  | .sampleTick _ | .frameTick _ | .frameCountWrap _ | .midnight _ | .refPulse | .refLost _ | .unknownCommand
  | .setAperture | .clearAperture | .setClock | .presetTimecode | .setPicture | .setLane | .setProgram | .setSound
  | .setTap | .setBus | .setPath | .setRoute | .setStore | .setPin _ | .setLineLevels | .addCue | .cancelCue
  | .forceCue | .clipMark | .clipLabel | .clipDelete | .sendClip | .abortSend | .setNotices | .clearMedia
  | .soundSilent _ _ | .soundUnitClose _ | .markConfirm _ _ | .stall _ _ | .cueFiring _ | .transferReadIssue
  | .storeReadServed | .linkUp => true

end Sys2Proof
end

