-- ==== Sys2Proof/Decode.lean ====
section
/-! DEFINITION. The commands that a word spells by the table's bits. spec/opcode_table.json gives no row any bits
(no row carries "fixed" or "fields"), so no word spells a command. The bytes of the host's command slots are decoded
in Sys2Proof/Machine/Operands.lean, from R184 and the table of command bodies. -/

namespace Sys2Proof

/-- No row of the table has bits: no word spells a command. -/
def decodeTableWord (_nbits _w : Nat) : Option Instr := none

end Sys2Proof
end

