-- ==== Sys2Proof/Machine/State.lean ====
section
/-! DEFINITION. The state of the Moravin 7140 as plain data: every item the spec gives each block, the DRAM behind the
downstream port, and the queue of waiting commands. Items that the spec calls absent in some state are Options or
constructor arguments; every other item holds a value after reset (INVENTORY.md, "State"). -/

namespace Sys2Proof.Machine

/-! ## The memory path (R1 to R15) -/

/-- DRAM's bytes, in canonical form: addresses strictly rising, none equal to `Config.unwrittenByte`. -/
abbrev Memory := List Host.Cell

/-- The sixteen functions of the aperture map (R4). -/
inductive Fn where
  | commands
  | picture (i : Fin 4)
  | sound (i : Fin 4)
  | path (p : Fin 2)
  | store
  | log
  | notices
  | status
  | monitor
deriving DecidableEq, Repr

/-- A SET entry of the aperture map (R4); an UNSET entry is `none`. -/
structure Aperture where
  base : Nat
  size : Nat
deriving DecidableEq, Repr

/-- A function's guard tally, with the initiator and offset of its first discarded piece (R9). -/
structure GuardTally where
  count : Nat
  initiator : Fin 16
  offset : Nat
deriving DecidableEq, Repr

/-- The aperture map and the guard tallies, by function number. -/
structure Apertures where
  map : Table (Option Aperture) 16
  guards : Table GuardTally 16
deriving DecidableEq, Repr

/-- A piece of an upstream request (R1, R3). `off` is its offset within the aperture of `fn`; `req` and `serial` are the
model's own numbers of the request and of the piece in acceptance order (log 29). -/
structure Piece where
  req : Nat
  serial : Nat
  fn : Option Fn
  guarded : Bool
  off : Nat
  addr : Nat
  initiator : Fin 16
  op : ReqOp
deriving DecidableEq, Repr

/-- The change that R12 ties to an entry "being queued". -/
inductive JoinEffect where
  | nothing
  /-- a placement's header write: published rises to the value it carries (R101) -/
  | publish (p : Fin 2) (v : Nat)
  /-- a stored unit's last cell write: the unit becomes readable (R117) -/
  | readable (seq : W32)
deriving DecidableEq, Repr

/-- What an insert-queue entry asks of DRAM (R12). A read's `tag` says for which unit the transfer engine made it. -/
inductive InsOp where
  | write (addr : Nat) (data : List Byte)
  | read (addr : Nat) (tag : Nat)
deriving DecidableEq, Repr

/-- An entry made by a producing block (R12). -/
structure InsEntry where
  op : InsOp
  eff : JoinEffect
deriving DecidableEq, Repr

/-- An entry of the insert queue; the pieces accepted before it joined are those with a serial below `after` (R13). -/
structure Queued where
  op : InsOp
  after : Nat
deriving DecidableEq, Repr

/-- The insert queue, the holds of the six producing blocks and the turn (R12). Producers by number: 0 control block,
1 path A, 2 path B, 3 clip store, 4 mixer, 5 transfer engine. -/
structure InsertPath where
  queue : List Queued
  holds : Table (List InsEntry) 6
  turn : Fin 6
deriving DecidableEq, Repr

/-- A request granted to the downstream port and not yet served (R13). -/
inductive Granted where
  | piece (p : Piece)
  | entry (op : InsOp)
deriving DecidableEq, Repr

/-- A request accepted and not yet answered: how many of its pieces are still to be granted (a write) or served
(a read), and a read's data so far, in address order (R1). -/
structure OpenReq where
  id : Nat
  initiator : Fin 16
  isRead : Bool
  left : Nat
  data : List Byte
deriving DecidableEq, Repr

/-- An answer given upstream: a write complete, or a read's data (R1). -/
structure Answer where
  id : Nat
  initiator : Fin 16
  isRead : Bool
  data : List Byte
deriving DecidableEq, Repr

/-- The pass-through port (R1, R13, R15). -/
structure Port where
  linkUp : Bool
  held : List Request
  inflight : List Piece
  opens : List OpenReq
  granted : List Granted
  answers : List Answer
  nextReq : Nat
  nextPiece : Nat
deriving DecidableEq, Repr

/-! ## The station clock (R16 to R28) -/

inductive LockState where
  | free | seeking | locked | holdover
deriving DecidableEq, Repr

structure Clock where
  rate : Fin 5
  pendingRate : Option (Fin 5)
  frame : W32
  pos : Nat
  offset : Nat
  lock : LockState
  run : Nat
  miss : Nat
  interval : Nat
  rejected : Nat
  mark : Bool
  steer : Option Nat
deriving DecidableEq, Repr

/-! ## Picture lanes, rate controller, programme selector (R29 to R68) -/

/-- A present geometry (R29): samples per line, lines per frame, frame slots. -/
structure Geometry where
  width : Nat
  lines : Nat
  slots : Nat
deriving DecidableEq, Repr

/-- The intake state of a lane (R32); the four items of IN_FRAME are present only there. -/
inductive Intake where
  | disabled
  | waiting
  | inFrame (slot expected row : Nat) (partialRow : List Byte)
deriving DecidableEq, Repr

/-- A lane's intake (R32), settings and rate state (R52). -/
structure Lane where
  geom : Option Geometry
  intake : Intake
  frameNo : W32
  frameTc : Nat
  strays : W32
  skews : W32
  rowsThis : W32
  rowsLast : W32
  target : Nat
  bound : Nat
  span : Nat
  qFloor : Nat
  kbase : Nat
  record : Bool
  fullness : Int
  q : Nat
deriving DecidableEq, Repr

/-- The programme selector (R62, R67); `waiting` is the pending lane. -/
structure Selector where
  programme : Option (Fin 4)
  waiting : Option (Fin 4)
  onAir : Table W32 4
deriving DecidableEq, Repr

/-! ## Sound (R69 to R93) -/

/-- The intake state of a sound input (R69); expected offset and partial frame are present only while RUNNING. -/
inductive SoundIntake where
  | disabled
  | seeking
  | running (expected : Nat) (partialFrame : List Byte)
deriving DecidableEq, Repr

structure SoundInput where
  channels : Nat
  intake : SoundIntake
  slot : List Int
  fresh : Bool
  invalid : Bool
  silent : Bool
  starve : Nat
  slips : W32
  overruns : W32
  skews : W32
deriving DecidableEq, Repr

/-- A gain tap (R78). -/
structure Tap where
  enabled : Bool
  input : Fin 4
  channel : Fin 16
  bus : Fin 8
  gain : Nat
  target : Nat
  step : Nat
deriving DecidableEq, Repr

/-- A bus's flags (R81, R87) and clip state (R84). -/
structure Bus where
  mute : Bool
  sent : Bool
  monitor : Bool
  clips : W32
  arm : Bool
  satMark : Bool
deriving DecidableEq, Repr

/-- An OPEN sound-unit accumulator (R89); `samples` are the appended outputs in the order collected. -/
structure Accumulator where
  mask : BitVec 8
  start : Nat
  frame : W32
  tc : Nat
  ticks : Nat
  samples : List Int
  invalid : Bool
  silentSource : Bool
deriving DecidableEq, Repr

structure Sound where
  inputs : Table SoundInput 4
  taps : Table Tap 128
  buses : Table Bus 8
  monPos : Nat
  acc : Option Accumulator
  restart : Bool
deriving DecidableEq, Repr

/-! ## Units and home paths (R47, R90, R94 to R115, R149) -/

inductive UnitKind where
  | pictureRow | sound | tag | pad
deriving DecidableEq, Repr

inductive TagEvent where
  | opened | closed | label
deriving DecidableEq, Repr

/-- A unit as it is offered: everything but the sequence, the shed-before field and the REPLAY flag, which placement
fills (R102). A `replay` unit is the stored unit's bytes up to the length in its header (R167). -/
inductive MUnit where
  | row (lane : Fin 4) (frame : W32) (tc row q k bits : Nat) (payload : List Byte)
  | sound (frame : W32) (tc ticks start : Nat) (mask : BitVec 8) (invalid silentSource : Bool) (data : List Byte)
  | tag (source : Fin 4) (frame : W32) (tc clip : Nat) (event : TagEvent) (body : List Byte)
  | replay (kind : UnitKind) (raw : List Byte)
deriving DecidableEq, Repr

inductive PathState where
  | off | running | stalled
deriving DecidableEq, Repr

/-- An entry of a path's unit list (R95): DATA with its sequence, or PAD (`none`). -/
structure RingEntry where
  start : Nat
  cells : Nat
  seq : Option W32
deriving DecidableEq, Repr

/-- A home path (R94). The five sources of `sheds` and `shedRuns` are lanes 0 to 3 and sound (4). -/
structure HomePath where
  state : PathState
  consumer : Fin 16
  high : Nat
  low : Nat
  ceiling : Nat
  limit : Nat
  placed : Nat
  published : Nat
  consumed : Nat
  units : List RingEntry
  nextSeq : W32
  arm : Bool
  stall : Nat
  stallAt : Nat
  tags : List MUnit
  heldOffer : Option MUnit
  sheds : Table W32 5
  shedRuns : Table Nat 5
  early : W32
  epoch : W32
deriving DecidableEq, Repr

inductive Route where
  | a | b | both | aThenB
deriving DecidableEq, Repr

structure Home where
  paths : Table HomePath 2
  route : Route
deriving DecidableEq, Repr

/-! ## Clip store (R116 to R130) -/

/-- The store's state; the blocking clip is present only while BLOCKED (R116). -/
inductive StoreState where
  | off
  | running
  | blocked (clip : Nat)
deriving DecidableEq, Repr

/-- What a DATA entry of the retained list holds (R117); `source` is the lane, or none for sound. -/
structure StoredUnit where
  seq : W32
  source : Option (Fin 4)
  frame : W32
  readable : Bool
deriving DecidableEq, Repr

/-- An entry of the retained list (R117): DATA, or PAD (`none`). -/
structure Retained where
  start : Nat
  cells : Nat
  unit : Option StoredUnit
deriving DecidableEq, Repr

/-- An entry of a frame index (R125). -/
structure IndexEntry where
  frame : W32
  seq : W32
  cell : Nat
deriving DecidableEq, Repr

structure Store where
  state : StoreState
  head : Nat
  nextSeq : W32
  retained : List Retained
  gaps : W32
  gapRuns : Table Nat 5
  epoch : W32
  index : Table (List IndexEntry) 4
  openMark : Table Bool 4
deriving DecidableEq, Repr

/-! ## Event pins (R131, R159) -/

inductive PinFn where
  | unused | mark | line
deriving DecidableEq, Repr

inductive Edge where
  | rising | falling | both
deriving DecidableEq, Repr

inductive MarkAction where
  | markIn | markOut | toggle | label
deriving DecidableEq, Repr

inductive LineMode where
  | level | tally | blink
deriving DecidableEq, Repr

/-- A pin's candidate (R131, R133): captured frame and timecode, ticks left. -/
structure Candidate where
  frame : W32
  tc : Nat
  left : Nat
deriving DecidableEq, Repr

structure Pin where
  fn : PinFn
  edge : Edge
  filter : Nat
  action : MarkAction
  input : Fin 4
  label : W16
  preroll : Nat
  confirmed : Bool
  last : Bool
  cand : Option Candidate
  edges : W16
  glitches : W16
  mode : LineMode
  tally : Fin 4
  period : Nat
  onCount : Nat
  level : Bool
deriving DecidableEq, Repr

/-! ## Clip log (R136) -/

inductive ClipState where
  | free | opened | closed | sending | sent | lost
deriving DecidableEq, Repr

/-- A clip record (R136). `first` and `last` are store sequence and cell. -/
structure Clip where
  num : Nat
  state : ClipState
  prior : Option ClipState
  source : Fin 4
  inFrame : W32
  inTc : Nat
  out : Option (W32 × Nat)
  stamp : Option W32
  labels : List W16
  labelsDropped : Nat
  prerollShort : Bool
  endPending : Bool
  firstPending : Bool
  logOnly : Bool
  gap : Bool
  first : Option (W32 × Nat)
  last : Option (W32 × Nat)
  damaged : Nat
  rowsStored : Nat
  tally : Nat
  sends : W16
  rev : BitVec 8
deriving DecidableEq, Repr

structure ClipLog where
  recs : Table Clip 256
  nextNum : Nat
  closeCount : W32
  opens : Table (Option Nat) 4
deriving DecidableEq, Repr

/-! ## Cue timeline (R151) -/

/-- An action slot of a cue (R151, R155). -/
inductive CueAct where
  | none
  | switch (lane : Fin 4)
  | fade (tap : Fin 128) (target step : Nat)
  | lines (mask data : BitVec 12)
  | clipIn (input : Fin 4)
  | clipOut (input : Fin 4)
  | label (input : Fin 4) (code : W16)
deriving DecidableEq, Repr

structure Cue where
  id : Nat
  dueTc : Nat
  due : W32
  late : Bool
  acts : Table CueAct 4
deriving DecidableEq, Repr

/-! ## Transfer engine (R164) -/

/-- An entry of the send queue (R164). -/
structure Send where
  clip : Nat
  path : Fin 2
deriving DecidableEq, Repr

/-- The send queue, whose first entry is the active transfer, and the active transfer's state (R164). `issued` says that
the cursor's reads have been made; `tag` numbers the read sets (log 29). -/
structure Transfer where
  queue : List Send
  cursor : W32
  remaining : Nat
  paused : Bool
  issued : Bool
  buffer : List (List Byte)
  placed : W32
  skipped : W32
  oversize : W32
  tag : Nat
deriving DecidableEq, Repr

/-! ## Control block (R172 to R182) -/

/-- The start-up loader: about to read entry `next`, after an entry of tag `lastTag`; or ended (R172). -/
inductive Loader where
  | reading (next : Nat) (lastTag : Option Nat)
  | ended
deriving DecidableEq, Repr

inductive LoadResult where
  | none | ok | error | absent
deriving DecidableEq, Repr

inductive ResetCause where
  | powerOn | link
deriving DecidableEq, Repr

inductive ReleaseMode where
  | read | write
deriving DecidableEq, Repr

/-- The thirty kinds of notice (11.3), in number order from 1. -/
inductive NoticeKind where
  | guard | commandIgnored | refLost | refLocked | midnight | skew | programSwitched | soundSilent | soundBack | busClip
  | pressure | stall | resume | failover | restore | tagDropped | storeBlocked | storeResumed | clipOpened | clipClosed
  | clipLost | logFull | orphanOut | orphanLabel | cueFired | cueForced | cueSkipped | cueActionFailed | transferDone
  | transferEnded
deriving DecidableEq, Repr

/-- A queued command: its slot and the 64 bytes of the slot copied at arrival (R174). -/
structure Command where
  slot : Fin 16
  bytes : List Byte
deriving DecidableEq, Repr

structure Control where
  cfgsel : Bool
  loader : Loader
  cmdBase : Nat
  controlInit : Fin 16
  loadResult : LoadResult
  loadErr : Nat
  applied : Nat
  cause : ResetCause
  clears : W32
  shadow : Table Byte 1024
  marks : Table Bool 16
  queue : List Command
  mode : ReleaseMode
  mask : BitVec 32
  written : Nat
  released : Nat
  lostBefore : Nat
  lostTotal : W32
  unreleased : List NoticeKind
  attn : Bool
deriving DecidableEq, Repr

/-! ## The whole machine -/

/-- The state: the queue of waiting commands, DRAM, the pins' levels, and the blocks. -/
structure State where
  pending : List Instr
  dram : Memory
  epIn : BitVec 12
  port : Port
  ins : InsertPath
  aps : Apertures
  clock : Clock
  lanes : Table Lane 4
  sel : Selector
  snd : Sound
  home : Home
  store : Store
  pins : Table Pin 12
  log : ClipLog
  cues : List Cue
  xfer : Transfer
  ctl : Control
deriving DecidableEq, Repr

/-- Why the machine stops with a fault. -/
inductive Fault where
  /-- REQUEST_ACCEPT, for a request whose last byte lies beyond the 40-bit address space, which the request model
  (00_scope.md) does not have. Safe: the model stops (log 25). -/
  | outsideAddressSpace
deriving DecidableEq, Repr

/-- Why the model gives a command no meaning. -/
inductive Refusal where
  /-- exec, for a command that has no meaning yet; no arm answers it. Safe. -/
  | notModelled (mnemonic : String)
  /-- REQUEST_ACCEPT, for a request whose length is not 1 to 256 bytes, which the request model (00_scope.md) does not
  have. Safe: the model stops (log 25). -/
  | malformedRequest
deriving DecidableEq, Repr

/-! ## The state after power-on reset -/

/-- R14: the memory path starts empty; the turn stands at the control block (R12). -/
def Port.reset : Port := ⟨true, [], [], [], [], [], 0, 0⟩
def InsertPath.reset : InsertPath := ⟨[], Table.fill 6 [], 0⟩
/-- Every entry UNSET, every tally 0 (R4, R9). -/
def Apertures.reset : Apertures := ⟨Table.fill 16 none, Table.fill 16 ⟨0, 0, 0⟩⟩

/-- R28. -/
def Clock.reset : Clock where
  rate := 1
  pendingRate := none
  frame := 0
  pos := 0
  offset := 0
  lock := .free
  run := 0
  miss := 0
  interval := 65535
  rejected := 0
  mark := false
  steer := none

/-- R32, R52. -/
def Lane.reset : Lane where
  geom := none
  intake := .disabled
  frameNo := 0
  frameTc := 0
  strays := 0
  skews := 0
  rowsThis := 0
  rowsLast := 0
  target := 1024
  bound := 65536
  span := 4096
  qFloor := 0
  kbase := 3
  record := false
  fullness := 0
  q := 0

/-- R62, R67. -/
def Selector.reset : Selector := ⟨none, none, Table.fill 4 0⟩

/-- R69. -/
def SoundInput.reset : SoundInput := ⟨2, .disabled, [0, 0], false, false, false, 0, 0, 0, 0⟩
/-- R78. -/
def Tap.reset : Tap := ⟨false, 0, 0, 0, 0, 0, 1⟩
/-- R84, R87. -/
def Bus.reset : Bus := ⟨false, false, false, 0, true, false⟩
/-- R93. -/
def Sound.reset : Sound :=
  ⟨Table.fill 4 .reset, Table.fill 128 .reset, Table.fill 8 .reset, 0, none, false⟩

/-- R94. -/
def HomePath.reset : HomePath where
  state := .off
  consumer := 0
  high := 1
  low := 0
  ceiling := 0
  limit := 250
  placed := 0
  published := 0
  consumed := 0
  units := []
  nextSeq := 0
  arm := true
  stall := 0
  stallAt := 0
  tags := []
  heldOffer := none
  sheds := Table.fill 5 0
  shedRuns := Table.fill 5 0
  early := 0
  epoch := 0

/-- R94, R110. -/
def Home.reset : Home := ⟨Table.fill 2 .reset, .a⟩

/-- R116. -/
def Store.reset : Store := ⟨.off, 0, 0, [], 0, Table.fill 5 0, 0, Table.fill 4 [], Table.fill 4 false⟩

/-- A pin number modulo 4: the power-on input and tally input (R131, R159). -/
def pinInput (p : Fin 12) : Fin 4 := ⟨p.val % 4, Nat.mod_lt _ (by decide)⟩

/-- R131, R159. -/
def Pin.reset (p : Fin 12) : Pin where
  fn := .unused
  edge := .rising
  filter := 16
  action := .toggle
  input := pinInput p
  label := 0
  preroll := 0
  confirmed := false
  last := false
  cand := none
  edges := 0
  glitches := 0
  mode := .level
  tally := pinInput p
  period := 50
  onCount := 25
  level := false

/-- A FREE record of revision `rev` (R136): its other fields have no meaning and are held at 0. -/
def Clip.free (rev : BitVec 8) : Clip where
  num := 0
  state := .free
  prior := none
  source := 0
  inFrame := 0
  inTc := 0
  out := none
  stamp := none
  labels := []
  labelsDropped := 0
  prerollShort := false
  endPending := false
  firstPending := false
  logOnly := false
  gap := false
  first := none
  last := none
  damaged := 0
  rowsStored := 0
  tally := 0
  sends := 0
  rev := rev

/-- R150. -/
def ClipLog.reset : ClipLog := ⟨Table.fill 256 (.free 0), 1, 0, Table.fill 4 none⟩

/-- R164; the cursor and the phase of no transfer are DESIGN CHOICE 0 and READING (log 27). -/
def Transfer.reset : Transfer := ⟨[], 0, 0, false, false, [], 0, 0, 0, 0⟩

/-- The kinds that are always in the attention mask: GUARD 1, STALL 12, STORE_BLOCKED 17, LOG_FULL 22 (R177). -/
def alwaysMask : BitVec 32 := 1 <<< 1 ||| 1 <<< 12 ||| 1 <<< 17 ||| 1 <<< 22

/-- R172 to R178: the loader is about to read entry 0. Until the load ends, the load result is NONE and the index of the
offending entry 0 (log 51). -/
def Control.reset : Control where
  cfgsel := true
  loader := .reading 0 none
  cmdBase := Config.defaultCommandsBase
  controlInit := 0
  loadResult := .none
  loadErr := 0
  applied := 0
  cause := .powerOn
  clears := 0
  shadow := Table.fill 1024 0
  marks := Table.fill 16 false
  queue := []
  mode := .read
  mask := alwaysMask
  written := 0
  released := 0
  lostBefore := 0
  lostTotal := 0
  unreleased := []
  attn := false

/-- The machine right after power-on reset, with CFGSEL high and the start-up load still to come (R14; log 6). -/
def State.reset : State where
  pending := []
  dram := []
  epIn := 0
  port := .reset
  ins := .reset
  aps := .reset
  clock := .reset
  lanes := Table.fill 4 .reset
  sel := .reset
  snd := .reset
  home := .reset
  store := .reset
  pins := Table.ofFn Pin.reset
  log := .reset
  cues := []
  xfer := .reset
  ctl := .reset

end Sys2Proof.Machine
end

