-- ==== Sys2Proof/Machine/Bytes.lean ====
section
/-! DEFINITION. Byte order, holding and modular counts, and small list operations that the meanings share. -/

namespace Sys2Proof.Machine

/-! ## Little-endian fields (00_scope.md, Conventions; R183) -/

/-- The low `w` bytes of `v`, least significant first. -/
def le : Nat → Nat → List Byte
  | 0, _ => []
  | w + 1, v => BitVec.ofNat 8 v :: le w (v / 256)

/-- A signed field of `w` bytes, in two's complement (R183). -/
def leInt (w : Nat) (v : Int) : List Byte := le w (v % (256 ^ w : Nat)).toNat

/-- The number that bytes spell, least significant first. -/
def ofLe : List Byte → Nat
  | [] => 0
  | b :: bs => b.toNat + 256 * ofLe bs

def zeros (n : Nat) : List Byte := List.replicate n 0

/-- `bs` with zero bytes behind it, up to `n` bytes in all. -/
def padTo (n : Nat) (bs : List Byte) : List Byte := bs ++ zeros (n - bs.length)

def slice (off len : Nat) (bs : List Byte) : List Byte := (bs.drop off).take len

/-- `bs` as `c` cells of 64 bytes, the last filled with zeros (R101, R121). -/
def cellsOf (c : Nat) (bs : List Byte) : List (List Byte) :=
  (List.range c).map fun i => padTo 64 (slice (64 * i) 64 bs)

/-- How many cells `n` bytes take (R47, R90, R149). -/
def cellCountOf (n : Nat) : Nat := (n + 63) / 64

/-- The bytes `bs` with the bytes from offset `off` on replaced by `new`. -/
def patch (off : Nat) (new bs : List Byte) : List Byte :=
  bs.take off ++ new ++ bs.drop (off + new.length)

/-- A byte of flags, bit 0 first. -/
def flagByte (bits : List Bool) : Byte :=
  BitVec.ofNat 8 (bits.foldr (fun b acc => b.toNat + 2 * acc) 0)

/-! ## Counts -/

/-- One more, holding at `cap`. -/
def holdInc (cap n : Nat) : Nat := min (n + 1) cap

/-- clamp(x, a, b): the nearest value to x in a to b (00_scope.md, Conventions). -/
def clampInt (x a b : Int) : Int := max a (min x b)

/-- clamp on natural numbers. -/
def clampNat (x a b : Nat) : Nat := max a (min x b)

/-- (a - b) mod d on natural numbers, also when b is above a. -/
def subMod (a b d : Nat) : Nat := (((a : Int) - (b : Int)) % (d : Int)).toNat

/-! ## Comparison by modular difference (R17; store sequences R117; close stamps R136) -/

/-- The distance from `a` to `b`: (b - a) mod 2^32. -/
def dist (a b : W32) : Nat := (b - a).toNat

/-- `a` is at or before `b`. -/
def atOrBefore (a b : W32) : Bool := decide (dist a b < 2 ^ 31)

/-- `a` is after `b`: not at or before it. -/
def isAfter (a b : W32) : Bool := !atOrBefore a b

/-- `a` is earlier than `b`. -/
def earlier (a b : W32) : Bool := atOrBefore a b && decide (a ≠ b)

/-- `f` lies from `a` to `b` (R166, R123). -/
def within (a f b : W32) : Bool := atOrBefore a f && atOrBefore f b

/-! ## Lists -/

/-- The last element that satisfies `p`, with the elements behind it. -/
def splitLast {α : Type} (p : α → Bool) : List α → Option (α × List α)
  | [] => none
  | x :: xs =>
    match splitLast p xs with
    | some r => some r
    | none => if p x then some (x, xs) else none

/-- `x` put into a list ordered by rising `key`, behind the elements of an equal key. -/
def insertBy {α : Type} (key : α → Nat) (x : α) : List α → List α
  | [] => [x]
  | y :: ys => if key y ≤ key x then y :: insertBy key x ys else x :: y :: ys

/-- A list in order of rising `key`, elements of an equal key in the order they had. -/
def sortBy {α : Type} (key : α → Nat) (l : List α) : List α := l.foldl (fun acc x => insertBy key x acc) []

/-- The members of a set as bits: bit i for member i (R183). -/
def setBits (members : List Nat) : Nat := members.foldl (fun acc i => acc ||| 1 <<< i) 0

/-- The positions at which a list of marks is true. -/
def marked (bs : List Bool) : List Nat := (List.range bs.length).filter fun i => bs.getD i false

end Sys2Proof.Machine
end

