-- ==== Sys2Proof/Machine/Flags.lean ====
section
/-! DEFINITION. What is computed from the state and shown as a flag, a level or a set: functions' apertures and running
marks, timecode, the effective route set, ATTN, the driven level of an event pin. -/

namespace Sys2Proof.Machine

/-! ## Function numbers and properties (R4) -/

/-- The number of a function (R4). -/
def Fn.num : Fn → Fin 16
  | .commands => 0
  | .picture i => ⟨1 + i.val, by omega⟩
  | .sound i => ⟨5 + i.val, by omega⟩
  | .path p => ⟨9 + p.val, by omega⟩
  | .store => 11
  | .log => 12
  | .notices => 13
  | .status => 14
  | .monitor => 15

/-- The function of a number (R4). -/
def Fn.ofNum (n : Fin 16) : Fn :=
  match n.val with
  | 0 => .commands
  | 1 => .picture 0
  | 2 => .picture 1
  | 3 => .picture 2
  | 4 => .picture 3
  | 5 => .sound 0
  | 6 => .sound 1
  | 7 => .sound 2
  | 8 => .sound 3
  | 9 => .path 0
  | 10 => .path 1
  | 11 => .store
  | 12 => .log
  | 13 => .notices
  | 14 => .status
  | _ => .monitor

/-- A function's minimum aperture size (R4). -/
def Fn.minSize : Fn → Nat
  | .store => 65536
  | .log => 16384
  | .commands | .picture _ | .sound _ | .path _ | .notices | .status | .monitor => 4096

/-- Whether a piece of `len` bytes at offset `off` has a byte in the guarded part (R4, R8). -/
def Fn.guards (f : Fn) (off len : Nat) : Bool :=
  match f with
  | .commands => decide (off < 64)
  | .picture _ | .sound _ => false
  | .path _ | .store | .log | .status | .monitor => true
  | .notices => !(decide (8 ≤ off) && decide (off + len ≤ 16))

/-- The map entry of a function (R4). -/
def ap (f : Fn) (s : State) : Option Aperture := s.aps.map.get f.num

/-- The base of a function's aperture; 0 while it is UNSET, when no rule asks for it (log 33). -/
def apBase (f : Fn) (s : State) : Nat := ((ap f s).map (·.base)).getD 0

/-- The size of a function's aperture; 0 while it is UNSET (log 33). -/
def apSize (f : Fn) (s : State) : Nat := ((ap f s).map (·.size)).getD 0

/-- The cell count of a ring or of the store: the aperture size over 64, less one for the header (R95, R117). -/
def cellsIn (size : Nat) : Nat := size / 64 - 1

/-- A path's cell count (R95). -/
def pathCells (p : Fin 2) (s : State) : Nat := cellsIn (apSize (.path p) s)

/-- The store's cell count (R117). -/
def storeCells (s : State) : Nat := cellsIn (apSize .store s)

/-- The notice ring's slots: the aperture size over 32, less two (11.3). -/
def noticeSlots (size : Nat) : Nat := size / 32 - 2

/-! ## Enables -/

/-- A lane is enabled while its intake is not DISABLED (R31, R33). -/
def Lane.enabled (l : Lane) : Bool := decide (l.intake ≠ .disabled)

/-- A lane records while it is enabled and its record flag is set (R52). -/
def Lane.recording (l : Lane) : Bool := l.enabled && l.record

/-- A sound input is enabled while SEEKING or RUNNING (R69). -/
def SoundInput.enabled (i : SoundInput) : Bool := decide (i.intake ≠ .disabled)

/-- "Running while" of R4. -/
def Fn.running (f : Fn) (s : State) : Bool :=
  match f with
  | .commands => true
  | .picture i => (s.lanes.get i).enabled
  | .sound i => (s.snd.inputs.get i).enabled
  | .path p => decide ((s.home.paths.get p).state ≠ .off)
  | .store => decide (s.store.state ≠ .off)
  | .log | .notices | .status | .monitor => false

/-! ## Time (R17, R18) -/

/-- D of the rate in force. -/
def dayFrames (s : State) : Nat := Config.framesPerDay s.clock.rate

/-- The timecode of the frame whose count is `n`: (n + offset) mod D (R18). -/
def Clock.timecodeAt (c : Clock) (n : W32) : Nat := (n.toNat + c.offset) % Config.framesPerDay c.rate

/-- The current timecode (R18). -/
def timecode (s : State) : Nat := s.clock.timecodeAt s.clock.frame

/-- How sample ticks are spaced (R20); their times are not modelled (log 24). -/
inductive Spacing where
  | ownTimeBase
  | steered (target : Option Nat)
  | heldAsLeft
deriving DecidableEq, Repr

/-- The spacing rule in force (R20). -/
def Clock.spacing (c : Clock) : Spacing :=
  match c.lock with
  | .free | .seeking => .ownTimeBase
  | .locked => .steered c.steer
  | .holdover => .heldAsLeft

/-! ## Home paths -/

/-- In-use: placed less consumed (R94). -/
def HomePath.inUse (P : HomePath) : Nat := P.placed - P.consumed

def HomePath.enabled (P : HomePath) : Bool := decide (P.state ≠ .off)

/-- The effective route set (R111), as a list of paths in the order A, B. -/
def effectiveRoute (s : State) : List (Fin 2) :=
  let a := (s.home.paths.get 0).state
  let b := (s.home.paths.get 1).state
  match s.home.route with
  | .a => if a ≠ .off then [0] else []
  | .b => if b ≠ .off then [1] else []
  | .both => (if a ≠ .off then [0] else []) ++ (if b ≠ .off then [1] else [])
  | .aThenB =>
    if a = .running then [0]
    else if b = .running then [1]
    else if a ≠ .off then [0]
    else []

/-- The effective route set as bits, path A at bit 0 (R183). -/
def routeBits (s : State) : Nat := setBits ((effectiveRoute s).map (·.val))

/-! ## Notices -/

/-- The number of a notice kind (11.3). -/
def NoticeKind.num : NoticeKind → Nat
  | .guard => 1 | .commandIgnored => 2 | .refLost => 3 | .refLocked => 4 | .midnight => 5 | .skew => 6
  | .programSwitched => 7 | .soundSilent => 8 | .soundBack => 9 | .busClip => 10 | .pressure => 11 | .stall => 12
  | .resume => 13 | .failover => 14 | .restore => 15 | .tagDropped => 16 | .storeBlocked => 17
  | .storeResumed => 18 | .clipOpened => 19 | .clipClosed => 20 | .clipLost => 21 | .logFull => 22
  | .orphanOut => 23 | .orphanLabel => 24 | .cueFired => 25 | .cueForced => 26 | .cueSkipped => 27
  | .cueActionFailed => 28 | .transferDone => 29 | .transferEnded => 30

/-- ATTN is high exactly when an unreleased notice has a kind in the mask (R180). -/
def attnOf (mask : BitVec 32) (unreleased : List NoticeKind) : Bool :=
  unreleased.any fun k => mask.getLsbD k.num

/-! ## Output lines (R160) -/

/-- A lane number, or 0xFF for none (R183). -/
def laneCode (l : Option (Fin 4)) : Nat := (l.map (·.val)).getD 0xFF

/-- The level a pin drives, or none when it is not driven: only a LINE pin is, and only from the end of the start-up
load on (R160, R163). -/
def drivenLevel (p : Fin 12) (s : State) : Option Bool :=
  let pin := s.pins.get p
  if s.ctl.loader ≠ .ended then none
  else
    match pin.fn with
    | .unused | .mark => none
    | .line =>
      some (match pin.mode with
        | .level => pin.level
        | .tally => decide (s.sel.programme = some pin.tally)
        | .blink => decide (s.clock.frame.toNat % pin.period < pin.onCount))

end Sys2Proof.Machine
end

