-- ==== Sys2Proof/Machine/Records.lean ====
section
/-! DEFINITION. The byte layouts of every record the part writes (12_memory_formats.md, R183, R185). -/

namespace Sys2Proof.Machine

/-! ## Encodings -/

def UnitKind.code : UnitKind → Nat
  | .pictureRow => 1 | .sound => 2 | .tag => 3 | .pad => 4

def TagEvent.code : TagEvent → Nat
  | .opened => 1 | .closed => 2 | .label => 3

def ClipState.code : ClipState → Nat
  | .free => 0 | .opened => 1 | .closed => 2 | .sending => 3 | .sent => 4 | .lost => 5

def Intake.code : Intake → Nat
  | .disabled => 0 | .waiting => 1 | .inFrame _ _ _ _ => 2

def SoundIntake.code : SoundIntake → Nat
  | .disabled => 0 | .seeking => 1 | .running _ _ => 2

def PathState.code : PathState → Nat
  | .off => 0 | .running => 1 | .stalled => 2

def StoreState.code : StoreState → Nat
  | .off => 0 | .running => 1 | .blocked _ => 2

def LockState.code : LockState → Nat
  | .free => 0 | .seeking => 1 | .locked => 2 | .holdover => 3

def ResetCause.code : ResetCause → Nat
  | .powerOn => 1 | .link => 2

def LoadResult.code : LoadResult → Nat
  | .none => 0 | .ok => 1 | .error => 2 | .absent => 3

/-- A clip's flags (Encodings). -/
def Clip.flags (c : Clip) : Byte := flagByte [c.prerollShort, c.endPending, c.firstPending, c.logOnly, c.gap]

/-! ## Units (R47, R90, R149) -/

/-- The 16-byte common unit header. -/
def unitHeader (kind : UnitKind) (source len : Nat) (frame : W32) (tc : Nat) (flags : Byte) (seq : W32) : List Byte :=
  le 1 kind.code ++ le 1 source ++ le 2 len ++ le 4 frame.toNat ++ le 3 tc ++ [flags] ++ le 4 seq.toNat

def MUnit.kind : MUnit → UnitKind
  | .row .. => .pictureRow
  | .sound .. => .sound
  | .tag .. => .tag
  | .replay k _ => k

/-- A unit's length in bytes (R47, R90, R149). -/
def MUnit.length : MUnit → Nat
  | .row _ _ _ _ _ _ _ payload => 28 + payload.length
  | .sound _ _ _ _ _ _ _ data => 28 + data.length
  | .tag _ _ _ _ _ body => 16 + body.length
  | .replay _ raw => raw.length

/-- The cells a unit occupies. -/
def MUnit.cells (u : MUnit) : Nat := cellCountOf u.length

/-- Where the shed-before field lies in a unit of a kind (Units layouts), when it has one. -/
def shedOffset : UnitKind → Option Nat
  | .pictureRow => some 24
  | .sound => some 22
  | .tag | .pad => none

/-- A unit's bytes with the fields of R102 filled: the sequence, the shed-before field and, for a replay unit, the
REPLAY flag and shed-before 0 (R105). -/
def MUnit.bytes (u : MUnit) (seq : W32) (shed : Nat) : List Byte :=
  match u with
  | .row lane frame tc j q k bits payload =>
    unitHeader .pictureRow lane.val u.length frame tc 0 seq
      ++ le 2 j ++ le 1 q ++ le 1 k ++ le 4 bits ++ le 2 shed ++ zeros 2 ++ payload
  | .sound frame tc ticks start mask invalid silentSource data =>
    unitHeader .sound 0 u.length frame tc 0 seq
      ++ le 1 ticks ++ [mask] ++ le 2 start ++ [flagByte [invalid, silentSource]] ++ zeros 1 ++ le 2 shed ++ zeros 4
      ++ data
  | .tag source frame tc _ _ body => unitHeader .tag source.val u.length frame tc 0 seq ++ body
  | .replay kind raw =>
    let marked := patch 11 [raw.getD 11 0 ||| 1] (patch 12 (le 4 seq.toNat) raw)
    match shedOffset kind with
    | some o => patch o (le 2 0) marked
    | none => marked

/-- A pad's first cell: a common header of kind PAD and zeros (R101, R121). -/
def padCell (e : Nat) (frame : W32) (tc : Nat) : List Byte :=
  padTo 64 (unitHeader .pad 0 (e * 64) frame tc 0 0)

/-- A tag unit's prefix and labels (R149), from the record as it stands. -/
def tagBody (c : Clip) (event : TagEvent) : List Byte :=
  le 2 c.num ++ le 1 event.code ++ [flagByte [c.out.isSome, c.first.isSome, c.last.isSome]]
    ++ le 4 c.inFrame.toNat ++ le 4 c.inTc
    ++ le 4 ((c.out.map (·.1.toNat)).getD 0) ++ le 4 ((c.out.map (·.2)).getD 0)
    ++ [c.flags] ++ le 1 c.labels.length ++ zeros 2
    ++ le 4 ((c.first.map (·.1.toNat)).getD 0) ++ le 4 ((c.last.map (·.1.toNat)).getD 0)
    ++ c.labels.flatMap (fun l => le 2 l.toNat)

/-! ## Ring and store headers -/

/-- The ring header of a path (R95, R113). -/
def ringHeader (published cells : Nat) (epoch : W32) : List Byte :=
  padTo 64 (le 8 published ++ le 4 cells ++ le 4 epoch.toNat)

/-- The sequence of the first DATA entry (R117). -/
def oldestSeq (r : List Retained) : Option W32 := r.findSome? fun e => e.unit.map (·.seq)

/-- The store header (R117). -/
def storeHeader (st : Store) (cells : Nat) : List Byte :=
  padTo 64 (le 8 st.head ++ le 4 st.nextSeq.toNat ++ le 4 (((oldestSeq st.retained).map (·.toNat)).getD 0)
    ++ le 1 (if (oldestSeq st.retained).isNone then 1 else 0) ++ zeros 3 ++ le 4 cells ++ le 4 st.epoch.toNat)

/-! ## Command area -/

/-- The header record (R173, Command area layout). -/
def headerRecord (c : Control) : List Byte :=
  padTo 64 (le 2 Config.partCode ++ le 1 Config.partRevision ++ le 1 c.cause.code ++ le 1 c.loadResult.code
    ++ le 1 c.loadErr ++ le 2 c.applied ++ le 4 c.clears.toNat)

/-! ## Notices -/

/-- A detail item: its width and value (R185). -/
structure Item where
  width : Nat
  val : Nat
deriving DecidableEq, Repr

/-- Items of the one-, two-, four-, five- and eight-byte classes (table of detail widths). -/
def b1 (v : Nat) : Item := ⟨1, v⟩
def b2 (v : Nat) : Item := ⟨2, v⟩
def b4 (v : Nat) : Item := ⟨4, v⟩
def b5 (v : Nat) : Item := ⟨5, v⟩
def b8 (v : Nat) : Item := ⟨8, v⟩
/-- A signed four-byte item in two's complement (R183). -/
def b4s (v : Int) : Item := ⟨4, (v % (2 ^ 32 : Int)).toNat⟩

/-- The 16 detail bytes: the items packed from byte 0, the rest zero (R185). -/
def detailBytes (items : List Item) : List Byte := padTo 16 (items.flatMap fun i => le i.width i.val)

/-- A notice record (Notices layout). -/
def noticeRecord (kind : NoticeKind) (subject lostBefore : Nat) (frame : W32) (tc : Nat) (items : List Item) :
    List Byte :=
  le 1 kind.num ++ zeros 1 ++ le 2 subject ++ le 2 lostBefore ++ zeros 2 ++ le 4 frame.toNat ++ le 4 tc
    ++ detailBytes items

/-! ## Clip record -/

/-- A clip record (Clip record layout); a FREE one is zero but for its revision (R148). -/
def clipRecord (c : Clip) : List Byte :=
  if c.state = .free then zeros 5 ++ [c.rev] ++ zeros 58
  else
    le 2 c.num ++ le 1 (c.state.code + 16 * ((c.prior.map ClipState.code).getD 0)) ++ [c.flags]
      ++ le 1 (c.source.val + 16 * c.out.isSome.toNat + 32 * c.stamp.isSome.toNat + 64 * c.first.isSome.toNat
          + 128 * c.last.isSome.toNat)
      ++ [c.rev] ++ le 2 c.labelsDropped ++ le 4 c.inFrame.toNat ++ le 4 c.inTc
      ++ le 4 ((c.out.map (·.1.toNat)).getD 0) ++ le 4 ((c.out.map (·.2)).getD 0)
      ++ le 4 ((c.stamp.map (·.toNat)).getD 0)
      ++ le 4 ((c.first.map (·.1.toNat)).getD 0) ++ le 4 ((c.first.map (·.2)).getD 0)
      ++ le 4 ((c.last.map (·.1.toNat)).getD 0) ++ le 4 ((c.last.map (·.2)).getD 0)
      ++ padTo 12 (c.labels.flatMap fun l => le 2 l.toNat)
      ++ le 2 c.damaged ++ le 2 c.sends.toNat ++ le 4 c.rowsStored

/-! ## Status block -/

def laneStatus (l : Lane) : List Byte :=
  le 1 l.intake.code ++ le 1 l.q ++ zeros 2 ++ leInt 4 l.fullness ++ le 4 l.rowsLast.toNat ++ le 4 l.skews.toNat
    ++ le 4 l.strays.toNat ++ le 4 l.frameNo.toNat

def soundStatus (i : SoundInput) : List Byte :=
  le 1 i.intake.code ++ le 1 i.silent.toNat ++ le 1 i.invalid.toNat ++ zeros 1 ++ le 4 i.slips.toNat
    ++ le 4 i.overruns.toNat ++ le 4 i.skews.toNat

def pathStatus (P : HomePath) : List Byte :=
  le 1 P.state.code ++ le 1 P.tags.length ++ zeros 2 ++ le 4 P.nextSeq.toNat ++ le 8 P.placed ++ le 8 P.published
    ++ le 8 P.consumed ++ P.sheds.items.flatMap (fun c => le 4 c.toNat) ++ le 4 P.early.toNat

def storeStatus (st : Store) : List Byte :=
  le 1 st.state.code ++ le 1 (if (oldestSeq st.retained).isNone then 1 else 0) ++ zeros 2
    ++ le 4 (((oldestSeq st.retained).map (·.toNat)).getD 0) ++ le 8 st.head ++ le 4 st.gaps.toNat

/-- The 436 bytes of the status block (R181, Status block layout). -/
def statusBlock (s : State) : List Byte :=
  le 4 s.clock.frame.toNat ++ le 4 (timecode s) ++ le 1 s.clock.lock.code ++ le 1 (laneCode s.sel.programme)
    ++ le 1 (laneCode s.sel.waiting) ++ zeros 1
    ++ s.sel.onAir.items.flatMap (fun c => le 4 c.toNat)
    ++ s.lanes.items.flatMap laneStatus
    ++ s.snd.inputs.items.flatMap soundStatus
    ++ s.snd.buses.items.flatMap (fun b => le 4 b.clips.toNat)
    ++ s.home.paths.items.flatMap pathStatus
    ++ storeStatus s.store
    ++ le 4 s.snd.monPos
    ++ s.pins.items.flatMap (fun p => le 2 p.edges.toNat ++ le 2 p.glitches.toNat)
    ++ le 2 ((s.xfer.queue.head?.map (·.clip)).getD 0) ++ zeros 2 ++ le 4 s.xfer.remaining
    ++ le 8 s.ctl.written ++ le 8 s.ctl.released ++ le 4 s.ctl.lostTotal.toNat
    ++ le 4 s.clock.frame.toNat

end Sys2Proof.Machine
end

