-- ==== Sys2Proof/Machine/Ops.lean ====
section
/-! DEFINITION. The operations the meanings share: a change of one block, reads and writes of DRAM, entries for the
insert queue, notices, mirror writes. Each rests on the rule it cites. -/

namespace Sys2Proof.Machine

/-! ## A change of one block -/

def State.modPort (f : Port → Port) (s : State) : State := { s with port := f s.port }
def State.modIns (f : InsertPath → InsertPath) (s : State) : State := { s with ins := f s.ins }
def State.modAps (f : Apertures → Apertures) (s : State) : State := { s with aps := f s.aps }
def State.modClock (f : Clock → Clock) (s : State) : State := { s with clock := f s.clock }
def State.modLane (l : Fin 4) (f : Lane → Lane) (s : State) : State := { s with lanes := s.lanes.modify l f }
def State.modLanes (f : Lane → Lane) (s : State) : State := { s with lanes := s.lanes.map f }
def State.modSel (f : Selector → Selector) (s : State) : State := { s with sel := f s.sel }
def State.modSnd (f : Sound → Sound) (s : State) : State := { s with snd := f s.snd }
def State.modPath (p : Fin 2) (f : HomePath → HomePath) (s : State) : State :=
  { s with home := { s.home with paths := s.home.paths.modify p f } }
def State.modHome (f : Home → Home) (s : State) : State := { s with home := f s.home }
def State.modStore (f : Store → Store) (s : State) : State := { s with store := f s.store }
def State.modPin (p : Fin 12) (f : Pin → Pin) (s : State) : State := { s with pins := s.pins.modify p f }
def State.modPins (f : Pin → Pin) (s : State) : State := { s with pins := s.pins.map f }
def State.modLog (f : ClipLog → ClipLog) (s : State) : State := { s with log := f s.log }
def State.modCues (f : List Cue → List Cue) (s : State) : State := { s with cues := f s.cues }
def State.modXfer (f : Transfer → Transfer) (s : State) : State := { s with xfer := f s.xfer }
def State.modCtl (f : Control → Control) (s : State) : State := { s with ctl := f s.ctl }
def State.modDram (f : Memory → Memory) (s : State) : State := { s with dram := f s.dram }
def State.setLevels (levels : BitVec 12) (s : State) : State := { s with epIn := levels }

/-- A change of one clip record, not yet mirrored. -/
def State.modRec (i : Fin 256) (f : Clip → Clip) (s : State) : State :=
  s.modLog fun g => { g with recs := g.recs.modify i f }

/-! ## DRAM (R2) -/

namespace Mem

/-- One byte of DRAM. -/
def read (m : Memory) (a : Nat) : Byte :=
  match m with
  | [] => Config.unwrittenByte
  | (k, b) :: rest => if k = a then b else if a < k then Config.unwrittenByte else read rest a

/-- A cell in front, unless its byte is what an unlisted address reads as. -/
def cons (a : Nat) (b : Byte) (m : Memory) : Memory := if b = Config.unwrittenByte then m else (a, b) :: m

/-- One byte written, in canonical form. -/
def write (m : Memory) (a : Nat) (b : Byte) : Memory :=
  match m with
  | [] => cons a b []
  | (k, c) :: rest =>
    if k = a then cons a b rest
    else if a < k then cons a b ((k, c) :: rest)
    else (k, c) :: write rest a b

/-- Bytes written from an address upward. -/
def writeBytes (m : Memory) (a : Nat) : List Byte → Memory
  | [] => m
  | b :: bs => writeBytes (write m a b) (a + 1) bs

/-- Bytes read from an address upward. -/
def readBytes (m : Memory) (a len : Nat) : List Byte := (List.range len).map fun i => read m (a + i)

/-- The canonical form: addresses strictly rising, no byte equal to what an unlisted address reads as. -/
def wf : Memory → Bool
  | [] => true
  | (a, b) :: rest =>
    decide (b ≠ Config.unwrittenByte) && (match rest with | [] => true | (k, _) :: _ => decide (a < k)) && wf rest

end Mem

/-! ## Entries for the insert queue (R12) -/

/-- The producing blocks (R12). -/
abbrev byControl : Fin 6 := 0
def byPath (p : Fin 2) : Fin 6 := ⟨1 + p.val, by omega⟩
abbrev byStore : Fin 6 := 3
abbrev byMixer : Fin 6 := 4
abbrev byTransfer : Fin 6 := 5

/-- A block makes an entry: it joins the end of the block's hold. -/
def push (b : Fin 6) (e : InsEntry) (s : State) : State :=
  s.modIns fun q => { q with holds := q.holds.modify b (· ++ [e]) }

/-- A block makes several entries, in order. -/
def pushAll (b : Fin 6) (es : List InsEntry) (s : State) : State :=
  s.modIns fun q => { q with holds := q.holds.modify b (· ++ es) }

/-- A write with nothing tied to its joining. -/
def writeEntry (addr : Nat) (data : List Byte) : InsEntry := ⟨.write addr data, .nothing⟩

/-- A block's hold emptied without its entries joining (R99, R115, R119). -/
def dropHold (b : Fin 6) (s : State) : State :=
  s.modIns fun q => { q with holds := q.holds.set b [] }

/-- Writes of consecutive 64-byte cells from an address; the last carries `eff`. -/
def cellWrites (addr : Nat) (cells : List (List Byte)) (eff : JoinEffect) : List InsEntry :=
  match cells with
  | [] => []
  | [c] => [⟨.write addr c, eff⟩]
  | c :: d :: rest => writeEntry addr c :: cellWrites (addr + 64) (d :: rest) eff

/-- A record that begins at a 64-byte boundary, as one write per 64-byte block (R183). -/
def blockWrites (addr : Nat) (bs : List Byte) : List InsEntry :=
  (List.range (cellCountOf bs.length)).map fun i => writeEntry (addr + 64 * i) (slice (64 * i) 64 bs)

/-! ## Notices (R178, R180) -/

/-- ATTN set anew (R180). -/
def Control.settleAttn (c : Control) : Control := { c with attn := attnOf c.mask c.unreleased }

/-- `n` notices lost: each adds one to the lost-before count and one to the lost total (R6, R7, R178). -/
def Control.lose (n : Nat) (c : Control) : Control :=
  { c with lostBefore := min (c.lostBefore + n) Config.hold16, lostTotal := c.lostTotal + BitVec.ofNat 32 n }

/-- A notice written: the counts and the unreleased list (R178). -/
def Control.noteWritten (kind : NoticeKind) (c : Control) : Control :=
  Control.settleAttn
    { c with written := c.written + 1, lostBefore := 0, unreleased := c.unreleased ++ [kind] }

/-- A block raises a notice with given common fields (R178): it is lost while NOTICES is UNSET or the ring is full, and
otherwise its record and then the ring header's written count are written, and ATTN is set. -/
def raiseAt (frame : W32) (tc : Nat) (kind : NoticeKind) (subject : Nat) (items : List Item) (s : State) : State :=
  match ap .notices s with
  | none => s.modCtl (Control.lose 1)
  | some a =>
    if noticeSlots a.size ≤ s.ctl.written - s.ctl.released then s.modCtl (Control.lose 1)
    else
      (pushAll byControl
        [writeEntry (a.base + 64 + 32 * (s.ctl.written % noticeSlots a.size))
            (noticeRecord kind subject s.ctl.lostBefore frame tc items),
          writeEntry a.base (le 8 (s.ctl.written + 1))] s).modCtl (Control.noteWritten kind)

/-- A notice with the running frame count and timecode current when it is raised (R178). -/
def raise (kind : NoticeKind) (subject : Nat) (items : List Item) (s : State) : State :=
  raiseAt s.clock.frame (timecode s) kind subject items s

/-- The released count moved to `v` (R179): the notices before it leave the unreleased list, and ATTN is set. -/
def releaseTo (v : Nat) (s : State) : State :=
  s.modCtl fun c =>
    Control.settleAttn { c with released := v, unreleased := c.unreleased.drop (v - c.released) }

/-! ## The clip log's mirror (R148) -/

/-- The mirror write of record `i` as it stands, made while LOG is SET. -/
def writeRecord (i : Fin 256) (s : State) : State :=
  match ap .log s with
  | none => s
  | some a => push byControl (writeEntry (a.base + 64 * i.val) (clipRecord (s.log.recs.get i))) s

/-- An event has changed record `i`: its revision rises by one and it is mirrored (R148). -/
def mirror (i : Fin 256) (s : State) : State :=
  writeRecord i (s.modRec i fun c => { c with rev := c.rev + 1 })

/-- A change of record `i` and its mirror write. -/
def changeRec (i : Fin 256) (f : Clip → Clip) (s : State) : State := mirror i (s.modRec i f)

/-- Every record, in index order. -/
def allRecs : List (Fin 256) := List.finRange 256

/-- `f` done for each of some records, in order. -/
def forEach {α : Type} (l : List α) (f : α → State → State) (s : State) : State := l.foldl (fun t i => f i t) s

/-- The records that satisfy `p`, in index order. -/
def recsWhere (p : Clip → Bool) (s : State) : List (Fin 256) := allRecs.filter fun i => p (s.log.recs.get i)

/-- The non-FREE record that holds a clip number. -/
def findClip (num : Nat) (s : State) : Option (Fin 256) :=
  allRecs.find? fun i => decide ((s.log.recs.get i).state ≠ .free) && decide ((s.log.recs.get i).num = num)

/-- The header record written at offset 0 of COMMANDS, when COMMANDS is SET (R173; log 12). -/
def writeHeader (s : State) : State :=
  match ap .commands s with
  | none => s
  | some a => push byControl (writeEntry a.base (headerRecord s.ctl)) s

end Sys2Proof.Machine
end

