-- ==== Sys2Proof/Machine/Operands.lean ====
section
/-! DEFINITION. The operand forms: the fields of a queued command's body and go word (R184, Command area layout), the
action slots of ADD_CUE, and the results a command ends with (R175). -/

namespace Sys2Proof.Machine

/-- A number as a member of a range of `n`, when it is one. -/
def asFin (n v : Nat) : Option (Fin n) := if h : v < n then some ⟨v, h⟩ else none

namespace Command

/-- The field of `w` bytes at a body offset. -/
def field (c : Command) (off w : Nat) : Nat := ofLe (slice off w c.bytes)

/-- Body word `i`: one 4-byte word, taken whole (R184). -/
def word (c : Command) (i : Nat) : Nat := c.field (4 * i) 4

/-- The low 16 bits of body word `i` (R184). -/
def low16 (c : Command) (i : Nat) : Nat := c.word i % 65536

/-- The command code, the first byte of the go word (R174, R184). -/
def code (c : Command) : Nat := c.field 56 1

end Command

/-- Action slot `i` of an ADD_CUE body: its kind, then three parameters (Command area layout); none when the kind is
above 6 or a parameter is out of range (R152). -/
def cueActAt (c : Command) (i : Nat) : Option CueAct :=
  let at0 := 8 + 12 * i
  let p1 := c.field (at0 + 2) 2
  let p2 := c.field (at0 + 4) 4
  let p3 := c.field (at0 + 8) 4
  match c.field at0 1 with
  | 0 => some .none
  | 1 => (asFin 4 p1).map .switch
  | 2 => (asFin 128 p1).map fun t => .fade t (p2 % 65536) (p3 % 65536)
  | 3 => if p1 < 4096 ∧ p2 < 4096 then some (.lines (BitVec.ofNat 12 p1) (BitVec.ofNat 12 p2)) else none
  | 4 => (asFin 4 p1).map .clipIn
  | 5 => (asFin 4 p1).map .clipOut
  | 6 => if p2 % 65536 = 0 then none else (asFin 4 p1).map fun i => .label i (BitVec.ofNat 16 p2)
  | _ => none

/-- The reason of a REFUSED result (R175). -/
inductive Reason where
  | unknown | badField | state | active | overlap | full | past | noData | notFound
deriving DecidableEq, Repr

/-- A command's result (R175), with its 32-bit detail. -/
inductive Result where
  | done (detail : Nat)
  | doneClamped (detail : Nat)
  | refused (reason : Reason) (detail : Nat)
deriving DecidableEq, Repr

def Reason.codeNum : Reason → Nat
  | .unknown => 1 | .badField => 2 | .state => 3 | .active => 4 | .overlap => 5 | .full => 6 | .past => 7
  | .noData => 8 | .notFound => 9

/-- The result write's eight bytes: command code, result, reason, zero, detail (Command area layout). -/
def goWord (code : Nat) : Result → List Byte
  | .done d => le 1 code ++ le 1 1 ++ le 1 0 ++ zeros 1 ++ le 4 d
  | .doneClamped d => le 1 code ++ le 1 2 ++ le 1 0 ++ zeros 1 ++ le 4 d
  | .refused r d => le 1 code ++ le 1 3 ++ le 1 r.codeNum ++ zeros 1 ++ le 4 d

/-- DONE_CLAMPED naming the set of changed fields, in the order the checking rule lists them (R183), or DONE. -/
def clampedResult (changed : List Bool) : Result :=
  if changed.any id then .doneClamped (setBits (marked changed)) else .done 0

end Sys2Proof.Machine
end

