-- ==== Sys2Proof/Machine/HomePaths.lean ====
section
/-! DEFINITION. The home paths' shared operations: fit, placement, pressure, and the three kinds of offer
(06_home_paths.md, R95 to R106). -/

namespace Sys2Proof.Machine

/-- How a unit of `c` cells goes into a ring (R101). -/
inductive Fit where
  | plain
  | padded (e : Nat)
  | passedOver (e : Nat)
  | no
deriving DecidableEq, Repr

/-- The fit test of R101, for a ring of `n` cells. -/
def fitOf (n : Nat) (P : HomePath) (c : Nat) : Fit :=
  let e := n - P.placed % n
  let free := n - P.inUse
  if n < c then .no
  else if c ≤ e then (if c ≤ free then .plain else .no)
  else if 0 < P.inUse then (if e + c ≤ free then .padded e else .no)
  else .passedOver e

/-- Whether a unit fits a path as it stands (R101). -/
def fits (p : Fin 2) (u : MUnit) (s : State) : Bool :=
  decide (fitOf (pathCells p s) (s.home.paths.get p) u.cells ≠ .no)

/-- A ring header write carrying the published count `v` (R95, R113). -/
def ringHeaderWrite (p : Fin 2) (v : Nat) (eff : JoinEffect) (s : State) : State :=
  push (byPath p)
    ⟨.write (apBase (.path p) s) (ringHeader v (pathCells p s) (s.home.paths.get p).epoch), eff⟩ s

/-- Step 1 of R101: the write of a pad's first cell at the placement position. -/
def padWrite (p : Fin 2) (e : Nat) (s : State) : State :=
  push (byPath p)
    (writeEntry (apBase (.path p) s + 64 * ((s.home.paths.get p).placed % pathCells p s + 1))
      (padCell e s.clock.frame (timecode s))) s

/-- Step 1 of R101: the pad, when one is needed. -/
def padStep (p : Fin 2) (f : Fit) (s : State) : State :=
  match f with
  | .plain | .no => s
  | .padded e =>
    (padWrite p e s).modPath p fun P =>
      { P with units := P.units ++ [⟨P.placed, e, none⟩], placed := P.placed + e }
  | .passedOver e =>
    (padWrite p e s).modPath p fun P =>
      { P with placed := P.placed + e, published := P.published + e, consumed := P.consumed + e }

/-- Step 2 of R101: the unit's cells, with the fields of R102 filled, and its entry. -/
def dataStep (p : Fin 2) (u : MUnit) (shed : Nat) (s : State) : State :=
  let P := s.home.paths.get p
  (pushAll (byPath p)
      (cellWrites (apBase (.path p) s + 64 * (P.placed % pathCells p s + 1)) (cellsOf u.cells (u.bytes P.nextSeq shed))
        .nothing) s).modPath p fun P =>
    { P with units := P.units ++ [⟨P.placed, u.cells, some P.nextSeq⟩], placed := P.placed + u.cells,
             nextSeq := P.nextSeq + 1 }

/-- Step 3 of R101: the placement's header write; published rises when it joins. -/
def publishStep (p : Fin 2) (s : State) : State :=
  ringHeaderWrite p (s.home.paths.get p).placed (.publish p (s.home.paths.get p).placed) s

/-- The pressure test after a placement (R106). -/
def pressureTest (p : Fin 2) (kind : UnitKind) (s : State) : State :=
  let P := s.home.paths.get p
  if P.high < P.inUse ∧ P.arm = true then
    raise .pressure p.val [b4 P.inUse, b4 P.high, b1 kind.code] (s.modPath p fun P => { P with arm := false })
  else s

/-- A unit that fits is placed, whole (R101, R102), and the pressure test made once, after the pad and the unit, with
the unit's kind (R106; log 45). -/
def place (p : Fin 2) (u : MUnit) (shed : Nat) (s : State) : State :=
  let f := fitOf (pathCells p s) (s.home.paths.get p) u.cells
  pressureTest p u.kind (publishStep p (dataStep p u shed (padStep p f s)))

/-- A live unit of source `src` (lanes 0 to 3, sound 4) is placed when it fits and otherwise shed for this path
(R103). -/
def offerLive (src : Fin 5) (u : MUnit) (p : Fin 2) (s : State) : State :=
  if fits p u s then
    (place p u ((s.home.paths.get p).shedRuns.get src) s).modPath p fun P =>
      { P with shedRuns := P.shedRuns.set src 0 }
  else
    s.modPath p fun P =>
      { P with sheds := P.sheds.modify src (· + 1), shedRuns := P.shedRuns.modify src (holdInc Config.hold16) }

/-- The clip number and event of a tag unit (R104). -/
def MUnit.tagItems : MUnit → List Item
  | .tag _ _ _ clip event _ => [b2 clip, b1 event.code]
  | .row .. | .sound .. | .replay .. => []

/-- A tag unit is placed, joins the tag pending list, or is dropped (R104). -/
def offerTag (u : MUnit) (p : Fin 2) (s : State) : State :=
  let P := s.home.paths.get p
  if P.tags = [] ∧ fits p u s = true then place p u 0 s
  else if P.tags.length < Config.tagRoom then s.modPath p fun P => { P with tags := P.tags ++ [u] }
  else raise .tagDropped p.val u.tagItems s

/-- A unit offered to each path in the effective route set, read at the offer (R111). -/
def offerToRoute (offer : Fin 2 → State → State) (s : State) : State := forEach (effectiveRoute s) offer s

/-- A path's answer to a replay offer (R105). -/
inductive ReplayAnswer where
  | oversize | placed | wait
deriving DecidableEq, Repr

/-- The table of R105. -/
def replayAnswer (p : Fin 2) (u : MUnit) (s : State) : ReplayAnswer :=
  let P := s.home.paths.get p
  if pathCells p s < u.cells then .oversize
  else if P.state = .running ∧ P.inUse ≤ P.ceiling ∧ fits p u s = true then .placed
  else .wait

/-- The effect of R105's answer on the path. -/
def offerReplay (p : Fin 2) (u : MUnit) (s : State) : State :=
  match replayAnswer p u s with
  | .oversize => s
  | .placed => place p u 0 s
  | .wait => s.modPath p fun P => { P with heldOffer := some u }

/-- The path is disabled, or starts a new ring life: unit list, counters, tags and held offer go (R99, R115). -/
def HomePath.emptied (P : HomePath) : HomePath :=
  { P with units := [], placed := 0, published := 0, consumed := 0, nextSeq := 0, arm := true, stall := 0, tags := [],
           heldOffer := none }

/-- RESUME, and RESTORE for path A under A_THEN_B (R109, R112, R115): reason 0 CONSUMED, 1 CLEARED. -/
def raiseResume (p : Fin 2) (reason : Nat) (s : State) : State :=
  let P := s.home.paths.get p
  let s1 := raise .resume p.val [b1 reason, b4 P.inUse, b1 P.stallAt] s
  if p = 0 ∧ s1.home.route = .aThenB then raise .restore 0 [b1 (routeBits s1)] s1 else s1

/-- A RUNNING path's stall timer at a frame tick (R100), with FAILOVER for path A under A_THEN_B (R112). -/
def stallTick (p : Fin 2) (s : State) : State :=
  let P := s.home.paths.get p
  if P.state ≠ .running then s
  else if P.inUse = 0 then s.modPath p fun P => { P with stall := 0 }
  else if P.stall + 1 < P.limit then s.modPath p fun P => { P with stall := P.stall + 1 }
  else
    let s1 := raise .stall p.val [b4 P.inUse, b8 P.consumed, b1 P.limit]
      (s.modPath p fun P => { P with state := .stalled, stall := P.stall + 1, stallAt := P.stall + 1 })
    if p = 0 ∧ s1.home.route = .aThenB then raise .failover 0 [b1 (routeBits s1)] s1 else s1

end Sys2Proof.Machine
end

