-- ==== Sys2Proof/Machine/ClipRanges.lean ====
section
/-! DEFINITION. Clip ranges: a clip's first and last unit resolved from the store, and clips made LOST
(07_clip_store_and_frame_index.md, R122, R125 to R129; 08_marks_and_the_clip_log.md, R147). -/

namespace Sys2Proof.Machine

/-- Where the 32-bit rows stored count holds (R136). -/
def rowsHold : Nat := 2 ^ 32 - 1

/-- The row tally joins rows stored (R147). -/
def Clip.takeTally (c : Clip) : Clip := { c with rowsStored := min (c.rowsStored + c.tally) rowsHold, tally := 0 }

/-- Record `i` becomes LOST (R122, R147): pending marks and tally go, an OPEN clip's pointer is cleared, CLIP_LOST is
raised with the state just left and the source, and the record is mirrored. -/
def loseClip (i : Fin 256) (s : State) : State :=
  let c := s.log.recs.get i
  let s1 := s.modRec i fun c =>
    { c with state := .lost, prior := none, firstPending := false, endPending := false, tally := 0 }
  let s2 := if c.state = .opened then s1.modLog fun g => { g with opens := g.opens.set c.source none } else s1
  mirror i (raise .clipLost c.num [b1 c.state.code, b1 c.source.val] s2)

/-- OPEN, CLOSED or SENT with a resolved first unit: what R122 may make LOST. -/
def Clip.losable (c : Clip) : Bool :=
  c.first.isSome && (decide (c.state = .opened) || decide (c.state = .closed) || decide (c.state = .sent))

/-- A clip's first store sequence; 0 when it is not resolved, when no rule asks for it (log 33). -/
def Clip.firstSeq (c : Clip) : W32 := (c.first.map (·.1)).getD 0

/-- Records in order of their first store sequence, oldest first as seen from `seq` (R122), equal ones in index order
(log 16). -/
def oldestFirst (seq : W32) (s : State) (l : List (Fin 256)) : List (Fin 256) :=
  sortBy (fun i => 2 ^ 32 - dist (s.log.recs.get i).firstSeq seq) l

/-- The clips that a leaving unit of sequence `seq` makes LOST (R122). -/
def loseUpTo (seq : W32) (s : State) : State :=
  forEach (oldestFirst seq s (recsWhere (fun c => c.losable && atOrBefore c.firstSeq seq) s)) loseClip s

/-- FIRST_PENDING and END_PENDING are cleared and the clip becomes LOG_ONLY (R128, R129). -/
def makeLogOnly (i : Fin 256) (s : State) : State :=
  changeRec i (fun c => { c with firstPending := false, endPending := false, logOnly := true }) s

/-- Every FIRST_PENDING clip of `p` becomes LOG_ONLY. -/
def pendingToLogOnly (p : Clip → Bool) (s : State) : State :=
  forEach (recsWhere (fun c => c.firstPending && p c) s) makeLogOnly s

/-- The store is disabled or emptied: clips with a resolved first unit become LOST, in the order that R122 gives at one
offer (log 46), and after them (log 50) FIRST_PENDING ones LOG_ONLY (R119, R129, R130). -/
def loseAll (s : State) : State :=
  pendingToLogOnly (fun _ => true) (forEach (oldestFirst s.store.nextSeq s (recsWhere Clip.losable s)) loseClip s)

/-- The most recent stored unit: the next store sequence less one, and the position of its first cell (R128). -/
def lastStored (s : State) : W32 × Nat :=
  (s.store.nextSeq - 1,
    match splitLast (fun e : Retained => e.unit.isSome) s.store.retained with
    | some (e, _) => e.start % storeCells s
    | none => 0)

/-- The clip's last unit is set and END_PENDING cleared, and its tally is added (R128, R129, R147). -/
def resolveEnd (i : Fin 256) (s : State) : State :=
  changeRec i (fun c => { c with last := some (lastStored s), endPending := false }.takeTally) s

/-- A frame start of lane `l` with frame number `n` resolves the END_PENDING clips of the lane whose out-frame `n` is
after (R128). -/
def resolveAtFrameStart (l : Fin 4) (n : W32) (s : State) : State :=
  forEach
    (recsWhere (fun c => c.endPending && decide (c.source = l) && (c.out.map fun o => isAfter n o.1).getD false) s)
    (fun i t => if (t.log.recs.get i).first.isSome then resolveEnd i t else makeLogOnly i t) s

/-- Lane `l` stops recording (R60, R61, R129; OPEN and CLOSED clips alone, log 30): the clips whose last unit is set
come before those that become LOG_ONLY, each kind in index order (log 50). -/
def stopRecording (l : Fin 4) (s : State) : State :=
  pendingToLogOnly (fun c => decide (c.source = l))
    (forEach
      (recsWhere (fun c => decide (c.source = l) && c.first.isSome && c.last.isNone
        && (decide (c.state = .opened) || decide (c.state = .closed))) s)
      resolveEnd s)

/-- The range of a clip opened in record `i` (R126): LOG_ONLY, a first unit with PREROLL_SHORT or without, or
FIRST_PENDING. Not mirrored here: the opening is mirrored once (R141). -/
def resolveOpen (i : Fin 256) (s : State) : State :=
  let c := s.log.recs.get i
  let index := s.store.index.get c.source
  if (s.lanes.get c.source).recording = false ∨ s.store.state ≠ .running then
    s.modRec i fun c => { c with logOnly := true }
  else
    match index.find? fun e => atOrBefore c.inFrame e.frame with
    | some e =>
      s.modRec i fun c =>
        { c with first := some (e.seq, e.cell),
                 prerollShort := earlier c.inFrame e.frame && !index.any fun o => earlier o.frame c.inFrame }
    | none => s.modRec i fun c => { c with firstPending := true }

/-- FIRST_PENDING clips of lane `l` that an appended index entry resolves (R127); `before` is the index without it. -/
def resolveFirst (l : Fin 4) (e : IndexEntry) (before : List IndexEntry) (s : State) : State :=
  forEach (recsWhere (fun c => c.firstPending && decide (c.source = l) && atOrBefore c.inFrame e.frame) s)
    (changeRec · fun c =>
      { c with first := some (e.seq, e.cell), firstPending := false,
               prerollShort := c.prerollShort
                 || (earlier c.inFrame e.frame && !before.any fun o => earlier o.frame c.inFrame) })
    s

end Sys2Proof.Machine
end

