-- ==== Sys2Proof/Machine/ClipStore.lean ====
section
/-! DEFINITION. The clip store: offers, protection, BLOCKED, the frame index, enabling and disabling
(07_clip_store_and_frame_index.md, R117 to R125). -/

namespace Sys2Proof.Machine

/-- The gap run of a source: lanes 0 to 3, sound 4 (R116). -/
def gapSource (src : Option (Fin 4)) : Fin 5 :=
  match src with
  | some l => ⟨l.val, by omega⟩
  | none => 4

/-- The entries that must leave from the front so that `need` cells from the head fit, and those that stay (R120). -/
def splitLeaving (cells head need : Nat) : List Retained → List Retained × List Retained
  | [] => ([], [])
  | e :: rest =>
    if head + need - e.start ≤ cells then ([], e :: rest)
    else (e :: (splitLeaving cells head need rest).1, (splitLeaving cells head need rest).2)

/-- The pad before a unit of `c` cells, 0 when none is needed (R120). -/
def storePad (cells head c : Nat) : Nat := if c ≤ cells - head % cells then 0 else cells - head % cells

/-- A SENDING clip whose range holds `seq` (R123). -/
def Clip.protects (c : Clip) (seq : W32) : Bool :=
  decide (c.state = .sending)
    && (match c.first, c.last with
        | some f, some l => within f.1 seq l.1
        | _, _ => false)

/-- The record whose SENDING clip protects `seq`, the lowest index when several do (R123; log 17). -/
def protector (seq : W32) (s : State) : Option (Fin 256) :=
  allRecs.find? fun i => (s.log.recs.get i).protects seq

/-- The record that protects the oldest protected leaving unit (R123). -/
def blockerOf (leaving : List Retained) (s : State) : Option (Fin 256) :=
  leaving.findSome? fun e => e.unit.bind fun u => protector u.seq s

/-- The store's header write (R117). -/
def storeHeaderWrite (s : State) : State :=
  push byStore (writeEntry (apBase .store s) (storeHeader s.store (storeCells s))) s

/-- The clips that a refused unit marks GAP (R123). -/
def Clip.takesGap (c : Clip) (src : Option (Fin 4)) (frame : W32) : Bool :=
  c.last.isNone && atOrBefore c.inFrame frame
    && (decide (c.state = .opened) || (decide (c.state = .closed) && c.endPending))
    && (match src with | some l => decide (c.source = l) | none => true)

/-- GAP set on the clips that take it, each newly flagged record mirrored (R123). -/
def markGaps (src : Option (Fin 4)) (frame : W32) (s : State) : State :=
  forEach (recsWhere (fun c => c.takesGap src frame && !c.gap) s) (changeRec · fun c => { c with gap := true }) s

/-- The kind code and source of a refused unit (STORE_BLOCKED's detail; log 14). -/
def refusedItems (src : Option (Fin 4)) : List Item :=
  match src with
  | some l => [b1 UnitKind.pictureRow.code, b1 l.val]
  | none => [b1 UnitKind.sound.code, b1 0]

/-- An offer refused because the unit of record `i`'s clip would leave (R123). The GAP marks and their mirror writes come
before STORE_BLOCKED, in the order in which R123 lists them (log 52). -/
def refuseOffer (src : Option (Fin 4)) (frame : W32) (i : Fin 256) (s : State) : State :=
  let num := (s.log.recs.get i).num
  let s1 := s.modStore fun st =>
    { st with gaps := st.gaps + 1, gapRuns := st.gapRuns.modify (gapSource src) (holdInc Config.hold16) }
  let s2 := markGaps src frame s1
  let s3 := s2.modStore fun st => { st with state := .blocked num }
  if s.store.state = .running then
    raise .storeBlocked 0 ([b2 num] ++ refusedItems src ++ [b4 s3.store.gaps.toNat]) s3
  else s3

/-- A unit leaves: its index entries are evicted and the clips whose first unit it is become LOST (R122, R125). -/
def unitLeaves (u : StoredUnit) (s : State) : State :=
  loseUpTo u.seq (s.modStore fun st => { st with index := st.index.map (·.filter fun e => decide (e.seq ≠ u.seq)) })

/-- Step 2 of R121: the pad of `e` cells, when one is needed. -/
def storePadStep (e : Nat) (s : State) : State :=
  if e = 0 then s
  else
    (push byStore
      (writeEntry (apBase .store s + 64 * (s.store.head % storeCells s + 1))
        (padCell e s.clock.frame (timecode s))) s).modStore fun st =>
      { st with retained := st.retained ++ [⟨st.head, e, none⟩], head := st.head + e }

/-- Step 3 of R121: the unit's cells and its entry, not yet readable. -/
def storeDataStep (src : Option (Fin 4)) (frame : W32) (u : MUnit) (s : State) : State :=
  let st := s.store
  let seq := st.nextSeq
  (pushAll byStore
      (cellWrites (apBase .store s + 64 * (st.head % storeCells s + 1))
        (cellsOf u.cells (u.bytes seq (st.gapRuns.get (gapSource src)))) (.readable seq)) s).modStore fun st =>
    { st with nextSeq := st.nextSeq + 1, gapRuns := st.gapRuns.set (gapSource src) 0,
              retained := st.retained ++ [⟨st.head, u.cells, some ⟨seq, src, frame, false⟩⟩],
              head := st.head + u.cells }

/-- Step 4 of R121: a stored row of lane `l`, of sequence `seq` and first cell `cell`, updates the lane's frame index
(R125, R127). -/
def indexStep (l : Fin 4) (frame seq : W32) (cell : Nat) (s : State) : State :=
  if s.store.openMark.get l = false then s
  else
    let s1 := s.modStore fun st => { st with openMark := st.openMark.set l false }
    let index := s1.store.index.get l
    if (index.getLast?.map fun e => decide (e.frame = frame)).getD false then s1
    else
      let before := if index.length < Config.indexRoom then index else index.drop 1
      let e : IndexEntry := ⟨frame, seq, cell⟩
      resolveFirst l e before (s1.modStore fun st => { st with index := st.index.set l (before ++ [e]) })

/-- The clips whose row tally a stored row of lane `l` and running frame `frame` raises (R147). -/
def Clip.tallies (c : Clip) (l : Fin 4) (frame : W32) : Bool :=
  decide (c.source = l) && c.first.isSome && atOrBefore c.inFrame frame
    && (decide (c.state = .opened)
      || (decide (c.state = .closed) && c.endPending && (c.out.map fun o => atOrBefore frame o.1).getD false))

/-- The row tallies after a stored row (R147); the tally is inside the part and is not mirrored. -/
def tallyRows (l : Fin 4) (frame : W32) (s : State) : State :=
  s.modLog fun g => { g with recs := g.recs.map fun c => if c.tallies l frame then { c with tally := c.tally + 1 } else c }

/-- A unit that passes R120's check is stored (R121); `leaving` and `keep` split the retained list. -/
def storeUnit (src : Option (Fin 4)) (frame : W32) (u : MUnit) (leaving keep : List Retained) (s : State) : State :=
  let s1 := s.modStore fun st => { st with retained := keep }
  let s2 := forEach (leaving.filterMap (·.unit)) unitLeaves s1
  let s3 := storePadStep (storePad (storeCells s2) s2.store.head u.cells) s2
  let s4 := storeDataStep src frame u s3
  let s5 :=
    match src with
    | none => s4
    | some l => tallyRows l frame (indexStep l frame s3.store.nextSeq (s3.store.head % storeCells s3) s4)
  storeHeaderWrite s5

/-- BLOCKED ends at the first offer that can be stored: RUNNING, with STORE_RESUMED (R124). -/
def resumeStore (s : State) : State :=
  match s.store.state with
  | .blocked clip =>
    raise .storeResumed 0 [b2 clip, b4 s.store.gaps.toNat] (s.modStore fun st => { st with state := .running })
  | .off | .running => s

/-- A unit offered to the store: stored over the oldest entries, or refused when a protected unit would leave
(R120, R121, R123, R124). The store must not be OFF. -/
def offerStore (src : Option (Fin 4)) (frame : W32) (u : MUnit) (s : State) : State :=
  let n := storeCells s
  let need := storePad n s.store.head u.cells + u.cells
  let parts := splitLeaving n s.store.head need s.store.retained
  match blockerOf parts.1 s with
  | some i => refuseOffer src frame i s
  | none => storeUnit src frame u parts.1 parts.2 (resumeStore s)

/-- A frame start of lane `l` with frame number `n`, announced to the store (R38, R125, R128). -/
def storeFrameStart (l : Fin 4) (n : W32) (s : State) : State :=
  resolveAtFrameStart l n (s.modStore fun st => { st with openMark := st.openMark.set l true })

/-- A stored unit's last cell write has joined: it is readable (R117). -/
def markReadable (seq : W32) (s : State) : State :=
  s.modStore fun st =>
    { st with retained := st.retained.map fun e =>
        { e with unit := e.unit.map fun u => if u.seq = seq then { u with readable := true } else u } }

end Sys2Proof.Machine
end

