-- ==== Sys2Proof/Machine/ClipLogs.lean ====
section
/-! DEFINITION. The clip log: mark arrivals, closing and labelling, record and number choice, tags
(08_marks_and_the_clip_log.md, R138 to R149). -/

namespace Sys2Proof.Machine

/-- What makes a mark arrival (R140): its origin as two bytes (Encodings). -/
inductive Origin where
  | pin (p : Fin 12)
  | cue (id : Nat)
  | command
deriving DecidableEq, Repr

def Origin.item : Origin → Item
  | .pin p => b2 (0 + 256 * p.val)
  | .cue id => b2 (1 + 256 * id)
  | .command => b2 2

/-- The outcome of a mark arrival (R140). -/
inductive MarkOutcome where
  /-- a clip opened, closed or labelled; the clip number -/
  | done (clip : Nat)
  /-- the label was already present -/
  | present (clip : Nat)
  /-- the clip already holds six labels -/
  | labelDropped (clip : Nat)
  | orphanOut
  | orphanLabel
  | logFull
deriving DecidableEq, Repr

/-- A clip's tag unit, made now (R149). -/
def tagOf (i : Fin 256) (event : TagEvent) (s : State) : MUnit :=
  let c := s.log.recs.get i
  .tag c.source s.clock.frame (timecode s) c.num event (tagBody c event)

/-- The tag unit offered to each path in the effective route set (R149). -/
def sendTag (i : Fin 256) (event : TagEvent) (s : State) : State :=
  offerToRoute (offerTag (tagOf i event s)) s

/-- The record of input `src`'s OPEN clip, through its open-clip pointer (R139). -/
def openClip (src : Fin 4) (s : State) : Option (Fin 256) :=
  (s.log.opens.get src).bind fun n =>
    allRecs.find? fun i => decide ((s.log.recs.get i).state = .opened) && decide ((s.log.recs.get i).num = n)

/-- The OPEN clip of record `i` is closed with an out-frame and out timecode by an arrival of origin `origin` (R143):
close stamp, pointer, END_PENDING by R128, CLIP_CLOSED with the items of R143 and then the origin that R140 asks for
(log 41), the CLOSE tag, the mirror write. -/
def closeClip (i : Fin 256) (outFrame : W32) (outTc : Nat) (origin : Origin) (s : State) : State :=
  let src := (s.log.recs.get i).source
  let stamp := s.log.closeCount
  let s1 := s.modRec i fun c =>
    { c with state := .closed, out := some (outFrame, outTc), stamp := some stamp,
             endPending := !c.logOnly && c.last.isNone }
  let s2 := s1.modLog fun g => { g with closeCount := g.closeCount + 1, opens := g.opens.set src none }
  let c := s2.log.recs.get i
  let s3 := raise .clipClosed c.num [b1 src.val, b4 outFrame.toNat, b1 c.flags.toNat, origin.item] s2
  mirror i (sendTag i .closed s3)

/-- The earliest in-frame among some records, the lower index of equal ones (R142). -/
def earliest (s : State) (l : List (Fin 256)) : Option (Fin 256) :=
  l.foldl
    (fun best i =>
      match best with
      | none => some i
      | some b => if earlier (s.log.recs.get i).inFrame (s.log.recs.get b).inFrame then some i else best)
    none

/-- The record that a new clip takes (R142). -/
def takeRecord (s : State) : Option (Fin 256) :=
  match allRecs.find? fun i => decide ((s.log.recs.get i).state = .free) with
  | some i => some i
  | none =>
    match earliest s (recsWhere (fun c => decide (c.state = .sent)) s) with
    | some i => some i
    | none => earliest s (recsWhere (fun c => decide (c.state = .lost)) s)

/-- The clip number after `n` (R138). -/
def nextNumber (n : Nat) : Nat := if n < 65535 then n + 1 else 1

/-- The first number from `n` on that no non-FREE record holds (R138); at most 256 are held, so 257 tries find one. -/
def freeNumber (s : State) : Nat → Nat → Nat
  | 0, n => n
  | k + 1, n => if (findClip n s).isSome then freeNumber s k (nextNumber n) else n

/-- IN for input `src`, with carried frame `g`, timecode `c` and preroll `p` (R141); CLIP_OPENED has the items of R141
and then the origin that R140 and R155 ask for (log 41). -/
def markIn (src : Fin 4) (g : W32) (c p : Nat) (origin : Origin) (s : State) : State × MarkOutcome :=
  let d := dayFrames s
  let f := g - BitVec.ofNat 32 p
  let tc := subMod c p d
  let s1 :=
    match openClip src s with
    | none => s
    | some i =>
      let r := s.log.recs.get i
      if earlier (f - 1) r.inFrame then closeClip i r.inFrame r.inTc origin s
      else closeClip i (f - 1) (subMod tc 1 d) origin s
  match takeRecord s1 with
  | none => (raise .logFull 0 [b1 src.val, b4 f.toNat, origin.item] s1, .logFull)
  | some i =>
    let recycled := (s1.log.recs.get i).num
    let rev := (s1.log.recs.get i).rev
    let s2 := s1.modRec i fun _ => Clip.free rev
    let num := freeNumber s2 257 s2.log.nextNum
    let s3 := s2.modRec i fun c => { c with num := num, state := .opened, source := src, inFrame := f, inTc := tc }
    let s4 := s3.modLog fun l => { l with nextNum := nextNumber num }
    let s5 := resolveOpen i s4
    let s6 := s5.modLog fun l => { l with opens := l.opens.set src (some num) }
    let flags := (s6.log.recs.get i).flags
    let s7 := raise .clipOpened num [b1 src.val, b4 f.toNat, b1 i.val, b2 recycled, b1 flags.toNat, origin.item] s6
    (mirror i (sendTag i .opened s7), .done num)

/-- OUT for input `src`, with carried frame `g` and timecode `c` (R143). -/
def markOut (src : Fin 4) (g : W32) (c : Nat) (origin : Origin) (s : State) : State × MarkOutcome :=
  match openClip src s with
  | none => (raise .orphanOut 0 [b1 src.val, b4 g.toNat, origin.item] s, .orphanOut)
  | some i =>
    let r := s.log.recs.get i
    (if earlier g r.inFrame then closeClip i r.inFrame r.inTc origin s else closeClip i g c origin s, .done r.num)

/-- The latest close stamp among some records (R144), the lower index of equal ones (log 16). -/
def latestStamp (s : State) (l : List (Fin 256)) : Option (Fin 256) :=
  l.foldl
    (fun best i =>
      match best with
      | none => some i
      | some b =>
        match (s.log.recs.get b).stamp, (s.log.recs.get i).stamp with
        | some x, some y => if earlier x y then some i else best
        | none, _ => some i
        | some _, none => best)
    none

/-- The target of a LABEL arrival (R144). -/
def labelTarget (src : Fin 4) (s : State) : Option (Fin 256) :=
  match openClip src s with
  | some i => some i
  | none =>
    latestStamp s (recsWhere (fun c => decide (c.source = src)
      && (decide (c.state = .closed) || decide (c.state = .sending) || decide (c.state = .sent))) s)

/-- A label code added to record `i` (R144, R145). -/
def addLabel (i : Fin 256) (k : W16) (s : State) : State × MarkOutcome :=
  let r := s.log.recs.get i
  if k ∈ r.labels then (s, .present r.num)
  else if Config.labelRoom ≤ r.labels.length then
    (changeRec i (fun c => { c with labelsDropped := holdInc Config.hold16 c.labelsDropped }) s, .labelDropped r.num)
  else (sendTag i .label (changeRec i (fun c => { c with labels := c.labels ++ [k] }) s), .done r.num)

/-- LABEL for input `src` with code `k` (R144). -/
def markLabel (src : Fin 4) (k : W16) (origin : Origin) (s : State) : State × MarkOutcome :=
  match labelTarget src s with
  | none => (raise .orphanLabel 0 [b1 src.val, b2 k.toNat, origin.item] s, .orphanLabel)
  | some i => addLabel i k s

/-- A mark arrival of any action (R135, R140); TOGGLE is IN or OUT as the input has no OPEN clip or has one (R143). -/
def markArrival (action : MarkAction) (src : Fin 4) (k : W16) (g : W32) (c p : Nat) (origin : Origin) (s : State) :
    State × MarkOutcome :=
  match action with
  | .markIn => markIn src g c p origin s
  | .markOut => markOut src g c origin s
  | .toggle => if (openClip src s).isNone then markIn src g c p origin s else markOut src g c origin s
  | .label => markLabel src k origin s

/-- A damage report of lane `l` (R37, R147). DESIGN CHOICE (log 53): damaged frames that already hold at 65 535 stay, and
the record's revision still rises and the record is mirrored. -/
def reportDamage (l : Fin 4) (s : State) : State :=
  match openClip l s with
  | none => s
  | some i => changeRec i (fun c => { c with damaged := holdInc Config.hold16 c.damaged }) s

/-- At a frame tick every clip with a row tally adds it to rows stored (R147). DESIGN CHOICE (log 53): the record is
mirrored though its rows stored already hold at the largest value. -/
def addTallies (s : State) : State :=
  forEach (recsWhere (fun c => decide (0 < c.tally)) s) (changeRec · Clip.takeTally) s

end Sys2Proof.Machine
end

