-- ==== Sys2Proof/Machine/Coder.lean ====
section
/-! DEFINITION. The row coder: prediction, quantization, reconstruction and the Rice code of a row
(03_picture_intake_and_row_coding.md, R41 to R46). -/

namespace Sys2Proof.Machine

/-- The samples of a row: 16-bit little-endian words, of which the low ten bits count (R29). -/
def samplesOf : List Byte → List Nat
  | lo :: hi :: rest => (lo.toNat + 256 * hi.toNat) % 1024 :: samplesOf rest
  | _ => []

/-- The three predictors (R41). -/
structure Predictors where
  y : Int
  cb : Int
  cr : Int
deriving DecidableEq, Repr

/-- Each starts at 512 (R41). -/
def Predictors.start : Predictors := ⟨512, 512, 512⟩

/-- The predictor of the component that sample index `i` belongs to: Y when odd, Cb when a multiple of 4, else Cr
(R41). -/
def Predictors.at (P : Predictors) (i : Nat) : Int := if i % 2 = 1 then P.y else if i % 4 = 0 then P.cb else P.cr

/-- That predictor replaced (R43). -/
def Predictors.put (P : Predictors) (i : Nat) (r : Int) : Predictors :=
  if i % 2 = 1 then { P with y := r } else if i % 4 = 0 then { P with cb := r } else { P with cr := r }

/-- The quantized difference (R42): `d` at q = 0, else `d` over 2^q rounded to the nearest, halves away from zero. -/
def quantize (q : Nat) (d : Int) : Int :=
  if q = 0 then d else d.sign * (((d.natAbs + 2 ^ (q - 1)) / 2 ^ q : Nat) : Int)

/-- The reconstruction (R43). -/
def reconstruct (p m : Int) (q : Nat) : Int := clampInt (p + m * 2 ^ q) 0 1023

/-- The mapped count (R44): 0, -1, 1, -2, 2 become 0, 1, 2, 3, 4. -/
def mapCount (m : Int) : Nat := if 0 ≤ m then (2 * m).toNat else (-2 * m - 1).toNat

/-- The `n` low bits of `v`, most significant first. -/
def bitsOf : Nat → Nat → List Bool
  | 0, _ => []
  | n + 1, v => v.testBit n :: bitsOf n v

/-- The Rice code of a count with parameter `k`, or its escape (R44). -/
def riceCode (k u : Nat) : List Bool :=
  if u / 2 ^ k ≤ 22 then List.replicate (u / 2 ^ k) true ++ false :: bitsOf k u
  else List.replicate 23 true ++ bitsOf 11 u

/-- The codes of samples from index `i` on, one after another (R41 to R46). -/
def codeSamples (q k : Nat) : Nat → Predictors → List Nat → List Bool
  | _, _, [] => []
  | i, P, x :: xs =>
    let m := quantize q ((x : Int) - P.at i)
    riceCode k (mapCount m) ++ codeSamples q k (i + 1) (P.put i (reconstruct (P.at i) m q)) xs

/-- The Rice parameter of a row (R41). -/
def riceParameter (kbase q : Nat) : Nat := kbase - q

/-- The coded bits of a row (R41, R46); the row payload length P is their number. -/
def codeRow (q kbase : Nat) (samples : List Nat) : List Bool :=
  codeSamples q (riceParameter kbase q) 0 .start samples

/-- The row cost C in bits (R46). -/
def rowCost (bits : Nat) : Nat := 32 * ((bits + 31) / 32)

/-- The number whose bits, most significant first, are given. -/
def ofBits (bs : List Bool) : Nat := bs.foldl (fun acc b => 2 * acc + b.toNat) 0

/-- Bits as 32-bit words, first bit at bit 31, each word little-endian (R46): `n` words. -/
def packWords : Nat → List Bool → List Byte
  | 0, _ => []
  | n + 1, bs => le 4 (ofBits (bs.take 32)) ++ packWords n (bs.drop 32)

/-- The padded payload of a row's bits (R46). -/
def payloadOf (bits : List Bool) : List Byte :=
  packWords ((bits.length + 31) / 32) (bits ++ List.replicate (rowCost bits.length - bits.length) false)

end Sys2Proof.Machine
end

