-- ==== Sys2Proof/Machine/Lanes.lean ====
section
/-! DEFINITION. The picture lanes and the programme selector: intake, row completion, rate control, switching
(03_picture_intake_and_row_coding.md, R33 to R39, R46 to R49; 04_rate_control_and_programme_selection.md, R53 to R55,
R57 to R65). -/

namespace Sys2Proof.Machine

/-! ## Programme selection -/

/-- A switch request for an enabled lane (R63): the lane becomes pending, or a pending switch is cancelled when it is
the programme lane. -/
def Selector.request (l : Fin 4) (sel : Selector) : Selector :=
  { sel with waiting := if sel.programme = some l then none else some l }

/-- PROGRAM_SWITCHED's result codes (Encodings). -/
def switchedCode : Nat := 0
def failedCode : Nat := 1
def droppedCode : Nat := 2

/-- A frame start of lane `l` completes a switch pending to it (R64). -/
def completeSwitch (l : Fin 4) (frameNo : W32) (s : State) : State :=
  if s.sel.waiting = some l then
    raise .programSwitched l.val [b1 switchedCode, b1 (laneCode s.sel.programme), b4 frameNo.toNat]
      (s.modSel fun sel => { sel with programme := some l, waiting := none })
  else s

/-- What the disable of lane `l` does to the selector (R61, R65): a pending switch to it fails, and as programme lane
it is dropped. -/
def dropFromSelector (l : Fin 4) (s : State) : State :=
  let s1 :=
    if s.sel.waiting = some l then
      raise .programSwitched l.val [b1 failedCode, b1 (laneCode s.sel.programme), b4 0]
        (s.modSel fun sel => { sel with waiting := none })
    else s
  if s1.sel.programme = some l then
    raise .programSwitched l.val [b1 droppedCode] (s1.modSel fun sel => { sel with programme := none })
  else s1

/-! ## Rate control -/

/-- The fullness after a row of cost `c` (R53). -/
def Lane.charged (L : Lane) (c : Nat) : Int :=
  clampInt (L.fullness + (c : Int) - (L.target : Int)) (-(L.bound : Int)) (L.bound : Int)

/-- The q that the fullness `f` chooses (R54). -/
def Lane.chooseQ (L : Lane) (f : Int) : Nat := clampNat (L.qFloor + (max f 0).toNat / L.span) L.qFloor 5

/-- Whether some path in the effective route set has more cells in use than its high mark (R55). -/
def underPressure (s : State) : Bool :=
  (effectiveRoute s).any fun p => decide ((s.home.paths.get p).high < (s.home.paths.get p).inUse)

/-- The fullness update and the choice of the next q after a row of cost `c` (R53 to R55). -/
def chargeRow (l : Fin 4) (c : Nat) (s : State) : State :=
  let raised := decide (s.sel.programme = some l) && underPressure s
  s.modLane l fun L =>
    let f := L.charged c
    { L with fullness := f, q := if raised then min (L.chooseQ f + 1) 5 else L.chooseQ f }

/-! ## Rows -/

/-- A row unit offered to the store, when the lane's record flag is set and the store is not OFF (R48), and to each
path of the effective route set, when the lane is the programme lane (R49). -/
def offerRow (l : Fin 4) (u : MUnit) (s : State) : State :=
  let L := s.lanes.get l
  let s1 :=
    if L.record = true ∧ s.store.state ≠ .off then offerStore (some l) L.frameNo u s else s
  if s1.sel.programme = some l then offerToRoute (offerLive ⟨l.val, by omega⟩ u) s1 else s1

/-- ROW COMPLETE: row `j` of lane `l`, of bytes `row`, is coded, counted, charged and offered (R36, R40, R41 to R49). -/
def rowComplete (l : Fin 4) (j : Nat) (row : List Byte) (s : State) : State :=
  let L := s.lanes.get l
  let bits := codeRow L.q L.kbase (samplesOf row)
  let u := MUnit.row l L.frameNo L.frameTc j L.q (riceParameter L.kbase L.q) bits.length (payloadOf bits)
  let s1 := s.modLane l fun L => { L with rowsThis := L.rowsThis + 1 }
  offerRow l u (chargeRow l (rowCost bits.length) s1)

/-! ## Intake -/

/-- The line length in bytes (R29). -/
def Geometry.lineLen (g : Geometry) : Nat := g.width * 2
/-- The slot length in bytes (R29). -/
def Geometry.slotLen (g : Geometry) : Nat := g.width * g.lines * 2
/-- The bytes the aperture must have (R30, R31). -/
def Geometry.region (g : Geometry) : Nat := g.slots * g.width * g.lines * 2

/-- The slot that starts at an offset, when one does (R29). -/
def Geometry.slotAt (g : Geometry) (off : Nat) : Option Nat :=
  if off % g.slotLen = 0 ∧ off / g.slotLen < g.slots then some (off / g.slotLen) else none

/-- Bytes taken in IN_FRAME (R34, R36, R39): each row they complete is coded, the last row ends the frame, and bytes
past the slot's end are one stray. At most `k` rows complete. -/
def feedRows (l : Fin 4) : Nat → List Byte → State → State
  | 0, _, s => s
  | k + 1, data, s =>
    match (s.lanes.get l).geom, (s.lanes.get l).intake with
    | some g, .inFrame slot expected j part =>
      let need := g.lineLen - part.length
      if data.length < need then
        s.modLane l fun L => { L with intake := .inFrame slot (expected + data.length) j (part ++ data) }
      else
        let rest := data.drop need
        let s1 := rowComplete l j (part ++ data.take need) s
        if j + 1 = g.lines then
          s1.modLane l fun L =>
            { L with intake := .waiting, strays := if rest = [] then L.strays else L.strays + 1 }
        else
          feedRows l k rest (s1.modLane l fun L => { L with intake := .inFrame slot (expected + need) (j + 1) [] })
    | _, _ => s

/-- A FRAME START of lane `l` in slot `slot` at offset `off`, and the piece's bytes taken from there on (R35, R38). It
is announced to the programme selector first and then to the clip store, in the order R35 names them (log 43). -/
def frameStart (l : Fin 4) (slot off : Nat) (data : List Byte) (s : State) : State :=
  let n := s.clock.frame
  let s1 := s.modLane l fun L =>
    { L with intake := .inFrame slot off 0 [], frameNo := n, frameTc := timecode s }
  let s2 := storeFrameStart l n (completeSwitch l n s1)
  feedRows l (data.length + 1) data s2

/-- SKEW reasons in the order R37 lists them. -/
inductive SkewReason where
  | offset | restart | odd
deriving DecidableEq, Repr

def SkewReason.code : SkewReason → Nat
  | .offset => 0 | .restart => 1 | .odd => 2

/-- The skew count and the SKEW notice of R37; absent items are 0 (R185; log 31). -/
def raiseSkew (l : Fin 4) (reason : SkewReason) (expected off rows : Nat) (s : State) : State :=
  raise .skew l.val [b1 reason.code, b5 expected, b5 off, b4 rows] s

/-- The frame in progress is abandoned by a skew (R37): the count, the damage report, the notice; WAITING. The damaged
record's mirror write comes before SKEW, in the order in which R37 lists them (log 52). -/
def abandon (l : Fin 4) (reason : SkewReason) (expected off rows : Nat) (s : State) : State :=
  raiseSkew l reason expected off rows
    (reportDamage l (s.modLane l fun L => { L with intake := .waiting, skews := L.skews + 1 }))

/-- A write piece handed to lane `l` (R33 to R37). -/
def takePicture (l : Fin 4) (off : Nat) (data : List Byte) (s : State) : State :=
  let odd := decide (off % 2 = 1) || decide (data.length % 2 = 1)
  match (s.lanes.get l).geom, (s.lanes.get l).intake with
  | _, .disabled => s
  | none, _ => s
  | some g, .waiting =>
    if odd then raiseSkew l .odd 0 off 0 (s.modLane l fun L => { L with skews := L.skews + 1 })
    else
      match g.slotAt off with
      | some slot => frameStart l slot off data s
      | none => s.modLane l fun L => { L with strays := L.strays + 1 }
  | some g, .inFrame _ expected j _ =>
    if odd then abandon l .odd expected off j s
    else if off = expected then feedRows l (data.length + 1) data s
    else
      match g.slotAt off with
      | some slot => frameStart l slot off data (abandon l .restart expected off j s)
      | none => abandon l .offset expected off j s

/-- A picture frame in progress is given up without a skew (R51): WAITING from IN_FRAME. -/
def Lane.toWaiting (L : Lane) : Lane := if L.enabled then { L with intake := .waiting } else L

end Sys2Proof.Machine
end

