-- ==== Sys2Proof/Machine/Sounds.lean ====
section
/-! DEFINITION. Sound intake and mixing (05_sound_intake_and_mixing.md, R70 to R77, R82 to R85, R88 to R92). -/

namespace Sys2Proof.Machine

/-! ## Intake -/

/-- A sample frame's length in bytes (R70). -/
def SoundInput.frameLen (i : SoundInput) : Nat := i.channels * 4

/-- The ring end: the offset past the last whole sample frame of an aperture (R70). -/
def SoundInput.ringEnd (i : SoundInput) (size : Nat) : Nat := size / i.frameLen * i.frameLen

/-- Whether an offset is a frame boundary of the ring (R70). -/
def SoundInput.boundary (i : SoundInput) (size off : Nat) : Bool :=
  decide (off % i.frameLen = 0) && decide (off < i.ringEnd size)

/-- The values of a sample frame's words: signed 24-bit, little-endian (R70). -/
def sampleWords : List Byte → List Int
  | a :: b :: c :: _ :: rest => (BitVec.ofNat 24 (ofLe [a, b, c])).toInt :: sampleWords rest
  | _ => []

/-- Whether some word of a sample frame has its invalid bit set (R70, R76). -/
def anyInvalid : List Byte → Bool
  | _ :: _ :: _ :: d :: rest => d.getLsbD 7 || anyInvalid rest
  | _ => false

/-- A complete sample frame replaces the slot (R76). -/
def SoundInput.complete (i : SoundInput) (frame : List Byte) : SoundInput :=
  { i with slot := sampleWords frame, overruns := if i.fresh then i.overruns + 1 else i.overruns, fresh := true,
           invalid := anyInvalid frame }

/-- Bytes taken in RUNNING from offset `at0` on (R74); at most `k` sample frames complete. -/
def SoundInput.feed (size : Nat) : Nat → Nat → List Byte → List Byte → SoundInput → SoundInput
  | 0, at0, part, _, i => { i with intake := .running at0 part }
  | k + 1, at0, part, data, i =>
    let need := i.frameLen - part.length
    if data.length < need then { i with intake := .running (at0 + data.length) (part ++ data) }
    else
      let i1 := i.complete (part ++ data.take need)
      if at0 + need = i.ringEnd size then { i1 with intake := .running 0 [] }
      else SoundInput.feed size k (at0 + need) [] (data.drop need) i1

/-- A write piece handed to a sound input of an aperture of `size` bytes (R73 to R75). -/
def SoundInput.take (i : SoundInput) (size off : Nat) (data : List Byte) : SoundInput :=
  match i.intake with
  | .disabled => i
  | .seeking => if i.boundary size off then SoundInput.feed size (data.length + 1) off [] data i else i
  | .running expected part =>
    if off = expected then SoundInput.feed size (data.length + 1) off part data i
    else
      let skewed := { i with skews := i.skews + 1 }
      if i.boundary size off then SoundInput.feed size (data.length + 1) off [] data skewed
      else { skewed with intake := .seeking }

/-- A write piece handed to sound input `i` (R10). -/
def takeSound (i : Fin 4) (off : Nat) (data : List Byte) (s : State) : State :=
  s.modSnd fun d => { d with inputs := d.inputs.modify i fun x => x.take (apSize (.sound i) s) off data }

/-- RUNNING becomes SEEKING, its partial frame discarded (R93). -/
def SoundInput.toSeeking (i : SoundInput) : SoundInput := if i.enabled then { i with intake := .seeking } else i

/-! ## The input at a tick (R77) -/

def State.modInput (i : Fin 4) (f : SoundInput → SoundInput) (s : State) : State :=
  s.modSnd fun d => { d with inputs := d.inputs.modify i f }

/-- R77 for one input. -/
def settleInput (i : Fin 4) (s : State) : State :=
  let x := s.snd.inputs.get i
  let detail := [b4 x.slips.toNat, b4 x.overruns.toNat]
  if x.enabled = false then s
  else if x.fresh then
    let s1 := s.modInput i fun x => { x with fresh := false, starve := 0, silent := false }
    if x.silent then raise .soundBack i.val detail s1 else s1
  else if x.silent then s
  else if x.starve + 1 < 8 then s.modInput i fun x => { x with starve := x.starve + 1, slips := x.slips + 1 }
  else raise .soundSilent i.val detail (s.modInput i fun x => { x with starve := 8, silent := true })

/-- An input contributes when it is enabled and not SILENT (R77). -/
def SoundInput.contributes (i : SoundInput) : Bool := i.enabled && !i.silent

/-! ## Buses (R82 to R84) -/

/-- What a tap adds to its bus's sum (R82). -/
def Tap.product (t : Tap) (inputs : Table SoundInput 4) : Int :=
  let x := inputs.get t.input
  if x.contributes && decide (t.channel.val < x.channels) then x.slot.getD t.channel.val 0 * (t.gain : Int) else 0

/-- The sum of bus `b` (R82). -/
def busSum (b : Fin 8) (d : Sound) : Int :=
  d.taps.items.foldl (fun acc t => if t.enabled = true ∧ t.bus = b then acc + t.product d.inputs else acc) 0

/-- The sum over unity gain, to the nearest integer, halves toward plus infinity (R83). -/
def unityDiv (acc : Int) : Int := (acc + 16384) / 32768

/-- The largest and smallest bus output (R83). -/
def outMax : Int := 8388607
def outMin : Int := -8388608

/-- A value saturated to a bus output (R83). -/
def saturate (v : Int) : Int := clampInt v outMin outMax

/-- The output of bus `b` at this tick (R83). -/
def busOutput (b : Fin 8) (d : Sound) : Int :=
  if (d.buses.get b).mute then 0 else saturate (unityDiv (busSum b d))

def State.modBus (b : Fin 8) (f : Bus → Bus) (s : State) : State :=
  s.modSnd fun d => { d with buses := d.buses.modify b f }

/-- The saturation of an unmuted bus (R84), `v` being the value before it and `pos` the tick position. -/
def settleBus (pos : Nat) (b : Fin 8) (s : State) : State :=
  let B := s.snd.buses.get b
  let v := unityDiv (busSum b s.snd)
  if B.mute = true ∨ (outMin ≤ v ∧ v ≤ outMax) then s
  else
    let s1 := s.modBus b fun B => { B with clips := B.clips + 1, satMark := true, arm := false }
    if B.arm then raise .busClip b.val [b4s v, b2 pos, b4 (B.clips + 1).toNat] s1 else s1

/-- Before the mixing of the tick that opens a frame: a clean frame arms the bus, and the mark is cleared (R84). -/
def Bus.openFrame (B : Bus) : Bus := { B with arm := B.arm || !B.satMark, satMark := false }

/-! ## Fades (R85) -/

/-- A tap's ramp step (R85). -/
def Tap.stepped (t : Tap) : Tap :=
  if t.enabled = false then t
  else if t.gain ≤ t.target then { t with gain := if t.target - t.gain ≤ t.step then t.target else t.gain + t.step }
  else { t with gain := if t.gain - t.target ≤ t.step then t.target else t.gain - t.step }

/-! ## The monitor ring (R88) -/

/-- A monitor record: the outputs of the monitored buses, 0 for the others. -/
def monitorRecord (d : Sound) (outs : List Int) : List Byte :=
  (List.finRange 8).flatMap fun b => leInt 4 (if (d.buses.get b).monitor then outs.getD b.val 0 else 0)

/-- The monitor write of a tick, while MONITOR is SET (R88). -/
def monitorWrite (outs : List Int) (s : State) : State :=
  match ap .monitor s with
  | none => s
  | some a =>
    (push byMixer (writeEntry (a.base + 32 * s.snd.monPos) (monitorRecord s.snd outs)) s).modSnd fun d =>
      { d with monPos := if d.monPos + 1 < a.size / 32 then d.monPos + 1 else 0 }

/-! ## Sound units (R89 to R92) -/

/-- The sent mask (R81). -/
def Sound.sentMask (d : Sound) : BitVec 8 := flagByte (d.buses.items.map (·.sent))

/-- The buses of a mask, ascending. -/
def maskBuses (m : BitVec 8) : List (Fin 8) := (List.finRange 8).filter fun b => m.getLsbD b.val

/-- The unit of an accumulator that closes (R90). -/
def Accumulator.toUnit (a : Accumulator) : MUnit :=
  .sound a.frame a.tc a.ticks a.start a.mask a.invalid a.silentSource (a.samples.flatMap (leInt 4))

/-- A closed sound unit offered to the store, when it is not OFF, and to each path of the effective route set (R92). -/
def offerSound (u : MUnit) (frame : W32) (s : State) : State :=
  let s1 := if s.store.state ≠ .off then offerStore none frame u s else s
  offerToRoute (offerLive 4 u) s1

/-- The accumulator's unit closes and is offered; the accumulator becomes EMPTY, with the restart mark as given
(R89, R91, R92). -/
def closeUnit (a : Accumulator) (restart : Bool) (s : State) : State :=
  offerSound a.toUnit a.frame (s.modSnd fun d => { d with acc := none, restart := restart })

/-- Whether some enabled tap on a bus of the mask names an input that satisfies `p` (R90). -/
def tapsName (d : Sound) (m : BitVec 8) (p : SoundInput → Bool) : Bool :=
  d.taps.items.any fun t => t.enabled && m.getLsbD t.bus.val && p (d.inputs.get t.input)

/-- An OPEN accumulator collects a tick (R89, R90). -/
def Accumulator.collect (d : Sound) (outs : List Int) (a : Accumulator) : Accumulator :=
  { a with samples := a.samples ++ (maskBuses a.mask).map (fun b => outs.getD b.val 0), ticks := a.ticks + 1,
           invalid := a.invalid || tapsName d a.mask (fun x => x.contributes && x.invalid),
           silentSource := a.silentSource || tapsName d a.mask (fun x => x.enabled && x.silent) }

/-- Whether an EMPTY accumulator opens at tick position `pos` (R89). -/
def Sound.opensAt (d : Sound) (pos : Nat) : Bool :=
  decide (d.sentMask ≠ 0) && (decide (pos % 40 = 0) || d.restart)

/-- The accumulator that collects this tick, when there is one (R89). -/
def Sound.current (d : Sound) (pos : Nat) (frame : W32) (tc : Nat) : Option Accumulator :=
  match d.acc with
  | some a => some a
  | none => if d.opensAt pos then some ⟨d.sentMask, pos, frame, tc, 0, [], false, false⟩ else none

/-- The accumulator at a tick of position `pos` (R89). -/
def accumulate (pos : Nat) (outs : List Int) (s : State) : State :=
  match s.snd.current pos s.clock.frame (timecode s) with
  | none => s.modSnd fun d => { d with restart := d.restart && decide (d.sentMask ≠ 0) }
  | some a =>
    let restart := if s.snd.acc.isSome then s.snd.restart else false
    let a1 := a.collect s.snd outs
    if (pos + 1) % 40 = 0 then closeUnit a1 restart s
    else s.modSnd fun d => { d with acc := some a1, restart := restart }

/-! ## The mixer's work at one tick -/

/-- The mixer at a tick of position `pos`; `opening` at a frame tick (R77, R82 to R85, R88, R89). Inputs are settled,
and buses after them, in index order (log 44). -/
def mixerTick (pos : Nat) (opening : Bool) (s : State) : State :=
  let s1 := if opening then s.modSnd fun d => { d with buses := d.buses.map Bus.openFrame } else s
  let s2 := forEach (List.finRange 4) settleInput s1
  let outs := (List.finRange 8).map fun b => busOutput b s2.snd
  let s3 := forEach (List.finRange 8) (settleBus pos) s2
  let s4 := s3.modSnd fun d => { d with taps := d.taps.map Tap.stepped }
  accumulate pos outs (monitorWrite outs s4)

end Sys2Proof.Machine
end

