-- ==== Sys2Proof/Machine/Transfers.lean ====
section
/-! DEFINITION. The transfer engine, and the consumption of a ring, which may place the engine's held offer
(10_clip_transfer.md, R164 to R170; 06_home_paths.md, R107 to R109). -/

namespace Sys2Proof.Machine

/-- The retained entry that a store sequence names (R166). -/
def retainedOf (seq : W32) (s : State) : Option (Retained × StoredUnit) :=
  s.store.retained.findSome? fun e => e.unit.bind fun u => if u.seq = seq then some (e, u) else none

/-- The active transfer's clip record. -/
def activeClip (s : State) : Option (Fin 256) := s.xfer.queue.head?.bind fun e => findClip e.clip s

/-- Whether a clip's transfer selects a unit (R166). -/
def Clip.selects (c : Clip) (u : StoredUnit) : Bool :=
  (match u.source with | some l => decide (c.source = l) | none => true)
    && (c.out.map fun o => within c.inFrame u.frame o.1).getD false

/-- Whether the unit at the cursor is selected (R166). -/
def cursorSelected (s : State) : Bool :=
  match activeClip s, retainedOf s.xfer.cursor s with
  | some i, some (_, u) => (s.log.recs.get i).selects u
  | _, _ => false

/-- The cursor advanced (R167): the read buffer emptied, one added to the cursor, one taken from the remaining count. -/
def Transfer.advanced (x : Transfer) : Transfer :=
  { x with cursor := x.cursor + 1, remaining := x.remaining - 1, buffer := [], issued := false, paused := false,
           tag := x.tag + 1 }

/-- Units that are not selected are skipped at once (R166), at most `k` of them. -/
def skipUnits : Nat → State → State
  | 0, s => s
  | k + 1, s =>
    if s.xfer.remaining = 0 ∨ cursorSelected s = true then s
    else skipUnits k (s.modXfer fun x => { x.advanced with skipped := x.skipped + 1 })

/-- The head of the send queue becomes active (R166). DESIGN CHOICE (log 27): with an empty queue the cursor and the
remaining, placed, skipped and oversize counts become 0 and the phase READING, though R164 gives these values at reset
alone and R166 sets them at the next activation. -/
def activate (s : State) : State :=
  match s.xfer.queue with
  | [] => s.modXfer fun x => { Transfer.reset with tag := x.tag + 1 }
  | _ :: _ =>
    let c := (activeClip s).map fun i => s.log.recs.get i
    let first := (c.map Clip.firstSeq).getD 0
    let last := ((c.bind (·.last)).map (·.1)).getD 0
    s.modXfer fun x =>
      { x with cursor := first, remaining := (last - first + 1).toNat, paused := false, issued := false, buffer := [],
               placed := 0, skipped := 0, oversize := 0, tag := x.tag + 1 }

/-- The transfer is complete (R168): the clip is SENT, TRANSFER_DONE is raised, the entry leaves the queue. -/
def complete (s : State) : State :=
  match s.xfer.queue with
  | [] => s
  | e :: rest =>
    let s1 :=
      match findClip e.clip s with
      | none => s
      | some i => changeRec i (fun c => { c with state := .sent, prior := none, sends := c.sends + 1 }) s
    (raise .transferDone e.clip
      [b1 e.path.val, b4 s.xfer.placed.toNat, b4 s.xfer.skipped.toNat, b4 s.xfer.oversize.toNat] s1).modXfer
        fun x => { x with queue := rest }

/-- The engine deals with the unit at the cursor (R166, R167): unselected units are skipped, a transfer whose remaining
count is 0 completes and the next entry becomes active; at most `k` transfers complete. -/
def deal : Nat → State → State
  | 0, s => s
  | k + 1, s =>
    if s.xfer.queue = [] then s
    else
      let s1 := skipUnits s.xfer.remaining s
      if s1.xfer.remaining = 0 then deal k (activate (complete s1)) else s1

/-- The engine goes on from where it stands. -/
def goOn (s : State) : State := deal s.xfer.queue.length s

/-- The head entry becomes active and its first unit is dealt with (R166). -/
def startHead (s : State) : State := goOn (activate s)

/-- The cursor advances, and the engine goes on (R167). -/
def advanceCursor (s : State) : State := goOn (s.modXfer Transfer.advanced)

/-- The engine is told that its held offer was placed (R105, R167). -/
def toldPlaced (s : State) : State :=
  advanceCursor (s.modXfer fun x => { x with placed := x.placed + 1 })

/-- A unit offered by the engine, and what it does with the answer (R105, R167). -/
def offerToPath (p : Fin 2) (u : MUnit) (s : State) : State :=
  let s1 := offerReplay p u s
  match replayAnswer p u s with
  | .placed => toldPlaced s1
  | .wait => s1.modXfer fun x => { x with paused := true }
  | .oversize => advanceCursor (s1.modXfer fun x => { x with oversize := x.oversize + 1 })

/-- A path's held replay offer examined again by R105's table (R98, R109): placed and told, or held on. -/
def reexamine (p : Fin 2) (s : State) : State :=
  match (s.home.paths.get p).heldOffer with
  | none => s
  | some u =>
    match replayAnswer p u s with
    | .placed => toldPlaced (place p u 0 (s.modPath p fun P => { P with heldOffer := none }))
    | .wait | .oversize => s

/-- The active transfer lets go of its unit (R169, R170): a held offer is withdrawn, read entries in the hold are
removed, reads already queued will be discarded by their tag. -/
def letGo (s : State) : State :=
  let s1 :=
    match s.xfer.queue with
    | [] => s
    | e :: _ => if s.xfer.paused then s.modPath e.path fun P => { P with heldOffer := none } else s
  (dropHold byTransfer s1).modXfer fun x => { x with buffer := [], issued := false, paused := false, tag := x.tag + 1 }

/-- Why a transfer ended (Encodings). -/
inductive EndReason where
  | aborted | pathOff | storeOff | cleared
deriving DecidableEq, Repr

def EndReason.code : EndReason → Nat
  | .aborted => 0 | .pathOff => 1 | .storeOff => 2 | .cleared => 3

/-- A SENDING clip returns to its prior state, and is mirrored (R169, R170). -/
def restorePrior (num : Nat) (s : State) : State :=
  match findClip num s with
  | none => s
  | some i => changeRec i (fun c => { c with state := c.prior.getD .closed, prior := none }) s

/-- TRANSFER_ENDED (R169, R170); the counts are 0 for a queued entry. -/
def raiseEnded (reason : EndReason) (e : Send) (placed remaining : Nat) (s : State) : State :=
  raise .transferEnded e.clip [b1 reason.code, b1 e.path.val, b4 placed, b4 remaining] s

/-- The effect of one ending of R170 on the clip: its prior state, mirrored before TRANSFER_ENDED is raised (R169's order
for an abort, which R170 does not repeat; log 48), or LOST with CLIP_LOST after TRANSFER_ENDED. -/
def endEntry (reason : EndReason) (lost : Bool) (placed remaining : Nat) (e : Send) (s : State) : State :=
  if lost then
    let s1 := raiseEnded reason e placed remaining s
    match findClip e.clip s1 with
    | none => s1
    | some i => loseClip i s1
  else raiseEnded reason e placed remaining (restorePrior e.clip s)

/-- Entries of the send queue ended in queue order (R170); the first of the queue is the active one. -/
def endEntries (reason : EndReason) (lost : Bool) (which : Send → Bool) (s : State) : State :=
  match s.xfer.queue with
  | [] => s
  | e :: rest =>
    let placed := s.xfer.placed.toNat
    let remaining := s.xfer.remaining
    let s1 := if which e then endEntry reason lost placed remaining e (letGo s) else s
    let s2 := forEach (rest.filter which) (endEntry reason lost 0 0) s1
    let s3 := s2.modXfer fun x => { x with queue := (e :: rest).filter fun f => !which f }
    if which e then startHead s3 else s3

/-! ## Consumption (R107 to R109) -/

/-- The cell positions a read piece touches: those of its bytes at offsets 64 and above (R107). -/
def touchedCells (off len : Nat) : List Nat :=
  if off + len ≤ 64 then []
  else
    let lo := (max off 64 - 64) / 64
    let hi := (off + len - 65) / 64
    (List.range (hi + 1 - lo)).map (lo + ·)

/-- The counter value that position `pos` of a ring of `n` cells holds, when it holds one (R95). -/
def heldValue (n : Nat) (P : HomePath) (pos : Nat) : Option Nat :=
  let v := P.consumed + (pos + n - P.consumed % n) % n
  if pos < n ∧ v < P.placed then some v else none

/-- Whether the piece touches a placed but unpublished cell (R108). -/
def touchesUnpublished (n : Nat) (P : HomePath) (cells : List Nat) : Bool :=
  cells.any fun pos => (heldValue n P pos).any fun v => decide (P.published ≤ v)

/-- The newest published entry whose last cell the piece touches, and the entries behind it (R107). -/
def consumedBy (n : Nat) (P : HomePath) (cells : List Nat) : Option (RingEntry × List RingEntry) :=
  splitLast
    (fun e => decide (e.start + e.cells ≤ P.published) && cells.contains ((e.start + e.cells - 1) % n)) P.units

/-- Pending tags are tried, oldest first; the first that does not fit stops the try (R109). -/
def tryTags (p : Fin 2) : List MUnit → State → State
  | [], s => s
  | u :: rest, s =>
    if fits p u s then
      tryTags p rest (place p u 0 (s.modPath p fun P => { P with tags := rest }))
    else s

/-- The re-arm test (R106). -/
def rearm (P : HomePath) : HomePath := if P.inUse ≤ P.low then { P with arm := true } else P

/-- What a consumption goes on to (R109). -/
def afterConsumption (p : Fin 2) (s : State) : State :=
  let s1 := s.modPath p fun P => { P with stall := 0 }
  let s2 :=
    if (s1.home.paths.get p).state = .stalled then
      raiseResume p 0 (s1.modPath p fun P => { P with state := .running })
    else s1
  let s3 := s2.modPath p rearm
  let s4 := tryTags p (s3.home.paths.get p).tags s3
  reexamine p s4

/-- A read piece by the consumer initiator is handed to its path (R107, R108). -/
def handConsumerRead (p : Fin 2) (off len : Nat) (s : State) : State :=
  let P := s.home.paths.get p
  if P.state = .off then s
  else
    let n := pathCells p s
    let cells := touchedCells off len
    let s1 :=
      if touchesUnpublished n P cells then s.modPath p fun P => { P with early := P.early + 1 } else s
    match consumedBy n P cells with
    | none => s1
    | some (e, rest) =>
      afterConsumption p (s1.modPath p fun P => { P with units := rest, consumed := e.start + e.cells })

/-! ## Reading the store (R167) -/

/-- The unit at the cursor is read: one read entry per cell, in cell order (R167). Made only when a transfer is active
and READING, its unit is selected and readable, and its reads have not been made. -/
def issueReads (s : State) : State :=
  match s.xfer.queue, retainedOf s.xfer.cursor s with
  | _ :: _, some (e, u) =>
    if s.xfer.paused = false ∧ s.xfer.issued = false ∧ cursorSelected s = true ∧ u.readable = true then
      let base := apBase .store s
      let n := storeCells s
      (pushAll byTransfer
        ((List.range e.cells).map fun i =>
          ⟨.read (base + 64 * ((e.start + i) % n + 1)) s.xfer.tag, .nothing⟩) s).modXfer
        fun x => { x with issued := true }
    else s
  | _, _ => s

/-- The kind of a stored unit (R117). -/
def StoredUnit.kind (u : StoredUnit) : UnitKind := if u.source.isSome then .pictureRow else .sound

/-- A served store read: its 64 bytes join the read buffer, and when every cell of the unit has returned the replay
unit is offered to the entry's path (R167). Data of reads the engine has let go is discarded (R169). -/
def storeReadData (tag : Nat) (data : List Byte) (s : State) : State :=
  match s.xfer.queue, retainedOf s.xfer.cursor s with
  | e :: _, some (r, u) =>
    if s.xfer.issued = true ∧ s.xfer.paused = false ∧ s.xfer.tag = tag then
      let s1 := s.modXfer fun x => { x with buffer := x.buffer ++ [data] }
      if s1.xfer.buffer.length < r.cells then s1
      else
        let raw := s1.xfer.buffer.flatten
        offerToPath e.path (.replay u.kind (raw.take (ofLe (slice 2 2 raw)))) s1
    else s
  | _, _ => s

end Sys2Proof.Machine
end

