-- ==== Sys2Proof/Machine/MemoryPath.lean ====
section
/-! DEFINITION. The memory path: acceptance and cutting of upstream requests, guards, observation, the insert queue's
joins, the downstream arbiter and the service of reads (01_memory_path_and_apertures.md, R1 to R15; 11, R174, R179). -/

namespace Sys2Proof.Machine

/-! ## Cutting (R3) -/

/-- The functions, in number order. -/
def allFns : List Fn := (List.finRange 16).map Fn.ofNum

/-- Whether an address lies in an aperture. -/
def Aperture.has (a : Aperture) (x : Nat) : Bool := decide (a.base ≤ x) && decide (x < a.base + a.size)

/-- The function whose SET aperture an address lies in (R3). -/
def fnAt (x : Nat) (s : State) : Option Fn := allFns.find? fun f => (ap f s).any fun a => a.has x

/-- The boundaries of SET apertures strictly inside a range, in rising order (R3). -/
def boundaries (lo hi : Nat) (s : State) : List Nat :=
  sortBy id ((allFns.flatMap fun f =>
    match ap f s with
    | none => []
    | some a => [a.base, a.base + a.size]).filter fun b => decide (lo < b) && decide (b < hi))

/-- A range cut at rising boundaries. -/
def spans : Nat → List Nat → Nat → List (Nat × Nat)
  | lo, [], hi => [(lo, hi)]
  | lo, b :: bs, hi => if lo < b then (lo, b) :: spans b bs hi else spans lo bs hi

/-- The part of a request's operation at a byte distance and length. -/
def opPart (o : ReqOp) (off len : Nat) : ReqOp :=
  match o with
  | .read _ => .read len
  | .write d => .write (slice off len d)

/-- Whether an operation writes. -/
def opWrites : ReqOp → Bool
  | .read _ => false
  | .write _ => true

/-- The piece of a request in a span: its function, offset and guard by the map as it stands (R1, R3). -/
def makePiece (r : Request) (id : Nat) (span : Nat × Nat) (s : State) : Piece :=
  let len := span.2 - span.1
  let fn := fnAt span.1 s
  let off := match fn with | none => 0 | some f => span.1 - apBase f s
  { req := id, serial := 0, fn := fn,
    guarded := match fn with | none => false | some f => f.guards off len,
    off := off, addr := span.1, initiator := r.initiator, op := opPart r.op (span.1 - r.addr.toNat) len }

/-- The pieces of a request, in address order (R3). -/
def piecesOf (r : Request) (id : Nat) (s : State) : List Piece :=
  let lo := r.addr.toNat
  let hi := r.addr.toNat + r.op.len
  (spans lo (boundaries lo hi s) hi).map fun span => makePiece r id span s

/-- A guarded write piece, which is discarded at acceptance (R8). -/
def Piece.discarded (p : Piece) : Bool := p.guarded && opWrites p.op

/-! ## Guards (R9) -/

/-- One more discarded piece. -/
def GuardTally.add (initiator : Fin 16) (off : Nat) (g : GuardTally) : GuardTally :=
  if g.count = 0 then ⟨1, initiator, off⟩ else { g with count := holdInc Config.hold16 g.count }

/-- A discarded piece counts in the guard tally of its function. -/
def tallyGuard (f : Fn) (initiator : Fin 16) (off : Nat) (s : State) : State :=
  s.modAps fun a => { a with guards := a.guards.modify f.num (GuardTally.add initiator off) }

/-! ## The command shadow (R174) -/

/-- The shadow with bytes put in from a position on; bytes past its end are none of it. -/
def putShadow (off : Nat) (bs : List Byte) (t : Table Byte 1024) : Table Byte 1024 :=
  if h : off + bs.length ≤ 1024 then
    ⟨t.items.take off ++ bs ++ t.items.drop (off + bs.length), by
      simp only [List.length_append, List.length_take, List.length_drop, t.size_eq]
      omega⟩
  else t

/-- The slots' bytes that a piece at COMMANDS offset `off` carries: offsets 64 to 1087 (R10). -/
def slotBytes (off : Nat) (data : List Byte) : List Byte := data.take (1088 - off)

/-- The position, within the shadow, of the first byte of slot `n`'s go word. -/
def goAt (n : Fin 16) : Nat := 64 * n.val + 56

/-- A piece that covers the first byte of slot `n`'s go word: a command arrival, an ignored command, or nothing
(R174). -/
def slotArrival (n : Fin 16) (s : State) : State :=
  let code := (s.ctl.shadow.items.getD (goAt n) 0).toNat
  if code = 0 then s
  else if s.ctl.marks.get n then raise .commandIgnored n.val [b1 code] s
  else
    s.modCtl fun c =>
      { c with queue := c.queue ++ [⟨n, slice (64 * n.val) 64 c.shadow.items⟩], marks := c.marks.set n true }

/-- A write piece of COMMANDS handed to the command shadow (R10, R174); `off` is 64 or more. The slots whose go words it
covers are taken in address order, the ignored ones too (log 49). -/
def takeCommands (off : Nat) (data : List Byte) (s : State) : State :=
  if off < 64 ∨ 1088 ≤ off then s
  else
    let bs := slotBytes off data
    let lo := off - 64
    forEach ((List.finRange 16).filter fun n => decide (lo ≤ goAt n) && decide (goAt n < lo + bs.length)) slotArrival
      (s.modCtl fun c => { c with shadow := putShadow lo bs c.shadow })

/-! ## Release of notices (R179) -/

/-- A release-word write handed over in WRITE mode. -/
def releaseWord (v : Nat) (s : State) : State :=
  if s.ctl.released ≤ v ∧ v ≤ s.ctl.written then releaseTo v s else s

/-- Whether a piece touches any of the last 8 bytes of notice slot `j`. -/
def touchesSlotEnd (off len j : Nat) : Bool := decide (off < 96 + 32 * j) && decide (88 + 32 * j < off + len)

/-- The newest unreleased notice in a slot whose last bytes the piece touches. -/
def newestTouched (off len : Nat) (s : State) : Option Nat :=
  let n := noticeSlots (apSize .notices s)
  ((List.range (s.ctl.written - s.ctl.released)).reverse.find? fun k =>
    touchesSlotEnd off len ((s.ctl.released + k) % n)).map (s.ctl.released + ·)

/-- A read piece of NOTICES by the control initiator handed over in READ mode. -/
def releaseByRead (off len : Nat) (s : State) : State :=
  match newestTouched off len s with
  | none => s
  | some w => releaseTo (w + 1) s

/-! ## Observation (R10, R11) -/

/-- A write piece that is accepted and not guarded, handed to the owner of its function (R10). -/
def handWrite (f : Fn) (off : Nat) (initiator : Fin 16) (data : List Byte) (s : State) : State :=
  match f with
  | .picture i => takePicture i off data s
  | .sound i => takeSound i off data s
  | .commands => takeCommands off data s
  | .notices =>
    if off = 8 ∧ data.length = 8 ∧ initiator = s.ctl.controlInit ∧ s.ctl.mode = .write then releaseWord (ofLe data) s
    else s
  | .path _ | .store | .log | .status | .monitor => s

/-- A served read piece handed to the owner of its function (R11). -/
def handRead (f : Fn) (off len : Nat) (initiator : Fin 16) (s : State) : State :=
  match f with
  | .path p => if initiator = (s.home.paths.get p).consumer then handConsumerRead p off len s else s
  | .notices => if initiator = s.ctl.controlInit ∧ s.ctl.mode = .read then releaseByRead off len s else s
  | .commands | .picture _ | .sound _ | .store | .log | .status | .monitor => s

/-! ## Acceptance (R1) -/

/-- A piece taken at acceptance: discarded and tallied, or placed in the in-flight list and, for a write, observed. -/
def takePiece (p : Piece) (s : State) : State :=
  if p.discarded then
    match p.fn with
    | none => s
    | some f => tallyGuard f p.initiator p.off s
  else
    let s1 := s.modPort fun q =>
      { q with inflight := q.inflight ++ [{ p with serial := q.nextPiece }], nextPiece := q.nextPiece + 1 }
    match p.fn, p.op with
    | some f, .write d => handWrite f p.off p.initiator d s1
    | _, _ => s1

/-- A request enters the open list, or is answered at once when no piece of it is left (R1). -/
def openRequest (r : Request) (id left : Nat) (s : State) : State :=
  s.modPort fun q =>
    if left = 0 then { q with nextReq := id + 1, answers := q.answers ++ [⟨id, r.initiator, !opWrites r.op, []⟩] }
    else { q with nextReq := id + 1, opens := q.opens ++ [⟨id, r.initiator, !opWrites r.op, left, []⟩] }

/-- A request accepted: cut, and its pieces taken in address order (R1, R3, R8 to R10). -/
def acceptRequest (r : Request) (s : State) : State :=
  let id := s.port.nextReq
  let ps := piecesOf r id s
  forEach ps takePiece (openRequest r id (ps.filter fun p => !p.discarded).length s)

/-- Whether the port accepts a request now: the in-flight list has room for all of its pieces, those that will be
discarded among them, and the insert queue has room (R1, R15). -/
def canAccept (r : Request) (s : State) : Bool :=
  s.port.linkUp && decide (s.ins.queue.length < Config.insertRoom)
    && decide (s.port.inflight.length + (piecesOf r s.port.nextReq s).length ≤ Config.inFlightRoom)

/-- The held requests accepted, oldest first, as far as there is room (R1): at most `k`. -/
def acceptSome : Nat → State → State
  | 0, s => s
  | k + 1, s =>
    match s.port.held with
    | [] => s
    | r :: rest =>
      if canAccept r s then acceptSome k (acceptRequest r (s.modPort fun q => { q with held := rest })) else s

/-- The held requests accepted as far as there is room: at the end of every command that can bring the room, a grant,
a change of the map, the link coming up (R1; log 8). -/
def acceptHeld (s : State) : State := acceptSome s.port.held.length s

/-! ## The downstream port (R2, R13) -/

/-- A piece of an open request is done: granted (a write) or served with `data` (a read); the last one answers the
request (R1). A request that is no longer open is not answered (R15). -/
def Port.donePiece (id : Nat) (data : List Byte) (q : Port) : Port :=
  match q.opens.find? fun o => o.id = id with
  | none => q
  | some o =>
    if o.left ≤ 1 then
      { q with opens := q.opens.filter (fun x => x.id ≠ id),
               answers := q.answers ++ [⟨o.id, o.initiator, o.isRead, o.data ++ data⟩] }
    else
      { q with opens := q.opens.map fun x =>
          if x.id = id then { x with left := x.left - 1, data := x.data ++ data } else x }

/-- The granted writes at the front reach DRAM (R2, R13; log 9). -/
def applyWrites : List Granted → Memory → List Granted × Memory
  | .piece p :: rest, m =>
    match p.op with
    | .write d => applyWrites rest (Mem.writeBytes m p.addr d)
    | .read _ => (.piece p :: rest, m)
  | .entry (.write a d) :: rest, m => applyWrites rest (Mem.writeBytes m a d)
  | .entry (.read a t) :: rest, m => (.entry (.read a t) :: rest, m)
  | [], m => ([], m)

/-- The granted list and DRAM after that. -/
def settleWrites (s : State) : State :=
  let r := applyWrites s.port.granted s.dram
  (s.modDram fun _ => r.2).modPort fun q => { q with granted := r.1 }

/-- Whether two byte ranges overlap. -/
def overlaps (a n b m : Nat) : Bool := decide (a < b + m) && decide (b < a + n)

/-- Whether the entry at the head of the insert queue is held back by an earlier fabric write (R13). -/
def heldBack (e : Queued) (inflight : List Piece) : Bool :=
  match e.op with
  | .read _ _ => false
  | .write a d =>
    inflight.any fun p =>
      opWrites p.op && decide (p.serial < e.after) && overlaps a d.length p.addr p.op.len

/-- Whether the arbiter grants the head entry (R13). -/
def grantsEntry (e : Queued) (s : State) : Bool :=
  !heldBack e s.port.inflight
    && (decide (Config.arbiterThreshold ≤ s.ins.queue.length) || s.port.inflight.isEmpty)

/-- The oldest in-flight piece granted (R13); a write's grant may answer its request (R1). -/
def grantPiece (s : State) : State :=
  match s.port.inflight with
  | [] => s
  | p :: rest =>
    let s1 := s.modPort fun q => { q with inflight := rest, granted := q.granted ++ [.piece p] }
    if opWrites p.op then s1.modPort (Port.donePiece p.req []) else s1

/-- The head entry of the insert queue granted (R13). -/
def grantEntry (s : State) : State :=
  match s.ins.queue with
  | [] => s
  | e :: rest =>
    (s.modIns fun q => { q with queue := rest }).modPort fun q => { q with granted := q.granted ++ [.entry e.op] }

/-- The arbiter's grant (R13). -/
def grant (s : State) : State :=
  match s.ins.queue.head? with
  | some e => if grantsEntry e s then grantEntry s else grantPiece s
  | none => grantPiece s

/-! ## Joining the insert queue (R12) -/

/-- The blocks in the fixed circular order from `b` on. -/
def turnFrom (b : Fin 6) : List (Fin 6) := (List.finRange 6).map fun i => b + i

/-- The block whose entry joins next: the first with a non-empty hold from the turn on. -/
def nextProducer (q : InsertPath) : Option (Fin 6) := (turnFrom q.turn).find? fun b => !(q.holds.get b).isEmpty

/-- The change tied to an entry's joining (R12): published rises (R101), or a stored unit becomes readable (R117). -/
def joinEffect (e : JoinEffect) (s : State) : State :=
  match e with
  | .nothing => s
  | .publish p v => s.modPath p fun P => { P with published := max P.published v }
  | .readable seq => markReadable seq s

/-- The turn after block `b` has been served (R12; log 10). -/
def turnAfter (b : Fin 6) (holds : Table (List InsEntry) 6) : Fin 6 :=
  ((turnFrom (b + 1)).find? fun c => !(holds.get c).isEmpty).getD (b + 1)

/-- The oldest entry of block `b`'s hold joins the insert queue. -/
def joinFrom (b : Fin 6) (s : State) : State :=
  match s.ins.holds.get b with
  | [] => s
  | e :: rest =>
    let holds := s.ins.holds.set b rest
    joinEffect e.eff
      (s.modIns fun q =>
        { queue := q.queue ++ [⟨e.op, s.port.nextPiece⟩], holds := holds, turn := turnAfter b holds })

/-- An entry joins, when the queue has room and a hold is not empty (R12). -/
def joinOne (s : State) : State :=
  if s.ins.queue.length < Config.insertRoom then
    match nextProducer s.ins with
    | none => s
    | some b => joinFrom b s
  else s

/-! ## Service (R11, R13) -/

/-- The granted read piece at the front is served: its data goes to its request, and it is handed to its owner. -/
def serveRead (s : State) : State :=
  match s.port.granted with
  | .piece p :: rest =>
    match p.op with
    | .write _ => s
    | .read n =>
      let s1 := s.modPort fun q => Port.donePiece p.req (Mem.readBytes s.dram p.addr n) { q with granted := rest }
      settleWrites
        (match p.fn with
          | none => s1
          | some f => handRead f p.off n p.initiator s1)
  | _ => s

/-- The granted store read at the front is served: its data goes to the transfer engine. -/
def serveStoreRead (s : State) : State :=
  match s.port.granted with
  | .entry (.read a t) :: rest =>
    settleWrites (storeReadData t (Mem.readBytes s.dram a 64) (s.modPort fun q => { q with granted := rest }))
  | _ => s

/-! ## The commands of the memory path -/

/-- REQUEST_ACCEPT (R1). -/
def execRequestAccept (r : Request) (s : State) : Host.Outcome State Fault Refusal :=
  if r.lengthOk = false then .refused .malformedRequest
  else if r.inSpace = false then .fault .outsideAddressSpace
  else .next (acceptHeld (s.modPort fun q => { q with held := q.held ++ [r] }))

/-- DOWNSTREAM_GRANT (R13). -/
def execDownstreamGrant (s : State) : Host.Outcome State Fault Refusal := .next (acceptHeld (settleWrites (grant s)))

/-- READ_SERVED (R11). -/
def execReadServed (s : State) : Host.Outcome State Fault Refusal := .next (serveRead s)

/-- INSERT_QUEUE_JOIN (R12). -/
def execInsertQueueJoin (s : State) : Host.Outcome State Fault Refusal := .next (joinOne s)

/-- TRANSFER_READ_ISSUE (R167). -/
def execTransferReadIssue (s : State) : Host.Outcome State Fault Refusal := .next (issueReads s)

/-- STORE_READ_SERVED (R167). -/
def execStoreReadServed (s : State) : Host.Outcome State Fault Refusal := .next (serveStoreRead s)

end Sys2Proof.Machine
end

