-- ==== Sys2Proof/Machine/Clocks.lean ====
section
/-! DEFINITION. The station clock: the opening of a frame, the advance of a tick, the reference
(02_station_clock_and_timecode.md, R16 to R28). -/

namespace Sys2Proof.Machine

namespace Clock

/-! ## The frame tick -/

/-- The running frame count increases by one (R17); where it passes to 0 the offset moves with it (R18). -/
def countFrame (c : Clock) : Clock :=
  { c with frame := c.frame + 1,
           offset :=
             if c.frame + 1 = 0 then (c.offset + 2 ^ 32 % Config.framesPerDay c.rate) % Config.framesPerDay c.rate
             else c.offset }

/-- The offset under which the running frame count `n` reads the timecode `tc` (R26, R27). -/
def offsetFor (rate : Fin 5) (tc : Nat) (n : W32) : Nat := subMod tc n.toNat (Config.framesPerDay rate)

/-- A timecode carried over to a new rate (R26): the same time of day. -/
def convertTimecode (old new : Fin 5) (c : Nat) : Nat := c * Config.framesPerSecond new / Config.framesPerSecond old

/-- A pending rate takes effect on a frame already counted (R26; log 19). -/
def changeRate (c : Clock) : Clock :=
  match c.pendingRate with
  | none => c
  | some r =>
    { c with rate := r, pendingRate := none,
             offset := offsetFor r (convertTimecode c.rate r (c.timecodeAt c.frame)) c.frame }

/-- The clock's part of a FRAME TICK: the count, the wrap, the pending rate (R16 to R18, R26). -/
def openFrame (c : Clock) : Clock := c.countFrame.changeRate

/-- Whether the frame tick that opens a frame ends a day (R19): the ended frame read D - 1 under its own rate, and the
opening frame reads 0. -/
def midnightDue (c : Clock) : Bool :=
  decide (c.timecodeAt c.frame = Config.framesPerDay c.rate - 1)
    && decide (c.openFrame.timecodeAt c.openFrame.frame = 0)

/-- Whether the running frame count passes from 4 294 967 295 to 0 at the next frame tick (R18). -/
def wrapDue (c : Clock) : Bool := decide (c.frame + 1 = 0)

/-- After the tick: the position advances (R16) and the interval count rises (R21). -/
def advance (c : Clock) : Clock :=
  { c with pos := if c.pos + 1 < Config.ticksPerFrame c.rate then c.pos + 1 else 0,
           interval := holdInc Config.hold16 c.interval }

/-! ## The reference -/

/-- A count of ticks in step with `n` frames: within 2 ticks either way (2.3). -/
def inStep (c : Clock) (n : Nat) : Bool :=
  decide (n * Config.ticksPerFrame c.rate ≤ c.interval + 2) && decide (c.interval ≤ n * Config.ticksPerFrame c.rate + 2)

/-- The reference is switched on (R21, R25): nothing changes unless the clock was FREE. -/
def referenceOn (c : Clock) : Clock :=
  if c.lock = .free then
    { c with lock := .seeking, run := 0, miss := 0, interval := Config.hold16, rejected := 0, mark := false }
  else c

/-- The reference is switched off (R21); nothing is steered any more (R20). -/
def referenceOff (c : Clock) : Clock := { c with lock := .free, steer := none }

/-- A rate named by SET_CLOCK or by the load (R25, R28): it becomes pending, or cancels a pending rate when it is the
rate in force. -/
def nameRate (r : Fin 5) (c : Clock) : Clock := { c with pendingRate := if r = c.rate then none else some r }

/-- Whether a pulse in SEEKING or HOLDOVER locks the clock (R22). -/
def locks (c : Clock) : Bool := decide (c.run = 1) && c.inStep 1

/-- A pulse that locks the clock (R22). -/
def lockOn (c : Clock) : Clock :=
  { c with run := 2, lock := .locked, interval := 0, miss := 0, mark := true, rejected := 0 }

/-- A pulse in SEEKING or HOLDOVER that does not lock it (R22). -/
def seekOn (c : Clock) : Clock :=
  { c with run := 1, interval := 0, rejected := if c.run = 1 then holdInc Config.hold16 c.rejected else c.rejected }

/-- A pulse while LOCKED (R23): accepted, as reference point and steering target, or rejected. -/
def judgeLocked (c : Clock) : Clock :=
  if c.inStep 1 || c.inStep 2 then { c with interval := 0, mark := true, steer := some c.pos }
  else { c with rejected := holdInc Config.hold16 c.rejected }

/-- Whether the reference is lost at this frame tick (R24). -/
def lossDue (c : Clock) : Bool := decide (c.lock = .locked) && !c.mark && decide (2 ≤ c.miss + 1)

end Clock

/-- A REF pulse (R21 to R23). -/
def refPulse (s : State) : State :=
  let c := s.clock
  match c.lock with
  | .free => s
  | .seeking | .holdover =>
    if c.locks then raise .refLocked 0 [b1 c.lock.code, b2 c.rejected] (s.modClock Clock.lockOn)
    else s.modClock Clock.seekOn
  | .locked => s.modClock Clock.judgeLocked

/-- The look at the frame just ended at a frame tick (R24). -/
def refLossTick (s : State) : State :=
  let c := s.clock
  if c.lock ≠ .locked then s
  else if c.mark then s.modClock fun c => { c with miss := 0, mark := false }
  else if c.lossDue then
    raise .refLost 0 [b2 c.rejected]
      (s.modClock fun c =>
        { c with miss := c.miss + 1, lock := .holdover, run := 0, rejected := 0, steer := none })
  else s.modClock fun c => { c with miss := c.miss + 1 }

end Sys2Proof.Machine
end

