-- ==== Sys2Proof/Machine/Pins.lean ====
section
/-! DEFINITION. The event pins: sampling and confirmation of MARK pins, level writes to LINE pins
(08_marks_and_the_clip_log.md, R132 to R135; 09_cue_timeline_and_output_lines.md, R161). -/

namespace Sys2Proof.Machine

/-- The window restarts or starts with floor(f / 2) ticks left (R133). -/
def Pin.window (P : Pin) : Nat := P.filter / 2

/-- The candidate of a MARK pin after items 1 and 2 of R133, for a tick that shows `level`. -/
def Pin.candidateAt (P : Pin) (level : Bool) (frame : W32) (tc : Nat) : Option Candidate :=
  match P.cand with
  | some c => some { c with left := if level ≠ P.last then P.window else c.left - 1 }
  | none => if level ≠ P.confirmed then some ⟨frame, tc, P.window⟩ else none

/-- Whether an edge to `level` has the polarity the pin is set to (R134). -/
def Edge.selects (e : Edge) (level : Bool) : Bool :=
  match e with
  | .rising => level
  | .falling => !level
  | .both => true

/-- What one sample does to a MARK pin, with the candidate whose edge it confirms in the selected polarity
(R133, R134). -/
def Pin.sampled (P : Pin) (level : Bool) (frame : W32) (tc : Nat) : Pin × Option Candidate :=
  match P.candidateAt level frame tc with
  | none => ({ P with cand := none, last := level }, none)
  | some c =>
    if 0 < c.left then ({ P with cand := some c, last := level }, none)
    else if level = P.confirmed then ({ P with cand := none, last := level, glitches := P.glitches + 1 }, none)
    else if P.edge.selects level then
      ({ P with cand := none, last := level, confirmed := level, edges := P.edges + 1 }, some c)
    else ({ P with cand := none, last := level, confirmed := level }, none)

/-- A MARK pin is sampled; a confirmed edge of the selected polarity hands the clip log a mark arrival
(R133 to R135). -/
def samplePin (p : Fin 12) (s : State) : State :=
  let P := s.pins.get p
  if P.fn ≠ .mark then s
  else
    let r := P.sampled (s.epIn.getLsbD p.val) s.clock.frame (timecode s)
    let s1 := s.modPin p fun _ => r.1
    match r.2 with
    | none => s1
    | some c => (markArrival P.action P.input P.label c.frame c.tc P.preroll (.pin p) s1).1

/-- Whether the confirmation test of a pin falls at this tick, were it sampled now (R133, R134). -/
def confirmDue (p : Fin 12) (levels : BitVec 12) (s : State) : Bool :=
  let P := s.pins.get p
  decide (P.fn = .mark) && (P.candidateAt (levels.getLsbD p.val) s.clock.frame (timecode s)).any fun c => c.left = 0

/-- What a level write does to a pin (R161). -/
def Pin.writeLevel (mask data : BitVec 12) (p : Fin 12) (P : Pin) : Pin :=
  if mask.getLsbD p.val = true ∧ P.fn = .line then { P with level := data.getLsbD p.val } else P

/-- A level write at one pin. -/
def levelWriteAt (mask data : BitVec 12) (p : Fin 12) (s : State) : State := s.modPin p (Pin.writeLevel mask data p)

/-- A level write at every pin. -/
def levelWrite (mask data : BitVec 12) (s : State) : State := forEach (List.finRange 12) (levelWriteAt mask data) s

/-- The pins that a level write reaches (R161). -/
def levelPins (mask : BitVec 12) (s : State) : List (Fin 12) :=
  (List.finRange 12).filter fun p => mask.getLsbD p.val && decide ((s.pins.get p).fn = .line)

/-- The confirmed and last sampled levels become the level shown (R131, R132). -/
def Pin.settle (level : Bool) (P : Pin) : Pin := { P with confirmed := level, last := level }

end Sys2Proof.Machine
end

