-- ==== Sys2Proof/Machine/Cues.lean ====
section
/-! DEFINITION. The cue timeline: reckoning, insertion, firing, rebasing
(09_cue_timeline_and_output_lines.md, R151 to R158). -/

namespace Sys2Proof.Machine

/-! ## Reckoning (R153) -/

/-- d: the frames from the current timecode ahead to a due timecode, in a day of the rate in force. -/
def cueDistance (due : Nat) (s : State) : Nat := subMod due (timecode s) (dayFrames s)

/-- Whether a due timecode is past: the current frame, or within the lookback window behind it. -/
def cuePast (due : Nat) (s : State) : Bool :=
  decide (cueDistance due s = 0)
    || decide (dayFrames s - Config.lookback s.clock.rate < cueDistance due s)

/-- The due frame of a timecode that lies ahead. -/
def cueDue (due : Nat) (s : State) : W32 := s.clock.frame + BitVec.ofNat 32 (cueDistance due s)

/-- Where an entry of due frame `due` goes in the table (R151, R153): before the first that is due after it. -/
def cuePosition (due : W32) (t : List Cue) : Nat := (t.takeWhile fun e => atOrBefore e.due due).length

/-- The table with an entry inserted. -/
def insertCue (e : Cue) (t : List Cue) : List Cue :=
  t.take (cuePosition e.due t) ++ e :: t.drop (cuePosition e.due t)

/-! ## Actions (R155) -/

/-- Why an action failed (Encodings). -/
inductive CueFail where
  | state | logFull | orphanOut | orphanLabel | full
deriving DecidableEq, Repr

def CueFail.code : CueFail → Nat
  | .state => 0 | .logFull => 1 | .orphanOut => 2 | .orphanLabel => 3 | .full => 4

/-- The kind number of an action (9.2). -/
def CueAct.kindNum : CueAct → Nat
  | .none => 0 | .switch _ => 1 | .fade _ _ _ => 2 | .lines _ _ => 3 | .clipIn _ => 4 | .clipOut _ => 5
  | .label _ _ => 6

/-- The failure that a mark arrival's outcome is to a cue (R140). -/
def MarkOutcome.cueFail : MarkOutcome → Option CueFail
  | .done _ | .present _ => Option.none
  | .labelDropped _ => some .full
  | .orphanOut => some .orphanOut
  | .orphanLabel => some .orphanLabel
  | .logFull => some .logFull

/-- A mark arrival made by a cue (R140, R155). -/
def cueMark (id : Nat) (action : MarkAction) (input : Fin 4) (k : W16) (s : State) : State × Option CueFail :=
  let r := markArrival action input k s.clock.frame (timecode s) 0 (.cue id) s
  (r.1, r.2.cueFail)

/-- FADE as the mixer takes it (R80). -/
def Tap.fade (target step : Nat) (t : Tap) : Tap := { t with target := target, step := if step = 0 then 1 else step }

/-- An action handed to the block that owns what it changes (R155). -/
def applyAct (id : Nat) (a : CueAct) (s : State) : State × Option CueFail :=
  match a with
  | .none => (s, Option.none)
  | .switch l =>
    if (s.lanes.get l).enabled then (s.modSel (Selector.request l), Option.none) else (s, some .state)
  | .fade t target step =>
    if (s.snd.taps.get t).enabled then
      (s.modSnd fun d => { d with taps := d.taps.modify t (Tap.fade target step) }, Option.none)
    else (s, some .state)
  | .lines mask data => (levelWrite mask data s, Option.none)
  | .clipIn i => cueMark id .markIn i 0 s
  | .clipOut i => cueMark id .markOut i 0 s
  | .label i k => cueMark id .label i k s

/-- One action slot of an entry (R154): a failure raises CUE_ACTION_FAILED at once. The list collects the failed
slots. -/
def applySlot (e : Cue) (i : Fin 4) (r : State × List Nat) : State × List Nat :=
  let a := e.acts.get i
  let t := applyAct e.id a r.1
  match t.2 with
  | Option.none => (t.1, r.2)
  | some f => (raise .cueActionFailed e.id [b1 i.val, b1 a.kindNum, b1 f.code] t.1, r.2 ++ [i.val])

/-- The four slots, in order; the state after them and the slots that failed. -/
def applySlots (e : Cue) (s : State) : State × List Nat :=
  (List.finRange 4).foldl (fun r i => applySlot e i r) (s, [])

/-! ## Firing (R154) -/

/-- The leading entry fires and leaves the table (R154). -/
def fireHead (s : State) : State :=
  match s.cues with
  | [] => s
  | e :: _ =>
    let r := applySlots e s
    raise .cueFired e.id [b4 e.dueTc, b4 e.due.toNat, b1 (setBits r.2), b1 e.late.toNat] (r.1.modCues List.tail)

/-- Whether the leading entry is due (R154). -/
def headDue (s : State) : Bool := (s.cues.head?.map fun e => atOrBefore e.due s.clock.frame).getD false

/-- The leading entry fires if it is due. -/
def fireNext (s : State) : State := if headDue s then fireHead s else s

/-- Every due entry fires, at most `k` (R154). -/
def fireDue : Nat → State → State
  | 0, s => s
  | k + 1, s => if headDue s then fireDue k (fireHead s) else s

/-! ## Rebasing (R158) -/

/-- Whether an entry comes out past at a rebasing. -/
def cueSkipped (e : Cue) (s : State) : Bool := decide (dayFrames s ≤ e.dueTc) || cuePast e.dueTc s

/-- The table rebased: skipped entries are reported and leave, the rest are put in order of their new due frames. -/
def rebase (s : State) : State :=
  let skipped := s.cues.filter fun e => cueSkipped e s
  let kept := (s.cues.filter fun e => !cueSkipped e s).map fun e => { e with due := cueDue e.dueTc s, late := false }
  (forEach skipped (fun e t => raise .cueSkipped e.id [b4 e.dueTc] t) s).modCues fun _ =>
    sortBy (fun e => dist s.clock.frame e.due) kept

end Sys2Proof.Machine
end

