-- ==== Sys2Proof/Machine/Ticks.lean ====
section
/-! DEFINITION. A tick of the station clock and the blocks' shares of it (R16; the rules each act cites), and the tick
events of the table, each with its occasion (logs 3 to 5). -/

namespace Sys2Proof.Machine

/-! ## The control block's, the selector's and the lanes' shares of a frame tick -/

/-- The GUARD notice of one function (R9), with the running frame count of the frame that has just ended. -/
def guardReport (n : Fin 16) (s : State) : State :=
  let g := s.aps.guards.get n
  if g.count = 0 then s
  else
    (raise .guard n.val [b2 g.count, b1 g.initiator.val, b5 g.offset, b4 (s.clock.frame - 1).toNat] s).modAps fun a =>
      { a with guards := a.guards.modify n fun g => { g with count := 0 } }

/-- The guard tallies in function-number order (R9). -/
def guardTick (s : State) : State := forEach (List.finRange 16) guardReport s

/-- The on-air counter of the programme lane (R67). -/
def onAirTick (s : State) : State :=
  match s.sel.programme with
  | none => s
  | some l => s.modSel fun sel => { sel with onAir := sel.onAir.modify l (· + 1) }

/-- The status block (R181), while STATUS is SET. -/
def statusTick (s : State) : State :=
  match ap .status s with
  | none => s
  | some a => pushAll byControl (blockWrites a.base (statusBlock s)) s

/-- Rows last frame takes rows this frame (R40). -/
def Lane.rollRows (L : Lane) : Lane := { L with rowsLast := L.rowsThis, rowsThis := 0 }

/-! ## Acts -/

/-- What the opening of a frame leaves for the acts: whether MIDNIGHT is due (R19) and whether a rate change took effect
(R26, R158). -/
structure Opening where
  midnight : Bool
  rateChanged : Bool
deriving DecidableEq, Repr

/-- One block's share of a tick. -/
def runAct (o : Opening) (a : TickAct) (s : State) : State :=
  match a with
  | .guards => guardTick s
  | .midnight => if o.midnight then raise .midnight 0 [b1 s.clock.rate.val] s else s
  | .refLoss => refLossTick s
  | .stall p => stallTick p s
  | .onAir => onAirTick s
  | .tallies => addTallies s
  | .cueNext => fireNext s
  | .cues => if o.rateChanged then rebase (fireDue s.cues.length s) else fireDue s.cues.length s
  | .mixer => mixerTick s.clock.pos (decide (s.clock.pos = 0)) s
  | .pin p => samplePin p s
  | .status => statusTick s

/-- The acts of every tick. -/
def sampleActs : List TickAct := .mixer :: (List.finRange 12).map .pin

/-- The acts of a frame tick, in the order taken unless the command names another. -/
def frameActs : List TickAct :=
  [.guards, .midnight, .refLoss, .stall 0, .stall 1, .onAir, .tallies, .cues] ++ sampleActs ++ [.status]

/-- The acts of a tick: at a frame tick all of them, else those of every tick. -/
def actsOf (opening : Bool) : List TickAct := if opening then frameActs else sampleActs

/-- The acts that an order names, each at its first place; `cueNext` may stand more than once, at a frame tick. -/
def namedActs (opening : Bool) : List TickAct → List TickAct → List TickAct
  | done, [] => done
  | done, a :: rest =>
    if (a = .cueNext ∧ opening = true) ∨ (a ∈ actsOf opening ∧ a ∉ done) then namedActs opening (done ++ [a]) rest
    else namedActs opening done rest

/-- The acts of a tick in the order taken: those the command names, then the others (log 4). -/
def schedule (opening : Bool) (order : List TickAct) : List TickAct :=
  let named := namedActs opening [] order
  named ++ (actsOf opening).filter fun a => a ∉ named

/-- What the opening of the next frame leaves for the acts. -/
def openingOf (s : State) : Opening :=
  if s.clock.pos = 0 then ⟨s.clock.midnightDue, s.clock.pendingRate.isSome⟩ else ⟨false, false⟩

/-- The opening of a frame (R16 to R18, R26, R40), at position 0. -/
def openFrame (s : State) : State :=
  if s.clock.pos = 0 then (s.modClock Clock.openFrame).modLanes Lane.rollRows else s

/-- A SAMPLE TICK, which at position 0 is a FRAME TICK (R16). -/
def tick (t : TickIn) (s : State) : State :=
  let opening := decide (s.clock.pos = 0)
  (forEach (schedule opening t.order) (runAct (openingOf s)) (openFrame (s.setLevels t.levels))).modClock Clock.advance

/-! ## Occasions -/

/-- The next tick is a frame tick (R16). -/
def frameTickDue (s : State) : Bool := decide (s.clock.pos = 0)

/-- Input `i` falls silent at the next tick (R77). -/
def silentDue (i : Fin 4) (s : State) : Bool :=
  let x := s.snd.inputs.get i
  x.enabled && !x.fresh && !x.silent && decide (8 ≤ x.starve + 1)

/-- A sound unit reaches its boundary at the next tick (R89). -/
def unitCloseDue (s : State) : Bool :=
  decide ((s.clock.pos + 1) % 40 = 0) && (s.snd.current s.clock.pos 0 0).isSome

/-- Path `p` stalls at the next tick (R100). -/
def stallDue (p : Fin 2) (s : State) : Bool :=
  let P := s.home.paths.get p
  frameTickDue s && decide (P.state = .running) && decide (P.inUse ≠ 0) && decide (P.limit ≤ P.stall + 1)

/-- A cue fires at the next tick (R154). -/
def cueDueNext (s : State) : Bool :=
  frameTickDue s && (s.cues.head?.map fun e => atOrBefore e.due (s.clock.frame + 1)).getD false

/-- The tick, when its occasion is given (log 5); otherwise nothing happens (log 3). -/
def tickWhen (occasion : Bool) (t : TickIn) (s : State) : State := if occasion then tick t s else s

/-! ## The tick events of the table -/

/-- SAMPLE_TICK (R16). -/
def execSampleTick (t : TickIn) (s : State) : Host.Outcome State Fault Refusal := .next (tick t s)

/-- FRAME_TICK (R17). -/
def execFrameTick (t : TickIn) (s : State) : Host.Outcome State Fault Refusal :=
  .next (tickWhen (frameTickDue s) t s)

/-- FRAME_COUNT_WRAP (R18). -/
def execFrameCountWrap (t : TickIn) (s : State) : Host.Outcome State Fault Refusal :=
  .next (tickWhen (frameTickDue s && s.clock.wrapDue) t s)

/-- MIDNIGHT (R19). -/
def execMidnight (t : TickIn) (s : State) : Host.Outcome State Fault Refusal :=
  .next (tickWhen (frameTickDue s && s.clock.midnightDue) t s)

/-- REF_LOST (R24). -/
def execRefLost (t : TickIn) (s : State) : Host.Outcome State Fault Refusal :=
  .next (tickWhen (frameTickDue s && s.clock.lossDue) t s)

/-- SOUND_SILENT (R77). -/
def execSoundSilent (i : Fin 4) (t : TickIn) (s : State) : Host.Outcome State Fault Refusal :=
  .next (tickWhen (silentDue i s) t s)

/-- SOUND_UNIT_CLOSE (R89). -/
def execSoundUnitClose (t : TickIn) (s : State) : Host.Outcome State Fault Refusal :=
  .next (tickWhen (unitCloseDue s) t s)

/-- MARK_CONFIRM (R134). -/
def execMarkConfirm (p : Fin 12) (t : TickIn) (s : State) : Host.Outcome State Fault Refusal :=
  .next (tickWhen (confirmDue p t.levels s) t s)

/-- STALL (R100). -/
def execStall (p : Fin 2) (t : TickIn) (s : State) : Host.Outcome State Fault Refusal :=
  .next (tickWhen (stallDue p s) t s)

/-- CUE_FIRING (R154). -/
def execCueFiring (t : TickIn) (s : State) : Host.Outcome State Fault Refusal :=
  .next (tickWhen (cueDueNext s) t s)

/-- REF_PULSE (R22, R23). -/
def execRefPulse (s : State) : Host.Outcome State Fault Refusal := .next (refPulse s)

end Sys2Proof.Machine
end

