-- ==== Sys2Proof/Machine/Control.lean ====
section
/-! DEFINITION. The control block: a command carried out and answered, the moves of NOTICES and LOG, the header, the
start-up loader (11_control_records_and_start_up.md, R172 to R178; 01, R6, R7). -/

namespace Sys2Proof.Machine

/-! ## Carrying out a command (R175) -/

/-- The address of slot `n`'s go word. -/
def goWordAddr (n : Fin 16) (s : State) : Nat := apBase .commands s + 64 + 64 * n.val + 56

/-- The end of a command (R175): the entry leaves the queue, the slot's mark is cleared, and the result write is placed
in the control block's hold. -/
def finish (c : Command) (r : State × Result) : State :=
  push byControl (writeEntry (goWordAddr c.slot r.1) (goWord c.code r.2))
    (r.1.modCtl fun k => { k with queue := k.queue.tail, marks := k.marks.set c.slot false })

/-- The command at the head of the command queue carried out by `f`, when its code satisfies `p`; otherwise nothing
happens (log 3). -/
def carryOut (p : Nat → Bool) (f : Command → State → State × Result) (s : State) : State :=
  match s.ctl.queue with
  | [] => s
  | c :: _ => if p c.code then finish c (f c s) else s

/-- The commands of one code (11.2). -/
def codeIs (n : Nat) : Nat → Bool := fun m => decide (m = n)

/-- A refused command changes nothing. -/
def refuse (r : Reason) (detail : Nat) (s : State) : State × Result := (s, .refused r detail)

/-! ## NOTICES and LOG set, moved and cleared (R6, R7) -/

/-- The notices not yet released are lost, and both counts become 0 (R6, R7, R180). -/
def dropNotices (s : State) : State :=
  s.modCtl fun c =>
    Control.settleAttn
      { Control.lose (c.written - c.released) c with written := 0, released := 0, unreleased := [] }

/-- The notice ring restarts empty in a new aperture (R6). -/
def restartNotices (base : Nat) (s : State) : State :=
  push byControl (writeEntry base (le 8 0)) (dropNotices s)

/-- The rewrite of all 256 clip records into a new aperture, their revisions unchanged (R6). -/
def rewriteLog (base : Nat) (s : State) : State :=
  pushAll byControl
    (allRecs.map fun i => writeEntry (base + 64 * i.val) (clipRecord (s.log.recs.get i))) s

/-! ## The start-up load (R172, R173) -/

/-- Clock defaults of the load (R28): the rate is named unless it is above 4, and the reference setting applied. -/
def loadClock (data : Nat) (s : State) : State :=
  let s1 :=
    match asFin 5 (data % 256) with
    | some r => s.modClock (Clock.nameRate r)
    | none => s
  s1.modClock (if data / 256 % 256 = 0 then Clock.referenceOff else Clock.referenceOn)

/-- The function that the load gives a pin by its two bits (R172). -/
def pinFnOf (bits : Nat) : PinFn :=
  match bits with
  | 1 => .mark
  | 2 => .line
  | _ => .unused

/-- The function that the load gives pin `p` (R172). -/
def loadPin (data : Nat) (p : Fin 12) (s : State) : State :=
  s.modPin p fun P => { P with fn := pinFnOf (data / 4 ^ p.val % 4) }

/-- The event pin functions of the load (R172). -/
def loadPins (data : Nat) (s : State) : State := forEach (List.finRange 12) (loadPin data) s

/-- The tags of the entries that are applied (R172). -/
def knownTag (tag : Nat) : Bool := decide (1 ≤ tag) && decide (tag ≤ 5)

/-- The COMMANDS base with bits 12 to 31 replaced (tag 0x01). -/
def loadBaseLow (data : Nat) (c : Control) : Control :=
  { c with cmdBase := c.cmdBase / 2 ^ 32 * 2 ^ 32 + data % 2 ^ 20 * 4096 }

/-- The COMMANDS base with bits 32 to 39 replaced (tag 0x02). -/
def loadBaseHigh (data : Nat) (c : Control) : Control :=
  { c with cmdBase := data % 256 * 2 ^ 32 + c.cmdBase % 2 ^ 32 }

/-- The control initiator (tag 0x05). -/
def loadInitiator (data : Nat) (c : Control) : Control :=
  { c with controlInit := ⟨data % 16, Nat.mod_lt _ (by decide)⟩ }

/-- The effect of an entry's data by its tag (R172). -/
def applyEntry (tag data : Nat) (s : State) : State :=
  match tag with
  | 1 => s.modCtl (loadBaseLow data)
  | 2 => s.modCtl (loadBaseHigh data)
  | 3 => loadClock data s
  | 4 => loadPins data s
  | 5 => s.modCtl (loadInitiator data)
  | _ => s

/-- A MARK pin set by the load takes the level it shows as confirmed and last sampled (R131; log 21). -/
def settleMarkPin (levels : BitVec 12) (p : Fin 12) (s : State) : State :=
  s.modPin p fun P => if P.fn = .mark then P.settle (levels.getLsbD p.val) else P

/-- The end of the load (R131, R173): COMMANDS becomes SET, the pins settle, and the header is written with the cause
POWER_ON (log 12). -/
def endLoad (result : LoadResult) (err : Nat) (levels : BitVec 12) (s : State) : State :=
  let s1 := s.modCtl fun c => { c with loader := .ended, loadResult := result, loadErr := err }
  let s2 := s1.modAps fun a => { a with map := a.map.set Fn.commands.num (some ⟨s1.ctl.cmdBase, 4096⟩) }
  let s3 := forEach (List.finRange 12) (settleMarkPin levels) s2
  push byControl (writeEntry s3.ctl.cmdBase (headerRecord { s3.ctl with cause := .powerOn })) s3

/-- Whether a tag is above the one before it (R172). -/
def tagRises (tag : Nat) (last : Option Nat) : Bool := (last.map fun l => decide (l < tag)).getD true

/-- Entry `i` of the configuration memory, read after an entry of tag `last` (R172). -/
def loadEntry (i : Nat) (last : Option Nat) (entry : Option (BitVec 64)) (levels : BitVec 12) (s : State) : State :=
  match entry with
  | none => if i = 0 then endLoad .absent 0 levels s else endLoad .error i levels s
  | some e =>
    let tag := e.toNat % 256
    let padding := e.toNat / 256 % 2 ^ 24
    let data := e.toNat / 2 ^ 32
    if padding ≠ 0 ∨ tagRises tag last = false then endLoad .error i levels s
    else if tag = 255 then endLoad .ok 0 levels s
    else if knownTag tag = false then endLoad .error i levels s
    else
      let s1 := (applyEntry tag data s).modCtl fun c =>
        { c with applied := c.applied + 1, loader := .reading (i + 1) (some tag) }
      if i + 1 < 32 then s1 else endLoad .error 32 levels s1

end Sys2Proof.Machine
end

