-- ==== Sys2Proof/Machine/Settings.lean ====
section
/-! DEFINITION. The host commands that write settings: SET_APERTURE to SET_LINE_LEVELS, and SET_NOTICES. Each is the
effect of the command with its result (R175), from the queued copy of the slot body (R184). -/

namespace Sys2Proof.Machine

/-! ## SET_APERTURE, CLEAR_APERTURE (R5 to R7) -/

/-- A range of an aperture that can be SET for a function (R4, R5): check 3. -/
def sizeOk (f : Fn) (base size : Nat) : Bool :=
  decide (size % 4096 = 0) && decide (f.minSize ≤ size) && decide (size ≤ 2 ^ 36) && decide (base + size ≤ 2 ^ 40)

/-- The geometry check of R31: a PICTURE aperture holds the slot region of a present geometry. -/
def geometryOk (f : Fn) (size : Nat) (s : State) : Bool :=
  match f with
  | .picture i => (s.lanes.get i).geom.all fun g => decide (g.region ≤ size)
  | .commands | .sound _ | .path _ | .store | .log | .notices | .status | .monitor => true

/-- Whether a range intersects an aperture. -/
def Aperture.meets (a : Aperture) (base size : Nat) : Bool :=
  decide (base < a.base + a.size) && decide (a.base < base + size)

/-- The lowest-numbered other function whose SET entry a range intersects (R5). -/
def overlapping (f : Fn) (base size : Nat) (s : State) : Option Fn :=
  allFns.find? fun g => decide (g ≠ f) && (ap g s).any fun a => a.meets base size

/-- A map entry replaced. -/
def setEntry (f : Fn) (e : Option Aperture) (s : State) : State :=
  s.modAps fun a => { a with map := a.map.set f.num e }

/-- The block that owns a movable function's writes (R6), none for the other functions. -/
def ownerOf (f : Fn) : Option (Fin 6) :=
  match f with
  | .log | .notices | .status => some byControl
  | .monitor => some byMixer
  | .commands | .picture _ | .sound _ | .path _ | .store => none

/-- Whether an entry writes into an aperture's range. -/
def InsEntry.aimedAt (a : Aperture) (e : InsEntry) : Bool :=
  match e.op with
  | .write x _ => a.has x
  | .read _ _ => false

/-- A movable function that is SET leaves its old range (R6): the part does not write there again beyond the entries
already in the insert queue, so those its owner still holds for the range are dropped. R12 lets a hold keep every
entry; R6 is followed at a move and R12 at a clear (log 42). -/
def leaveRange (f : Fn) (s : State) : State :=
  match ownerOf f, ap f s with
  | some b, some a => s.modIns fun q => { q with holds := q.holds.modify b (·.filter fun e => !e.aimedAt a) }
  | _, _ => s

/-- What the owner of a movable function does when its aperture is SET (R6). -/
def restartOwner (f : Fn) (base : Nat) (s : State) : State :=
  match f with
  | .log => rewriteLog base s
  | .notices => restartNotices base s
  | .monitor => s.modSnd fun d => { d with monPos := 0 }
  | .commands | .picture _ | .sound _ | .path _ | .store | .status => s

/-- SET_APERTURE for a function that may be named (R5, checks 2 to 6). -/
def setApertureOf (f : Fn) (base size : Nat) (s : State) : State × Result :=
  if base % 4096 ≠ 0 then refuse .badField 2 s
  else if sizeOk f base size = false then refuse .badField 3 s
  else if geometryOk f size s = false then refuse .badField 3 s
  else if f.running s then refuse .active 0 s
  else
    match overlapping f base size s with
    | some g => refuse .overlap g.num.val s
    | none => (restartOwner f base (setEntry f (some ⟨base, size⟩) (leaveRange f s)), .done 0)

/-- The function a field names, when it may be named by SET_APERTURE or CLEAR_APERTURE (R5, R7). -/
def namedFn (v : Nat) : Option Fn :=
  match asFin 16 v with
  | some n => if n = 0 then none else some (Fn.ofNum n)
  | none => none

/-- SET_APERTURE (R5). -/
def setAperture (c : Command) (s : State) : State × Result :=
  match namedFn (c.word 0) with
  | none => refuse .badField 1 s
  | some f => setApertureOf f (c.field 8 8) (c.field 16 8) s

/-- CLEAR_APERTURE (R7); entries in the holds stay there and keep their addresses (R12; log 42). -/
def clearAperture (c : Command) (s : State) : State × Result :=
  match namedFn (c.word 0) with
  | none => refuse .badField 1 s
  | some f =>
    if f.running s then refuse .active 0 s
    else if (ap f s).isNone then (s, .done 0)
    else
      let s1 := setEntry f none s
      (if f = .notices then dropNotices s1 else s1, .done 0)

/-! ## SET_CLOCK, PRESET_TIMECODE (R25, R27) -/

/-- SET_CLOCK (R25). -/
def setClock (c : Command) (s : State) : State × Result :=
  match asFin 5 (c.word 0), asFin 2 (c.word 1) with
  | none, _ => refuse .badField 1 s
  | some _, none => refuse .badField 2 s
  | some r, some ref =>
    if s.lanes.items.any Lane.enabled then refuse .active 1 s
    else if s.snd.inputs.items.any SoundInput.enabled then refuse .active 2 s
    else if s.home.paths.items.any HomePath.enabled then refuse .active 3 s
    else if s.store.state ≠ .off then refuse .active 4 s
    else
      ((s.modClock (if ref = 1 then Clock.referenceOn else Clock.referenceOff)).modClock (Clock.nameRate r), .done 0)

/-- PRESET_TIMECODE (R27, R158). -/
def presetTimecode (c : Command) (s : State) : State × Result :=
  let tc := c.word 0
  if dayFrames s ≤ tc then refuse .badField 1 s
  else (rebase (s.modClock fun k => { k with offset := Clock.offsetFor k.rate tc k.frame }), .done 0)

/-! ## SET_PICTURE (R30) -/

/-- SET_PICTURE (R30). -/
def setPicture (c : Command) (s : State) : State × Result :=
  let w := c.word 1
  let lines := c.word 2
  let slots := c.word 3
  match asFin 4 (c.word 0) with
  | none => refuse .badField 1 s
  | some i =>
    let g : Geometry := ⟨w, lines, slots⟩
    if w < 16 ∨ 7680 < w ∨ w % 4 ≠ 0 then refuse .badField 2 s
    else if lines < 1 ∨ 2160 < lines then refuse .badField 3 s
    else if slots < 1 ∨ 8 < slots then refuse .badField 4 s
    else if (s.lanes.get i).enabled then refuse .active 0 s
    else if (ap (.picture i) s).any fun a => decide (a.size < g.region) then refuse .badField 5 s
    else (s.modLane i fun L => { L with geom := some g }, .done 0)

/-! ## SET_LANE (R57 to R61) -/

/-- The settings of SET_LANE as named. -/
structure LaneSettings where
  target : Nat
  bound : Nat
  span : Nat
  qFloor : Nat
  kbase : Nat
  record : Bool
deriving DecidableEq, Repr

/-- The numeric settings brought into their ranges (R57). -/
def LaneSettings.clamped (x : LaneSettings) : LaneSettings where
  target := clampNat x.target 64 1048575
  bound := clampNat x.bound 1024 16777215
  span := clampNat x.span 16 1048575
  qFloor := min x.qFloor 5
  kbase := min x.kbase 7
  record := x.record

/-- Which fields clamping changed: T, B, S, q_floor, kbase (R57). -/
def LaneSettings.changed (x : LaneSettings) : List Bool :=
  let y := x.clamped
  [decide (y.target ≠ x.target), decide (y.bound ≠ x.bound), decide (y.span ≠ x.span),
    decide (y.qFloor ≠ x.qFloor), decide (y.kbase ≠ x.kbase)]

/-- The settings written (R57). -/
def Lane.write (x : LaneSettings) (L : Lane) : Lane :=
  { L with target := x.target, bound := x.bound, span := x.span, qFloor := x.qFloor, kbase := x.kbase,
           record := x.record }

/-- The rate state set afresh at an enable (R58). -/
def Lane.enable (L : Lane) : Lane := { L with fullness := 0, q := L.qFloor, intake := .waiting }

/-- The rate state brought into new settings (R59). -/
def Lane.retune (L : Lane) : Lane :=
  { L with fullness := clampInt L.fullness (-(L.bound : Int)) L.bound, q := clampNat L.q L.qFloor 5 }

/-- A SET_LANE that passes its checks (R58 to R61). -/
def writeLane (l : Fin 4) (enable : Bool) (x : LaneSettings) (s : State) : State :=
  let L := s.lanes.get l
  if L.enabled = false then
    if enable then s.modLane l fun L => (L.write x).enable else s.modLane l (Lane.write x)
  else if enable then
    let s1 := s.modLane l fun L => (L.write x).retune
    if L.record = true ∧ x.record = false then stopRecording l s1 else s1
  else
    let s1 := s.modLane l fun L => { L.write x with intake := .disabled }
    dropFromSelector l (if L.record then stopRecording l s1 else s1)

/-- SET_LANE (R57). -/
def setLane (c : Command) (s : State) : State × Result :=
  match asFin 4 (c.word 0), asFin 2 (c.word 1), asFin 2 (c.word 7) with
  | none, _, _ => refuse .badField 1 s
  | some _, none, _ => refuse .badField 2 s
  | some _, some _, none => refuse .badField 3 s
  | some l, some enable, some record =>
    let L := s.lanes.get l
    let x : LaneSettings := ⟨c.word 2, c.word 3, c.word 4, c.word 5, c.word 6, decide (record = 1)⟩
    if enable = 1 ∧ L.enabled = false ∧ L.geom.isNone then refuse .state 1 s
    else if enable = 1 ∧ L.enabled = false ∧ (ap (.picture l) s).isNone then refuse .state 2 s
    else (writeLane l (decide (enable = 1)) x.clamped s, clampedResult x.changed)

/-! ## SET_PROGRAM (R63) -/

/-- SET_PROGRAM (R63). -/
def setProgram (c : Command) (s : State) : State × Result :=
  match asFin 4 (c.word 0) with
  | none => refuse .badField 1 s
  | some l =>
    if (s.lanes.get l).enabled then (s.modSel (Selector.request l), .done 0) else refuse .state 1 s

/-! ## SET_SOUND, SET_TAP, SET_BUS (R71, R72, R79, R87, R91) -/

/-- A new channel count empties the slot (R72). -/
def SoundInput.rechannel (channels : Nat) (i : SoundInput) : SoundInput :=
  if i.channels = channels then i
  else { i with channels := channels, slot := List.replicate channels 0, fresh := false, invalid := false }

/-- A SET_SOUND that passes its checks (R72). -/
def SoundInput.write (channels : Nat) (enable : Bool) (i : SoundInput) : SoundInput :=
  if i.enabled = false then
    if enable then
      { i.rechannel channels with intake := .seeking, silent := true, starve := 8, fresh := false }
    else i.rechannel channels
  else if enable then i
  else { i with intake := .disabled }.rechannel channels

/-- SET_SOUND (R71). -/
def setSound (c : Command) (s : State) : State × Result :=
  let channels := c.word 1
  match asFin 4 (c.word 0), asFin 2 (c.word 2) with
  | none, _ => refuse .badField 1 s
  | some i, enable =>
    let x := s.snd.inputs.get i
    if channels = 0 ∨ 16 < channels then refuse .badField 2 s
    else
      match enable with
      | none => refuse .badField 3 s
      | some e =>
        if x.enabled = true ∧ e = 1 ∧ channels ≠ x.channels then refuse .active 0 s
        else if x.enabled = false ∧ e = 1 ∧ (ap (.sound i) s).isNone then refuse .state 0 s
        else (s.modInput i (SoundInput.write channels (decide (e = 1))), .done 0)

/-- SET_TAP (R79). -/
def setTap (c : Command) (s : State) : State × Result :=
  let step := c.low16 7
  match asFin 128 (c.word 0), asFin 2 (c.word 1), asFin 4 (c.word 2), asFin 16 (c.word 3), asFin 8 (c.word 4) with
  | none, _, _, _, _ => refuse .badField 1 s
  | some _, none, _, _, _ => refuse .badField 2 s
  | some _, some _, none, _, _ => refuse .badField 3 s
  | some _, some _, some _, none, _ => refuse .badField 4 s
  | some _, some _, some _, some _, none => refuse .badField 5 s
  | some t, some e, some i, some ch, some b =>
    let tap : Tap := ⟨decide (e = 1), i, ch, b, c.low16 5, c.low16 6, if step = 0 then 1 else step⟩
    (s.modSnd fun d => { d with taps := d.taps.set t tap }, if step = 0 then .doneClamped 0 else .done 0)

/-- The flags of a bus replaced (R87); a change of the sent mask closes an open sound unit (R91). -/
def writeBus (b : Fin 8) (mute sent monitor : Bool) (s : State) : State :=
  let s1 := s.modBus b fun B => { B with mute := mute, sent := sent, monitor := monitor }
  match s1.snd.acc with
  | none => s1
  | some a => if s1.snd.sentMask = s.snd.sentMask then s1 else closeUnit a true s1

/-- SET_BUS (R87). -/
def setBus (c : Command) (s : State) : State × Result :=
  match asFin 8 (c.word 0), asFin 2 (c.word 1), asFin 2 (c.word 2), asFin 2 (c.word 3) with
  | none, _, _, _ => refuse .badField 1 s
  | some _, none, _, _ => refuse .badField 2 s
  | some _, some _, none, _ => refuse .badField 3 s
  | some _, some _, some _, none => refuse .badField 4 s
  | some b, some mute, some sent, some monitor =>
    (writeBus b (decide (mute = 1)) (decide (sent = 1)) (decide (monitor = 1)) s, .done 0)

/-! ## SET_PATH, SET_ROUTE (R97 to R99, R110) -/

/-- The settings of SET_PATH as named. -/
structure PathSettings where
  consumer : Fin 16
  high : Nat
  low : Nat
  ceiling : Nat
  limit : Nat
deriving DecidableEq, Repr

/-- The numeric settings brought into range against a ring of `n` cells (R97). -/
def PathSettings.clamped (n : Nat) (x : PathSettings) : PathSettings :=
  let high := clampNat x.high 1 n
  { consumer := x.consumer, high := high, low := if high ≤ x.low then high - 1 else x.low,
    ceiling := min x.ceiling n, limit := clampNat x.limit 1 250 }

/-- Which fields clamping changed: H, L, Y, stall limit (R97). -/
def PathSettings.changed (n : Nat) (x : PathSettings) : List Bool :=
  let y := x.clamped n
  [decide (y.high ≠ x.high), decide (y.low ≠ x.low), decide (y.ceiling ≠ x.ceiling), decide (y.limit ≠ x.limit)]

/-- The settings written (R98). -/
def HomePath.write (x : PathSettings) (P : HomePath) : HomePath :=
  { P with consumer := x.consumer, high := x.high, low := x.low, ceiling := x.ceiling, limit := x.limit }

/-- A new ring life: everything in the ring goes, every shed run is 0, the epoch rises, the state is RUNNING
(R98, R115). -/
def HomePath.newLife (P : HomePath) : HomePath :=
  { P.emptied with state := .running, shedRuns := Table.fill 5 0, epoch := P.epoch + 1 }

/-- A path enabled (R98). -/
def enablePath (p : Fin 2) (x : PathSettings) (s : State) : State :=
  ringHeaderWrite p 0 .nothing (s.modPath p fun P => (P.write x).newLife)

/-- A path disabled (R99; log 35). -/
def disablePath (p : Fin 2) (s : State) : State :=
  let s1 := (dropHold (byPath p) s).modPath p fun P => { P.emptied with state := .off }
  ringHeaderWrite p 0 .nothing (endEntries .pathOff false (fun e => decide (e.path = p)) s1)

/-- A SET_PATH that passes its checks (R98, R99). -/
def writePath (p : Fin 2) (enable : Bool) (x : PathSettings) (s : State) : State :=
  if (s.home.paths.get p).state = .off then
    if enable then enablePath p x s else s.modPath p (HomePath.write x)
  else if enable then reexamine p (s.modPath p (HomePath.write x))
  else disablePath p s

/-- SET_PATH (R97). -/
def setPath (c : Command) (s : State) : State × Result :=
  match asFin 2 (c.word 0), asFin 2 (c.word 1), asFin 16 (c.word 2) with
  | none, _, _ => refuse .badField 1 s
  | some _, none, _ => refuse .badField 2 s
  | some _, some _, none => refuse .badField 3 s
  | some p, some enable, some consumer =>
    if (ap (.path p) s).isNone then refuse .state 0 s
    else
      let x : PathSettings := ⟨consumer, c.word 3, c.word 4, c.word 5, c.word 6⟩
      (writePath p (decide (enable = 1)) (x.clamped (pathCells p s)) s, clampedResult (x.changed (pathCells p s)))

/-- The route of a number (R110). -/
def routeOf (v : Nat) : Option Route :=
  match v with
  | 0 => some .a
  | 1 => some .b
  | 2 => some .both
  | 3 => some .aThenB
  | _ => none

/-- SET_ROUTE (R110). -/
def setRoute (c : Command) (s : State) : State × Result :=
  match routeOf (c.word 0) with
  | none => refuse .badField 1 s
  | some r => (s.modHome fun h => { h with route := r }, .done 0)

/-! ## SET_STORE (R118, R119) -/

/-- The store enabled (R118). -/
def enableStore (s : State) : State :=
  storeHeaderWrite (s.modStore fun st =>
    { st with state := .running, head := 0, nextSeq := 0, retained := [], index := Table.fill 4 [],
              gapRuns := Table.fill 5 0, openMark := Table.fill 4 false, epoch := st.epoch + 1 })

/-- The store disabled (R119). -/
def disableStore (s : State) : State :=
  let s1 := loseAll (endEntries .storeOff true (fun _ => true) (dropHold byStore s))
  storeHeaderWrite (s1.modStore fun st => { st with state := .off, retained := [], index := Table.fill 4 [] })

/-- SET_STORE (R118). -/
def setStore (c : Command) (s : State) : State × Result :=
  match asFin 2 (c.word 0) with
  | none => refuse .badField 1 s
  | some e =>
    if s.store.state = .off then
      if e = 1 then
        if (ap .store s).isNone then refuse .state 0 s else (enableStore s, .done 0)
      else (s, .done 0)
    else if e = 1 then (s, .done 0)
    else (disableStore s, .done 0)

/-! ## SET_PIN, SET_LINE_LEVELS (R132, R159, R161) -/

/-- The edge of a number (R132). -/
def edgeOf (v : Nat) : Option Edge :=
  match v with
  | 0 => some .rising
  | 1 => some .falling
  | 2 => some .both
  | _ => none

/-- The mark action of a number (R132, R140). -/
def markActionOf (v : Nat) : Option MarkAction :=
  match v with
  | 0 => some .markIn
  | 1 => some .markOut
  | 2 => some .toggle
  | 3 => some .label
  | _ => none

/-- The line mode of a number (R159). -/
def lineModeOf (v : Nat) : Option LineMode :=
  match v with
  | 0 => some .level
  | 1 => some .tally
  | 2 => some .blink
  | _ => none

/-- SET_PIN naming MARK (R132); `shown` is the level the pin shows. -/
def setPinMark (p : Fin 12) (shown : Bool) (c : Command) (s : State) : State × Result :=
  let code := c.low16 6
  let preroll := c.word 7
  match edgeOf (c.word 2), markActionOf (c.word 4), asFin 4 (c.word 5) with
  | none, _, _ => refuse .badField 3 s
  | some _, none, _ => refuse .badField 4 s
  | some _, some _, none => refuse .badField 5 s
  | some edge, some action, some input =>
    if action = .label ∧ code = 0 then refuse .badField 6 s
    else
      (s.modPin p fun P =>
          { P with fn := .mark, edge := edge, filter := c.word 3 % 256, action := action, input := input,
                   label := BitVec.ofNat 16 code, preroll := min preroll 250, cand := none }.settle shown,
        if 250 < preroll then .doneClamped 0 else .done 0)

/-- SET_PIN naming LINE (R132, R159); a tally input that is not named for TALLY and is no input leaves the one held
(log 37). -/
def setPinLine (p : Fin 12) (c : Command) (s : State) : State × Result :=
  match lineModeOf (c.word 8), asFin 4 (c.word 9) with
  | none, _ => refuse .badField 7 s
  | some mode, tally =>
    let period := clampNat (c.word 10) 2 250
    let onCount := min (c.word 11) period
    if mode = .tally ∧ tally.isNone then refuse .badField 8 s
    else
      (s.modPin p fun P =>
          { P with fn := .line, mode := mode, tally := tally.getD P.tally, period := period, onCount := onCount,
                   cand := none },
        if period ≠ c.word 10 ∨ onCount ≠ c.word 11 then .doneClamped 0 else .done 0)

/-- SET_PIN (R132, R159), with the levels the pins show. -/
def setPin (levels : BitVec 12) (c : Command) (s : State) : State × Result :=
  match asFin 12 (c.word 0) with
  | none => refuse .badField 1 s
  | some p =>
    match c.word 1 with
    | 0 => (s.modPin p fun P => { P with fn := .unused, cand := none }, .done 0)
    | 1 => setPinMark p (levels.getLsbD p.val) c s
    | 2 => setPinLine p c s
    | _ => refuse .badField 2 s

/-- SET_LINE_LEVELS (R161). -/
def setLineLevels (c : Command) (s : State) : State × Result :=
  let mask := c.word 0
  let data := c.word 1
  if 4096 ≤ mask then refuse .badField 1 s
  else if 4096 ≤ data then refuse .badField 2 s
  else
    (levelWrite (BitVec.ofNat 12 mask) (BitVec.ofNat 12 data) s,
      .done (setBits ((levelPins (BitVec.ofNat 12 mask) s).map (·.val))))

/-! ## SET_NOTICES (R177) -/

/-- The release mode of a number (R177). -/
def releaseModeOf (v : Nat) : Option ReleaseMode :=
  match v with
  | 0 => some .read
  | 1 => some .write
  | _ => none

/-- SET_NOTICES (R177, R180). -/
def setNotices (c : Command) (s : State) : State × Result :=
  let mask := BitVec.ofNat 32 (c.word 1)
  match releaseModeOf (c.word 0) with
  | none => refuse .badField 1 s
  | some mode =>
    if mask.getLsbD 0 || mask.getLsbD 31 then refuse .badField 2 s
    else (s.modCtl fun k => Control.settleAttn { k with mode := mode, mask := mask ||| alwaysMask }, .done 0)

/-! ## The commands of the table -/

/-- SET_APERTURE, code 1 (R5, R6); the new map may let a held request in (R1; log 8). -/
def execSetAperture (s : State) : Host.Outcome State Fault Refusal :=
  .next (acceptHeld (carryOut (codeIs 1) setAperture s))
/-- CLEAR_APERTURE, code 2 (R7); the new map may let a held request in (R1; log 8). -/
def execClearAperture (s : State) : Host.Outcome State Fault Refusal :=
  .next (acceptHeld (carryOut (codeIs 2) clearAperture s))
/-- SET_CLOCK, code 3 (R25). -/
def execSetClock (s : State) : Host.Outcome State Fault Refusal := .next (carryOut (codeIs 3) setClock s)
/-- PRESET_TIMECODE, code 4 (R27). -/
def execPresetTimecode (s : State) : Host.Outcome State Fault Refusal := .next (carryOut (codeIs 4) presetTimecode s)
/-- SET_PICTURE, code 5 (R30). -/
def execSetPicture (s : State) : Host.Outcome State Fault Refusal := .next (carryOut (codeIs 5) setPicture s)
/-- SET_LANE, code 6 (R57 to R61). -/
def execSetLane (s : State) : Host.Outcome State Fault Refusal := .next (carryOut (codeIs 6) setLane s)
/-- SET_PROGRAM, code 7 (R63). -/
def execSetProgram (s : State) : Host.Outcome State Fault Refusal := .next (carryOut (codeIs 7) setProgram s)
/-- SET_SOUND, code 8 (R71, R72). -/
def execSetSound (s : State) : Host.Outcome State Fault Refusal := .next (carryOut (codeIs 8) setSound s)
/-- SET_TAP, code 9 (R79). -/
def execSetTap (s : State) : Host.Outcome State Fault Refusal := .next (carryOut (codeIs 9) setTap s)
/-- SET_BUS, code 10 (R87, R91). -/
def execSetBus (s : State) : Host.Outcome State Fault Refusal := .next (carryOut (codeIs 10) setBus s)
/-- SET_PATH, code 11 (R97 to R99). -/
def execSetPath (s : State) : Host.Outcome State Fault Refusal := .next (carryOut (codeIs 11) setPath s)
/-- SET_ROUTE, code 12 (R110). -/
def execSetRoute (s : State) : Host.Outcome State Fault Refusal := .next (carryOut (codeIs 12) setRoute s)
/-- SET_STORE, code 13 (R118, R119). -/
def execSetStore (s : State) : Host.Outcome State Fault Refusal := .next (carryOut (codeIs 13) setStore s)
/-- SET_PIN, code 14 (R132, R159). -/
def execSetPin (levels : BitVec 12) (s : State) : Host.Outcome State Fault Refusal :=
  .next (carryOut (codeIs 14) (setPin levels) s)
/-- SET_LINE_LEVELS, code 15 (R161). -/
def execSetLineLevels (s : State) : Host.Outcome State Fault Refusal := .next (carryOut (codeIs 15) setLineLevels s)
/-- SET_NOTICES, code 24 (R177). -/
def execSetNotices (s : State) : Host.Outcome State Fault Refusal := .next (carryOut (codeIs 24) setNotices s)

end Sys2Proof.Machine
end

