-- ==== Sys2Proof/Machine/Media.lean ====
section
/-! DEFINITION. The host commands on cues, clips and media: ADD_CUE to ABORT_SEND, CLEAR_MEDIA, and a command of an
unknown code. -/

namespace Sys2Proof.Machine

/-! ## Cues (R152, R156, R157) -/

/-- The first of the four action slots that is out of range (R152). -/
def badSlot (c : Command) : Option (Fin 4) := (List.finRange 4).find? fun i => (cueActAt c i.val).isNone

/-- The action slots, each NONE where it is out of range. -/
def cueActs (c : Command) : Table CueAct 4 := Table.ofFn fun i => (cueActAt c i.val).getD .none

/-- The entry admitted for an ADD_CUE (R153): the next frame and the late mark when it is past. -/
def admittedCue (c : Command) (dueTc : Nat) (s : State) : Cue :=
  let past := cuePast dueTc s
  ⟨c.field 0 1, dueTc, if past then s.clock.frame + 1 else cueDue dueTc s, past, cueActs c⟩

/-- ADD_CUE (R152, R153); the detail holds the position, and 256 more when the entry is late (log 13). -/
def addCue (c : Command) (s : State) : State × Result :=
  let dueTc := c.field 4 4
  let flags := c.field 1 1
  if dayFrames s ≤ dueTc then refuse .badField 1 s
  else if 1 < flags then refuse .badField 2 s
  else
    match badSlot c with
    | some i => refuse .badField (3 + i.val) s
    | none =>
      if cuePast dueTc s = true ∧ flags = 0 then refuse .past 0 s
      else if Config.cueRoom ≤ s.cues.length then refuse .full 0 s
      else
        let e := admittedCue c dueTc s
        (s.modCues (insertCue e), .done (cuePosition e.due s.cues + 256 * e.late.toNat))

/-- The first entry of an id (R156). -/
def findCue (id : Nat) (s : State) : Option Cue := s.cues.find? fun e => e.id = id

/-- That entry leaves the table. -/
def removeCue (id : Nat) (s : State) : State := s.modCues fun t => t.eraseP fun e => e.id = id

/-- CANCEL_CUE (R156). -/
def cancelCue (c : Command) (s : State) : State × Result :=
  match findCue (c.word 0) s with
  | none => refuse .notFound 0 s
  | some e => (removeCue (c.word 0) s, .done e.dueTc)

/-- FORCE_CUE (R157). -/
def forceCue (c : Command) (s : State) : State × Result :=
  match findCue (c.word 0) s with
  | none => refuse .notFound 0 s
  | some e =>
    let r := applySlots e s
    (raise .cueForced e.id [b4 e.dueTc, b4 e.due.toNat, b1 (setBits r.2)] (removeCue (c.word 0) r.1),
      .done (setBits r.2))

/-! ## Clips (R140, R145, R146) -/

/-- CLIP_MARK's result for an outcome (R140). -/
def markResult (clamped : Bool) : MarkOutcome → Result
  | .done n => if clamped then .doneClamped n else .done n
  | .present n => .done n
  | .labelDropped n => .refused .full n
  | .orphanOut => .refused .state 1
  | .orphanLabel => .refused .state 1
  | .logFull => .refused .state 2

/-- CLIP_MARK (R140). -/
def clipMark (c : Command) (s : State) : State × Result :=
  let code := c.low16 2
  let preroll := c.word 3
  match markActionOf (c.word 0), asFin 4 (c.word 1) with
  | none, _ => refuse .badField 1 s
  | some _, none => refuse .badField 2 s
  | some action, some input =>
    if action = .label ∧ code = 0 then refuse .badField 3 s
    else
      let r := markArrival action input (BitVec.ofNat 16 code) s.clock.frame (timecode s) (min preroll 250) .command s
      (r.1, markResult (decide (250 < preroll)) r.2)

/-- A label taken from record `i` (R145). -/
def removeLabel (i : Fin 256) (k : W16) (s : State) : State × Result :=
  if k ∈ (s.log.recs.get i).labels then
    (sendTag i .label (changeRec i (fun c => { c with labels := c.labels.filter (fun x => x ≠ k) }) s), .done 0)
  else refuse .notFound 2 s

/-- CLIP_LABEL's result for an added label (R145). -/
def labelResult : MarkOutcome → Result
  | .labelDropped _ => .refused .full 0
  | .done _ | .present _ | .orphanOut | .orphanLabel | .logFull => .done 0

/-- CLIP_LABEL (R145). -/
def clipLabel (c : Command) (s : State) : State × Result :=
  let k := c.low16 2
  match asFin 2 (c.word 1) with
  | none => refuse .badField 1 s
  | some op =>
    if k = 0 then refuse .badField 2 s
    else
      match findClip (c.word 0) s with
      | none => refuse .notFound 1 s
      | some i =>
        if op = 0 then
          let r := addLabel i (BitVec.ofNat 16 k) s
          (r.1, labelResult r.2)
        else removeLabel i (BitVec.ofNat 16 k) s

/-- The record becomes FREE, and an OPEN clip's pointer is cleared (R146). -/
def freeRecord (i : Fin 256) (s : State) : State :=
  let r := s.log.recs.get i
  let s1 := if r.state = .opened then s.modLog fun g => { g with opens := g.opens.set r.source none } else s
  changeRec i (fun c => Clip.free c.rev) s1

/-- CLIP_DELETE (R146). -/
def clipDelete (c : Command) (s : State) : State × Result :=
  match findClip (c.word 0) s with
  | none => refuse .notFound 1 s
  | some i =>
    if (s.log.recs.get i).state = .sending then refuse .state 1 s
    else (freeRecord i s, .done 0)

/-! ## Transfers (R165, R169) -/

/-- SEND_CLIP that passes its checks (R165, R166). -/
def queueSend (i : Fin 256) (e : Send) (s : State) : State :=
  let s1 := changeRec i (fun c => { c with prior := some c.state, state := .sending }) s
  let s2 := s1.modXfer fun x => { x with queue := x.queue ++ [e] }
  if s.xfer.queue = [] then startHead s2 else s2

/-- SEND_CLIP (R165). -/
def sendClip (c : Command) (s : State) : State × Result :=
  match asFin 2 (c.word 1), findClip (c.word 0) s with
  | none, _ => refuse .badField 1 s
  | some _, none => refuse .notFound 1 s
  | some p, some i =>
    let r := s.log.recs.get i
    if r.logOnly then refuse .noData 0 s
    else if r.state ≠ .closed ∧ r.state ≠ .sent then refuse .state 1 s
    else if r.endPending = true ∨ r.firstPending = true then refuse .state 2 s
    else if (s.home.paths.get p).state = .off then refuse .state 3 s
    else if Config.sendRoom ≤ s.xfer.queue.length then refuse .full 0 s
    else (queueSend i ⟨r.num, p⟩ s, .done s.xfer.queue.length)

/-- The active transfer aborted (R169). -/
def abortActive (e : Send) (s : State) : State :=
  let placed := s.xfer.placed.toNat
  let remaining := s.xfer.remaining
  startHead ((raiseEnded .aborted e placed remaining (restorePrior e.clip (letGo s))).modXfer fun x =>
    { x with queue := x.queue.tail })

/-- A queued transfer, not active, aborted (R169). -/
def abortQueued (num : Nat) (s : State) : State :=
  restorePrior num (s.modXfer fun x => { x with queue := x.queue.filter fun e => e.clip ≠ num })

/-- ABORT_SEND (R169). -/
def abortSend (c : Command) (s : State) : State × Result :=
  let num := c.word 0
  match findClip num s with
  | none => refuse .notFound 1 s
  | some i =>
    if (s.log.recs.get i).state ≠ .sending then refuse .state 1 s
    else
      match s.xfer.queue with
      | [] => (abortQueued num s, .done 0)
      | e :: _ => if e.clip = num then (abortActive e s, .done 1) else (abortQueued num s, .done 0)

/-! ## CLEAR_MEDIA (R182) -/

/-- An enabled store emptied (R130). -/
def clearStore (s : State) : State :=
  if s.store.state = .off then s
  else
    let s1 := loseAll (dropHold byStore s)
    resumeStore (storeHeaderWrite (s1.modStore fun st =>
      { st with retained := [], index := Table.fill 4 [], openMark := Table.fill 4 false, gapRuns := Table.fill 5 0,
                head := 0, nextSeq := 0, epoch := st.epoch + 1 }))

/-- An enabled path starts a new ring life (R115; log 22). -/
def clearPath (p : Fin 2) (s : State) : State :=
  let P := s.home.paths.get p
  if P.state = .off then s
  else
    let s1 := ringHeaderWrite p 0 .nothing ((dropHold (byPath p) s).modPath p HomePath.newLife)
    if P.state = .stalled then raiseResume p 1 s1 else s1

/-- A lane at CLEAR_MEDIA (R51, R68). -/
def Lane.cleared (L : Lane) : Lane := { L.toWaiting with fullness := 0, q := L.qFloor }

/-- A sound input at CLEAR_MEDIA (R93). -/
def SoundInput.cleared (i : SoundInput) : SoundInput :=
  { i.toSeeking with slot := List.replicate i.channels 0, fresh := false, invalid := false, silent := false,
                     starve := 0 }

/-- The sound state at CLEAR_MEDIA (R84, R93). -/
def Sound.cleared (d : Sound) : Sound :=
  { d with inputs := d.inputs.map SoundInput.cleared, taps := d.taps.map fun t => { t with gain := t.target },
           buses := d.buses.map fun B => { B with arm := true, satMark := false }, acc := none, restart := false }

/-- CLEAR_MEDIA (R182), its six steps in order, the clear count and the header; step 3 takes path A before path B
(log 47). -/
def clearMedia (_ : Command) (s : State) : State × Result :=
  let s1 := endEntries .cleared true (fun _ => true) s
  let s2 := clearStore s1
  let s3 := forEach (List.finRange 2) clearPath s2
  let s4 := s3.modLanes Lane.cleared
  let s5 := s4.modSnd Sound.cleared
  let s6 := s5.modCues fun _ => []
  let s7 := s6.modCtl fun c => { c with clears := c.clears + 1 }
  (writeHeader s7, .done s7.ctl.clears.toNat)

/-- A command whose code is above 25 (R175). -/
def unknownCommand (_ : Command) (s : State) : State × Result := refuse .unknown 0 s

/-! ## The commands of the table -/

/-- UNKNOWN_COMMAND, a code above 25 (R175). -/
def execUnknownCommand (s : State) : Host.Outcome State Fault Refusal :=
  .next (carryOut (fun n => decide (25 < n)) unknownCommand s)
/-- ADD_CUE, code 16 (R152, R153). -/
def execAddCue (s : State) : Host.Outcome State Fault Refusal := .next (carryOut (codeIs 16) addCue s)
/-- CANCEL_CUE, code 17 (R156). -/
def execCancelCue (s : State) : Host.Outcome State Fault Refusal := .next (carryOut (codeIs 17) cancelCue s)
/-- FORCE_CUE, code 18 (R157). -/
def execForceCue (s : State) : Host.Outcome State Fault Refusal := .next (carryOut (codeIs 18) forceCue s)
/-- CLIP_MARK, code 19 (R140). -/
def execClipMark (s : State) : Host.Outcome State Fault Refusal := .next (carryOut (codeIs 19) clipMark s)
/-- CLIP_LABEL, code 20 (R145). -/
def execClipLabel (s : State) : Host.Outcome State Fault Refusal := .next (carryOut (codeIs 20) clipLabel s)
/-- CLIP_DELETE, code 21 (R146). -/
def execClipDelete (s : State) : Host.Outcome State Fault Refusal := .next (carryOut (codeIs 21) clipDelete s)
/-- SEND_CLIP, code 22 (R165). -/
def execSendClip (s : State) : Host.Outcome State Fault Refusal := .next (carryOut (codeIs 22) sendClip s)
/-- ABORT_SEND, code 23 (R169). -/
def execAbortSend (s : State) : Host.Outcome State Fault Refusal := .next (carryOut (codeIs 23) abortSend s)
/-- CLEAR_MEDIA, code 25 (R182). -/
def execClearMedia (s : State) : Host.Outcome State Fault Refusal := .next (carryOut (codeIs 25) clearMedia s)

end Sys2Proof.Machine
end

