-- ==== Sys2Proof/Machine/Resets.lean ====
section
/-! DEFINITION. The commands that reset and start the part: POWER_ON_RESET, LINK_RESET, LINK_UP, CONFIG_ENTRY_READ. -/

namespace Sys2Proof.Machine

/-- POWER_ON_RESET (R14, R172): every block takes its power-on values; DRAM, the pins' levels and the queue of waiting
commands are not the part's. With CFGSEL low the load ends at once with NONE. -/
def execPowerOnReset (cfgsel : Bool) (s : State) : Host.Outcome State Fault Refusal :=
  let s1 := { State.reset with pending := s.pending, dram := s.dram, epIn := s.epIn }
  let s2 := s1.modCtl fun c => { c with cfgsel := cfgsel }
  .next (if cfgsel then s2 else endLoad .none 0 s.epIn s2)

/-- The upstream requests in flight are discarded (R15; log 7). -/
def Port.linkReset (q : Port) : Port := { q with linkUp := false, held := [], inflight := [], opens := [] }

/-- The command queue is removed unperformed (R176). -/
def Control.linkReset (c : Control) : Control := { c with queue := [], marks := Table.fill 16 false, cause := .link }

/-- LINK_RESET (R15, R51, R93, R114, R150, R176). -/
def execLinkReset (s : State) : Host.Outcome State Fault Refusal :=
  let s1 := (s.modPort Port.linkReset).modLanes Lane.toWaiting
  let s2 := s1.modSnd fun d => { d with inputs := d.inputs.map SoundInput.toSeeking }
  let s3 := s2.modHome fun h => { h with paths := h.paths.map fun P => { P with stall := 0 } }
  let s4 := s3.modPins fun P => { P with cand := none }
  .next (writeHeader (s4.modCtl Control.linkReset))

/-- LINK_UP (R15): upstream requests are accepted again. -/
def execLinkUp (s : State) : Host.Outcome State Fault Refusal :=
  .next (acceptHeld (s.modPort fun q => { q with linkUp := true }))

/-- CONFIG_ENTRY_READ (R172): the loader takes one entry, and COMMANDS being SET at the end may let a held request in
(R1; log 8); after the load nothing happens (log 3). -/
def execConfigEntryRead (entry : Option (BitVec 64)) (levels : BitVec 12) (s : State) :
    Host.Outcome State Fault Refusal :=
  match s.ctl.loader with
  | .reading i last => .next (acceptHeld (loadEntry i last entry levels s))
  | .ended => .next s

end Sys2Proof.Machine
end

