-- ==== Sys2Proof/Machine/Dispatch.lean ====
section
/-! DEFINITION. The meaning of every command: one arm per constructor, one call per arm. -/

namespace Sys2Proof.Machine

/-- The effect of a command on everything but the queue of waiting commands. -/
def exec (i : Instr) (s : State) : Host.Outcome State Fault Refusal :=
  match i with
  | .powerOnReset cfgsel => Sys2Proof.Machine.execPowerOnReset cfgsel s
  | .linkReset => Sys2Proof.Machine.execLinkReset s
  | .configEntryRead entry levels => Sys2Proof.Machine.execConfigEntryRead entry levels s
  | .requestAccept r => Sys2Proof.Machine.execRequestAccept r s
  | .downstreamGrant => Sys2Proof.Machine.execDownstreamGrant s
  | .readServed => Sys2Proof.Machine.execReadServed s
  | .insertQueueJoin => Sys2Proof.Machine.execInsertQueueJoin s
  | .sampleTick t => Sys2Proof.Machine.execSampleTick t s
  | .frameTick t => Sys2Proof.Machine.execFrameTick t s
  | .frameCountWrap t => Sys2Proof.Machine.execFrameCountWrap t s
  | .midnight t => Sys2Proof.Machine.execMidnight t s
  | .refPulse => Sys2Proof.Machine.execRefPulse s
  | .refLost t => Sys2Proof.Machine.execRefLost t s
  | .unknownCommand => Sys2Proof.Machine.execUnknownCommand s
  | .setAperture => Sys2Proof.Machine.execSetAperture s
  | .clearAperture => Sys2Proof.Machine.execClearAperture s
  | .setClock => Sys2Proof.Machine.execSetClock s
  | .presetTimecode => Sys2Proof.Machine.execPresetTimecode s
  | .setPicture => Sys2Proof.Machine.execSetPicture s
  | .setLane => Sys2Proof.Machine.execSetLane s
  | .setProgram => Sys2Proof.Machine.execSetProgram s
  | .setSound => Sys2Proof.Machine.execSetSound s
  | .setTap => Sys2Proof.Machine.execSetTap s
  | .setBus => Sys2Proof.Machine.execSetBus s
  | .setPath => Sys2Proof.Machine.execSetPath s
  | .setRoute => Sys2Proof.Machine.execSetRoute s
  | .setStore => Sys2Proof.Machine.execSetStore s
  | .setPin levels => Sys2Proof.Machine.execSetPin levels s
  | .setLineLevels => Sys2Proof.Machine.execSetLineLevels s
  | .addCue => Sys2Proof.Machine.execAddCue s
  | .cancelCue => Sys2Proof.Machine.execCancelCue s
  | .forceCue => Sys2Proof.Machine.execForceCue s
  | .clipMark => Sys2Proof.Machine.execClipMark s
  | .clipLabel => Sys2Proof.Machine.execClipLabel s
  | .clipDelete => Sys2Proof.Machine.execClipDelete s
  | .sendClip => Sys2Proof.Machine.execSendClip s
  | .abortSend => Sys2Proof.Machine.execAbortSend s
  | .setNotices => Sys2Proof.Machine.execSetNotices s
  | .clearMedia => Sys2Proof.Machine.execClearMedia s
  | .soundSilent n t => Sys2Proof.Machine.execSoundSilent n t s
  | .soundUnitClose t => Sys2Proof.Machine.execSoundUnitClose t s
  | .markConfirm p t => Sys2Proof.Machine.execMarkConfirm p t s
  | .stall p t => Sys2Proof.Machine.execStall p t s
  | .cueFiring t => Sys2Proof.Machine.execCueFiring t s
  | .transferReadIssue => Sys2Proof.Machine.execTransferReadIssue s
  | .storeReadServed => Sys2Proof.Machine.execStoreReadServed s
  | .linkUp => Sys2Proof.Machine.execLinkUp s

end Sys2Proof.Machine
end

