-- ==== Sys2Proof/Safety.lean ====
section
/-! DEFINITION. What counts as a safe state and a safe step, in the terms that claims use: the invariants that the rules
state of every state the part can be in, and the answer that ends a command. -/

namespace Sys2Proof.Safety

open Sys2Proof.Machine

/-! ## Steps -/

/-- An invariant that a command keeps: from a state that has it, a next state has it. -/
def KeptBy (Inv : State → Prop) (c : Instr) : Prop := ∀ s t, Inv s → exec c s = .next t → Inv t

/-- An invariant that every step keeps. -/
def KeptByStep (Inv : State → Prop) : Prop := ∀ s t, Inv s → step s = .next t → Inv t

/-! ## Memory -/

/-- DRAM is in canonical form. -/
def DramOk (s : State) : Prop := Mem.wf s.dram = true

/-! ## The aperture map (R4) -/

/-- A SET entry as R4 allows it. -/
def apertureOk (f : Fn) (a : Aperture) : Prop :=
  a.base % 4096 = 0 ∧ a.size % 4096 = 0 ∧ f.minSize ≤ a.size ∧ a.size ≤ 2 ^ 36 ∧ a.base + a.size ≤ 2 ^ 40

/-- Two ranges have no address in common. -/
def Apart (a b : Aperture) : Prop := a.base + a.size ≤ b.base ∨ b.base + b.size ≤ a.base

/-- While the start-up load runs, every entry is UNSET, no command waits, and the base being loaded is a whole 4096-byte
block of the address space (R14, R172). -/
def LoadOk (s : State) : Prop :=
  s.ctl.loader ≠ .ended →
    (∀ f, ap f s = none) ∧ s.ctl.queue = [] ∧ s.ctl.cmdBase % 4096 = 0 ∧ s.ctl.cmdBase + 4096 ≤ 2 ^ 40

/-- The aperture map: every SET entry is as R4 allows, COMMANDS is 4096 bytes, and no two SET entries overlap (R5). -/
def MapOk (s : State) : Prop :=
  (∀ f a, ap f s = some a → apertureOk f a) ∧ (∀ a, ap .commands s = some a → a.size = 4096)
    ∧ (∀ f g a b, ap f s = some a → ap g s = some b → f ≠ g → Apart a b) ∧ LoadOk s

/-! ## The station clock (R16, R18, R21) -/

/-- Every count of the clock lies in its range, and while LOCKED at most one frame has been missed. -/
def ClockOk (s : State) : Prop :=
  s.clock.pos < Config.ticksPerFrame s.clock.rate ∧ s.clock.offset < Config.framesPerDay s.clock.rate
    ∧ s.clock.run ≤ 2 ∧ s.clock.miss ≤ 2 ∧ (s.clock.lock = .locked → s.clock.miss ≤ 1)
    ∧ s.clock.interval ≤ 65535 ∧ s.clock.rejected ≤ 65535

/-! ## Lanes and the selector (R56, R62) -/

/-- R56 for one lane. -/
def laneOk (L : Lane) : Prop :=
  L.enabled = true → L.qFloor ≤ L.q ∧ L.q ≤ 5 ∧ -(L.bound : Int) ≤ L.fullness ∧ L.fullness ≤ (L.bound : Int)

/-- R56. -/
def LanesOk (s : State) : Prop := ∀ l, laneOk (s.lanes.get l)

/-- R62: the programme lane is enabled, and the pending lane is enabled and another. -/
def SelectorOk (s : State) : Prop :=
  (∀ l, s.sel.programme = some l → (s.lanes.get l).enabled = true)
    ∧ (∀ l, s.sel.waiting = some l → (s.lanes.get l).enabled = true ∧ s.sel.programme ≠ some l)

/-! ## Notices (R178, R180) -/

/-- How many notices the ring can hold: none while NOTICES is UNSET. -/
def noticeRoom (s : State) : Nat := ((ap .notices s).map fun a => noticeSlots a.size).getD 0

/-- R180: the unreleased notices never exceed the slots, and ATTN is high exactly when one of them has a kind in the
attention mask. -/
def NoticesOk (s : State) : Prop :=
  s.ctl.attn = attnOf s.ctl.mask s.ctl.unreleased ∧ s.ctl.released ≤ s.ctl.written
    ∧ s.ctl.unreleased.length = s.ctl.written - s.ctl.released ∧ s.ctl.written - s.ctl.released ≤ noticeRoom s

/-! ## The cue table (R151) -/

/-- How far ahead of the current frame an entry is due. -/
def ahead (s : State) (e : Cue) : Nat := dist s.clock.frame e.due

/-- R151: at most 32 entries, in order of due frame, each due after the current frame by at most D - 1 frames. -/
def CuesOk (s : State) : Prop :=
  s.cues.length ≤ 32 ∧ (∀ e ∈ s.cues, 1 ≤ ahead s e ∧ ahead s e ≤ dayFrames s - 1)
    ∧ s.cues.Pairwise fun e f => ahead s e ≤ ahead s f

/-! ## The clip log (R138, R139) -/

/-- A clip record that is as R136 allows: 0 is the number of a FREE record alone, and a prior state is CLOSED or SENT. -/
def clipOk (c : Clip) : Prop :=
  (c.state = .free ↔ c.num = 0) ∧ c.num ≤ 65535
    ∧ (c.prior = none ∨ c.prior = some .closed ∨ c.prior = some .sent)

/-- R138: clip numbers are distinct, and the next clip number runs from 1 to 65 535. -/
def NumbersOk (s : State) : Prop :=
  (∀ i, clipOk (s.log.recs.get i)) ∧ 1 ≤ s.log.nextNum ∧ s.log.nextNum ≤ 65535
    ∧ (∀ i j, (s.log.recs.get i).state ≠ .free → (s.log.recs.get i).num = (s.log.recs.get j).num → i = j)

/-- R139: an input's open-clip pointer names a clip exactly when that clip is OPEN with that source. -/
def PointersOk (s : State) : Prop :=
  ∀ src n, s.log.opens.get src = some n ↔
    ∃ i, (s.log.recs.get i).state = .opened ∧ (s.log.recs.get i).source = src ∧ (s.log.recs.get i).num = n

/-! ## The clip log and the send queue together (R138, R139, R171) -/

/-- R171, first half: the send queue names distinct clips, each SENDING, and every SENDING clip stands in it; it has at
most 8 entries (R164). -/
def SendOk (s : State) : Prop :=
  (s.xfer.queue.map (·.clip)).Nodup ∧ s.xfer.queue.length ≤ 8
    ∧ (∀ e ∈ s.xfer.queue, ∃ i, (s.log.recs.get i).state = .sending ∧ (s.log.recs.get i).num = e.clip)
    ∧ (∀ i, (s.log.recs.get i).state = .sending → ∃ e ∈ s.xfer.queue, e.clip = (s.log.recs.get i).num)

/-- R138, R139 and the first half of R171. -/
def LogOk (s : State) : Prop := NumbersOk s ∧ PointersOk s ∧ SendOk s

/-! ## Home paths (R95, R96) -/

/-- R96 for path `p`, with what R95 says of its unit list: entries lie between consumed and placed, in order. -/
def pathOk (s : State) (p : Fin 2) : Prop :=
  let P := s.home.paths.get p
  P.consumed ≤ P.published ∧ P.published ≤ P.placed ∧ P.placed - P.consumed ≤ pathCells p s
    ∧ (P.state = .off → P.placed = 0 ∧ P.published = 0 ∧ P.consumed = 0)
    ∧ (∀ e ∈ P.units, P.consumed ≤ e.start ∧ e.start + e.cells ≤ P.placed)
    ∧ P.units.Pairwise fun e f => e.start + e.cells ≤ f.start

/-- A header write that will publish stands in its own path's hold and carries no more than placed (R101). -/
def publishOk (s : State) : Prop :=
  ∀ b, ∀ e ∈ s.ins.holds.get b, ∀ p v, e.eff = .publish p v → b = byPath p ∧ v ≤ (s.home.paths.get p).placed

/-- R96 for both paths. -/
def PathsOk (s : State) : Prop := (∀ p, pathOk s p) ∧ publishOk s

/-- Every entry of the unit lists, every pending tag and every held replay offer has at least one cell. -/
def HasCells (s : State) : Prop :=
  ∀ p, (∀ e ∈ (s.home.paths.get p).units, 0 < e.cells) ∧ (∀ u ∈ (s.home.paths.get p).tags, 0 < u.cells)
    ∧ ∀ u, (s.home.paths.get p).heldOffer = some u → 0 < u.cells

/-! ## The frame indexes (R125) -/

/-- A frame-index entry of lane `l` names a retained row: the unit's sequence, frame and first cell. -/
def Names (s : State) (l : Fin 4) (x : IndexEntry) : Prop :=
  ∃ e ∈ s.store.retained, ∃ u, e.unit = some u ∧ u.seq = x.seq ∧ u.source = some l ∧ u.frame = x.frame
    ∧ x.cell = e.start % storeCells s

/-- R125: every frame-index entry names a retained unit of its lane, an index has at most 128 entries, and a store that
is OFF retains nothing (R119). -/
def IndexOk (s : State) : Prop :=
  (∀ l, ∀ x ∈ s.store.index.get l, Names s l x) ∧ (∀ l, (s.store.index.get l).length ≤ Config.indexRoom)
    ∧ (s.store.state = .off → s.store.retained = [] ∧ ∀ l, s.store.index.get l = [])

/-! ## The pieces of a request (R3) -/

/-- Pieces that follow one another without a gap from one address to another. -/
def Chained : Nat → List Piece → Nat → Prop
  | lo, [], hi => lo = hi
  | lo, p :: ps, hi => p.addr = lo ∧ 0 < p.op.len ∧ Chained (lo + p.op.len) ps hi

/-- The bytes a piece writes. -/
def pieceData (p : Piece) : List Byte :=
  match p.op with
  | .read _ => []
  | .write d => d

/-- Pieces with their serial numbers from `n` on. -/
def numbered : Nat → List Piece → List Piece
  | _, [] => []
  | n, p :: ps => { p with serial := n } :: numbered (n + 1) ps

/-! ## An observed write (R1, R10) -/

/-- A write request of the bytes `d` that the port can accept now, with a legal map and no request held, and that lies
whole and unguarded in the SET aperture of `f`, `off` bytes from its base. -/
def Observed (f : Fn) (off : Nat) (d : List Byte) (r : Request) (s : State) : Prop :=
  MapOk s ∧ s.port.held = [] ∧ r.lengthOk = true ∧ r.inSpace = true ∧ r.op = .write d ∧ canAccept r s = true
    ∧ f.guards off d.length = false
    ∧ ∃ a, ap f s = some a ∧ r.addr.toNat = a.base + off ∧ off + d.length ≤ a.size

/-- The state with that request open and its one piece in flight: what acceptance itself changes (R1). -/
def inFlight (f : Fn) (off : Nat) (d : List Byte) (r : Request) (s : State) : State :=
  { s with port := { s.port with
      inflight := s.port.inflight
        ++ [⟨s.port.nextReq, s.port.nextPiece, some f, false, off, r.addr.toNat, r.initiator, .write d⟩]
      nextPiece := s.port.nextPiece + 1
      nextReq := s.port.nextReq + 1
      opens := s.port.opens ++ [⟨s.port.nextReq, r.initiator, false, 1, []⟩] } }

/-! ## A placement on a home path (R101, R102, R106) -/

/-- How a unit of `c` cells fits a ring of `n` cells (R101): behind a pad of `pad` cells, none when 0, which is passed
over when `passed`. -/
def FitsAt (n : Nat) (P : HomePath) (c pad : Nat) (passed : Bool) : Prop :=
  (pad = 0 ∧ passed = false ∧ c ≤ n - P.placed % n ∧ c ≤ n - (P.placed - P.consumed))
    ∨ (pad = n - P.placed % n ∧ passed = false ∧ pad < c ∧ P.consumed < P.placed ∧ pad + c ≤ n - (P.placed - P.consumed))
    ∨ (pad = n - P.placed % n ∧ passed = true ∧ pad < c ∧ P.placed ≤ P.consumed ∧ c ≤ n)

/-- The state after a unit that fits so has been placed with a shed-before field of `shed`: the entries of its unit
list, its counters, its writes in the order made, the header write last, and PRESSURE when in-use is above H while the
arm is set. -/
def placedAs (p : Fin 2) (u : MUnit) (shed pad : Nat) (passed : Bool) (s : State) : State :=
  let P := s.home.paths.get p
  let n := pathCells p s
  let base := apBase (.path p) s
  let start := P.placed + pad
  let placed := start + u.cells
  let published := if passed then P.published + pad else P.published
  let consumed := if passed then P.consumed + pad else P.consumed
  let pressed := P.high < placed - consumed ∧ P.arm = true
  let v := { s with
    home := { s.home with paths := s.home.paths.set p { P with
      units := P.units ++ (if pad = 0 ∨ passed = true then [] else [⟨P.placed, pad, none⟩])
        ++ [⟨start, u.cells, some P.nextSeq⟩]
      placed := placed, published := published, consumed := consumed
      nextSeq := P.nextSeq + 1, arm := if pressed then false else P.arm } }
    ins := { s.ins with holds := s.ins.holds.modify (byPath p) fun h =>
      h ++ (if pad = 0 then []
          else [⟨.write (base + 64 * (P.placed % n + 1)) (padCell pad s.clock.frame (timecode s)), .nothing⟩])
        ++ (List.range u.cells).map (fun i =>
          ⟨.write (base + 64 * (start % n + 1 + i)) (padTo 64 (slice (64 * i) 64 (u.bytes P.nextSeq shed))), .nothing⟩)
        ++ [⟨.write base (ringHeader placed n P.epoch), .publish p placed⟩] } }
  if pressed then raise .pressure p.val [b4 (placed - consumed), b4 P.high, b1 u.kind.code] v else v

/-! ## Grants (R13) -/

/-- The address and the bytes of a granted write; none for a granted read. -/
def writeOf : Granted → Option (Nat × List Byte)
  | .piece p =>
    match p.op with
    | .write d => some (p.addr, d)
    | .read _ => none
  | .entry (.write a d) => some (a, d)
  | .entry (.read _ _) => none

/-! ## Sound units (R89, R90) -/

/-- The unit that the accumulator has at a tick, and the restart mark it leaves (R89): the OPEN one, or one that opens at
this tick. -/
def OpenUnit (s : State) (a : Accumulator) (restart : Bool) : Prop :=
  (s.snd.acc = some a ∧ restart = s.snd.restart)
    ∨ (s.snd.acc = none ∧ s.snd.sentMask ≠ 0 ∧ (s.clock.pos % 40 = 0 ∨ s.snd.restart = true)
      ∧ a = ⟨s.snd.sentMask, s.clock.pos, s.clock.frame, timecode s, 0, [], false, false⟩ ∧ restart = false)

/-- The unit after it has collected a tick (R89, R90): the outputs of its buses, ascending, one tick more, and the flags
raised by an enabled tap on one of its buses that names a contributing input marked invalid, or an enabled silent one. -/
def Collected (d : Sound) (a a1 : Accumulator) : Prop :=
  a1 = { a with
      ticks := a.ticks + 1, invalid := a1.invalid, silentSource := a1.silentSource
      samples := a.samples ++ ((List.finRange 8).filter fun b => a.mask.getLsbD b.val).map fun b => busOutput b d }
    ∧ (a1.invalid = true ↔ a.invalid = true ∨ ∃ k X, (d.taps.get k).enabled = true
      ∧ a.mask.getLsbD (d.taps.get k).bus.val = true ∧ X = d.inputs.get (d.taps.get k).input
      ∧ X.enabled = true ∧ X.silent = false ∧ X.invalid = true)
    ∧ (a1.silentSource = true ↔ a.silentSource = true ∨ ∃ k X, (d.taps.get k).enabled = true
      ∧ a.mask.getLsbD (d.taps.get k).bus.val = true ∧ X = d.inputs.get (d.taps.get k).input
      ∧ X.enabled = true ∧ X.silent = true)

/-! ## Edges (R133, R134) -/

/-- The confirmation test of a pin falls at a tick that shows `lv`, on a candidate with the captures of `c` (R133). -/
def Confirms (P : Pin) (lv : Bool) (frame : W32) (tc : Nat) (c : Candidate) : Prop :=
  (P.cand = some c ∧ ((lv ≠ P.last ∧ P.filter ≤ 1) ∨ (lv = P.last ∧ c.left ≤ 1)))
    ∨ (P.cand = none ∧ lv ≠ P.confirmed ∧ P.filter ≤ 1 ∧ c = ⟨frame, tc, 0⟩)

/-- A pin whose edge to `lv` has been confirmed (R134). -/
def confirmedAs (P : Pin) (lv : Bool) : Pin :=
  { P with
    cand := none, last := lv, confirmed := lv
    edges := if P.edge = .both ∨ (P.edge = .rising ∧ lv = true) ∨ (P.edge = .falling ∧ lv = false) then P.edges + 1
      else P.edges }

/-! ## Clips opened and closed (R126, R138, R142, R143) -/

/-- A record that is the earliest of those in a state, the lower index of two with one in-frame (R142). -/
def EarliestIn (st : ClipState) (i : Fin 256) (s : State) : Prop :=
  (s.log.recs.get i).state = st ∧ ∀ j, j ≠ i → (s.log.recs.get j).state = st →
    earlier (s.log.recs.get j).inFrame (s.log.recs.get i).inFrame = false
      ∧ (j < i → earlier (s.log.recs.get i).inFrame (s.log.recs.get j).inFrame = true)

/-- The record that a new clip takes (R142): the lowest FREE one, else the earliest SENT, else the earliest LOST. -/
def TakesRecord (i : Fin 256) (s : State) : Prop :=
  ((s.log.recs.get i).state = .free ∧ ∀ j, j < i → (s.log.recs.get j).state ≠ .free)
    ∨ ((∀ j, (s.log.recs.get j).state ≠ .free) ∧ EarliestIn .sent i s)
    ∨ ((∀ j, (s.log.recs.get j).state ≠ .free ∧ (s.log.recs.get j).state ≠ .sent) ∧ EarliestIn .lost i s)

/-- The first number from the next clip number on, passing from 65 535 to 1, that no other non-FREE record than `i` holds
(R138). -/
def NextFree (i : Fin 256) (num : Nat) (s : State) : Prop :=
  ∃ d, num = (s.log.nextNum - 1 + d) % 65535 + 1
    ∧ (∀ j, j ≠ i → (s.log.recs.get j).state ≠ .free → (s.log.recs.get j).num ≠ num)
    ∧ ∀ e, e < d → ∃ j, j ≠ i ∧ (s.log.recs.get j).state ≠ .free
        ∧ (s.log.recs.get j).num = (s.log.nextNum - 1 + e) % 65535 + 1

/-- The range that a new clip `X` of input `n` opens with (R126). -/
def OpensWithRange (n : Fin 4) (X : Clip) (s : State) : Prop :=
  let recording := (s.lanes.get n).intake ≠ .disabled ∧ (s.lanes.get n).record = true ∧ s.store.state = .running
  (¬recording → X.logOnly = true ∧ X.first = none ∧ X.firstPending = false ∧ X.prerollShort = false)
    ∧ (recording → X.logOnly = false
      ∧ ((∀ e ∈ s.store.index.get n, atOrBefore X.inFrame e.frame = false) →
        X.first = none ∧ X.firstPending = true ∧ X.prerollShort = false)
      ∧ ∀ pre e post, s.store.index.get n = pre ++ e :: post → (∀ x ∈ pre, atOrBefore X.inFrame x.frame = false) →
        atOrBefore X.inFrame e.frame = true →
        X.first = some (e.seq, e.cell) ∧ X.firstPending = false
          ∧ (X.prerollShort = true ↔ e.frame ≠ X.inFrame
            ∧ ∀ x ∈ s.store.index.get n, x.frame = X.inFrame ∨ atOrBefore x.frame X.inFrame = false))

/-- The state after the OPEN clip of record `i` has been closed at an out-frame by an arrival of origin `o` (R143): its
stamp, the pointer, END_PENDING by R128, CLIP_CLOSED with the origin last (log 41), the CLOSE tag offered to each path
of the effective route set, and the mirror. -/
def closedAs (i : Fin 256) (outFrame : W32) (outTc : Nat) (o : Origin) (s : State) : State :=
  let R := s.log.recs.get i
  let X := { R with
    state := .closed, out := some (outFrame, outTc), stamp := some s.log.closeCount
    endPending := !R.logOnly && R.last.isNone }
  let w := raise .clipClosed R.num [b1 R.source.val, b4 outFrame.toNat, b1 X.flags.toNat, o.item]
    { s with log := { s.log with
      recs := s.log.recs.set i X, closeCount := s.log.closeCount + 1, opens := s.log.opens.set R.source none } }
  mirror i ((effectiveRoute w).foldl (fun y q =>
    offerTag (.tag R.source s.clock.frame (timecode s) R.num .closed (tagBody X .closed)) q y) w)

/-- Lane `l` has stopped recording between two states (R129, R147): its OPEN and CLOSED clips (log 30) with a first unit
and no last one end at the most recent stored unit, its FIRST_PENDING ones are LOG_ONLY, and the rest of the clip log
stands. -/
def RecordingStopped (l : Fin 4) (s t : State) : Prop :=
  t.log = { s.log with recs := t.log.recs }
    ∧ ∀ i R, R = s.log.recs.get i → ∀ ends : Prop,
      (ends ↔ R.source = l ∧ R.first.isSome = true ∧ R.last = none ∧ (R.state = .opened ∨ R.state = .closed)) →
      (ends → R.firstPending = false → t.log.recs.get i = { R with
        last := some (lastStored s), endPending := false, rowsStored := min (R.rowsStored + R.tally) (2 ^ 32 - 1)
        tally := 0, rev := R.rev + 1 })
      ∧ (¬ends → R.source = l → R.firstPending = true → t.log.recs.get i = { R with
        firstPending := false, endPending := false, logOnly := true, rev := R.rev + 1 })
      ∧ (¬ends → R.source ≠ l ∨ R.firstPending = false → t.log.recs.get i = R)

/-! ## Clips and the store (R122, R127, R129, R147) -/

/-- A clip made LOST (R122, R147). -/
def lostClip (R : Clip) : Clip :=
  { R with state := .lost, prior := none, firstPending := false, endPending := false, tally := 0, rev := R.rev + 1 }

/-- A FIRST_PENDING clip made LOG_ONLY (R129). -/
def logOnlyClip (R : Clip) : Clip :=
  { R with firstPending := false, endPending := false, logOnly := true, rev := R.rev + 1 }

/-- A clip that becomes LOST when an enabled store is disabled: one that is SENDING (R170), or an OPEN, CLOSED or SENT one
with its first unit resolved (R119, R129). -/
def LostWithStore (R : Clip) : Prop :=
  R.state = .sending ∨ (R.first.isSome = true ∧ (R.state = .opened ∨ R.state = .closed ∨ R.state = .sent))

/-- The clip log after an enabled store has been disabled: those clips are LOST and their open-clip pointers clear, the
other FIRST_PENDING ones LOG_ONLY, and every other record, every other pointer and the numbers stand. -/
def StoreDropped (s t : State) : Prop :=
  t.log = { s.log with recs := t.log.recs, opens := t.log.opens }
    ∧ (∀ i R, R = s.log.recs.get i →
      (LostWithStore R → t.log.recs.get i = lostClip R)
      ∧ (¬LostWithStore R → R.firstPending = true → t.log.recs.get i = logOnlyClip R)
      ∧ (¬LostWithStore R → R.firstPending = false → t.log.recs.get i = R))
    ∧ ∀ src,
      ((∃ i R, R = s.log.recs.get i ∧ LostWithStore R ∧ R.state = .opened ∧ R.source = src) →
        t.log.opens.get src = none)
      ∧ ((∀ i R, R = s.log.recs.get i → LostWithStore R → R.state = .opened → R.source ≠ src) →
        t.log.opens.get src = s.log.opens.get src)

/-- A clip after a new index entry of lane `l`, when one has joined behind those of `before`, has given it its first unit
(R127). -/
def firstResolved (l : Fin 4) (new : Option IndexEntry) (before : List IndexEntry) (R : Clip) : Clip :=
  match new with
  | none => R
  | some x =>
    if R.firstPending = true ∧ R.source = l ∧ atOrBefore R.inFrame x.frame = true then
      { R with
        first := some (x.seq, x.cell), firstPending := false, rev := R.rev + 1
        prerollShort := R.prerollShort || (decide (x.frame ≠ R.inFrame)
          && before.all fun o => decide (o.frame = R.inFrame) || !atOrBefore o.frame R.inFrame) }
    else R

/-- A clip after a row of lane `l` and running frame `frame` has been stored: its first unit by a new index entry (R127),
and then its row tally (R147). -/
def rowStored (l : Fin 4) (frame : W32) (new : Option IndexEntry) (before : List IndexEntry) (R : Clip) : Clip :=
  let X := firstResolved l new before R
  if X.source = l ∧ X.first.isSome = true ∧ atOrBefore X.inFrame frame = true ∧ (X.state = .opened
      ∨ (X.state = .closed ∧ X.endPending = true ∧ (X.out.map fun o => atOrBefore frame o.1) = some true)) then
    { X with tally := X.tally + 1 }
  else X

/-! ## Records changed and mirrored (R122, R127, R128, R129, R147, R148) -/

/-- Each record that satisfies `P` changed by `f`, with its revision risen, and one mirror write for each in index order
(R148; log 16). -/
def changedWhere (P : Clip → Bool) (f : Clip → Clip) (s : State) : State :=
  let g : Clip → Clip := fun R => if P R = true then { f R with rev := R.rev + 1 } else R
  { s with
    log := { s.log with recs := s.log.recs.map g }
    ins := match ap .log s with
      | none => s.ins
      | some a => { s.ins with holds := s.ins.holds.modify 0 fun h =>
          h ++ (((List.finRange 256).filter fun i => P (s.log.recs.get i)).map fun i =>
            ⟨.write (a.base + 64 * i.val) (clipRecord (g (s.log.recs.get i))), .nothing⟩) } }

/-- A clip whose last unit is the most recent stored one `last` (R128, R129, R147). -/
def endedClip (last : W32 × Nat) (R : Clip) : Clip :=
  { R with last := some last, endPending := false, rowsStored := min (R.rowsStored + R.tally) (2 ^ 32 - 1), tally := 0 }

/-- A frame start of lane `l` with frame number `n` has resolved the ends that waited for it (R128). -/
def endsResolved (l : Fin 4) (n : W32) (s : State) : State :=
  changedWhere (fun R => R.endPending && decide (R.source = l) && R.out.any fun o => isAfter n o.1)
    (fun R => if R.first.isSome = true then endedClip (lastStored s) R else logOnlyClip R) s

/-- Lane `l` has stopped recording (R60, R61, R129): its OPEN and CLOSED clips (log 30) with a first unit and no last one
have their last unit, and after them (log 50) its FIRST_PENDING ones are LOG_ONLY. -/
def recordingEnded (l : Fin 4) (s : State) : State :=
  changedWhere (fun R => R.firstPending && decide (R.source = l)) logOnlyClip
    (changedWhere (fun R => decide (R.source = l) && R.first.isSome && R.last.isNone
        && (decide (R.state = .opened) || decide (R.state = .closed))) (endedClip (lastStored s)) s)

/-- The clip of record `i` is LOST (R122, R147): its marks and tally are gone, an OPEN clip's pointer is cleared, CLIP_LOST
is raised with the state just left and the source, and the record is mirrored. -/
def lostAt (i : Fin 256) (s : State) : State :=
  let R := s.log.recs.get i
  mirror i (raise .clipLost R.num [b1 R.state.code, b1 R.source.val] { s with log := { s.log with
    recs := s.log.recs.set i { lostClip R with rev := R.rev }
    opens := if R.state = .opened then s.log.opens.set R.source none else s.log.opens } })

/-- `is` names the records that satisfy `P`, oldest first unit first as seen from the sequence `seq`, the lower index of
two with one first unit (R122; log 16). -/
def OldestFirst (seq : W32) (P : Clip → Prop) (s : State) (is : List (Fin 256)) : Prop :=
  let age : Fin 256 → Nat := fun i => dist (((s.log.recs.get i).first.map (·.1)).getD 0) seq
  (∀ i, i ∈ is ↔ P (s.log.recs.get i)) ∧ is.Pairwise fun i j => age j < age i ∨ (age i = age j ∧ i < j)

/-- From `s` to `t` the units of the sequences named have left, in this order, and each has made LOST the OPEN, CLOSED and
SENT clips whose first unit is at or before it (R122). -/
def LostBy : List W32 → State → State → Prop
  | [], s, t => t = s
  | q :: qs, s, t => ∃ is, OldestFirst q (fun R => (R.state = .opened ∨ R.state = .closed ∨ R.state = .sent)
      ∧ ∃ f, R.first = some f ∧ atOrBefore f.1 q = true) s is ∧ LostBy qs (is.foldl (fun y i => lostAt i y) s) t

/-- The store has gone from `s` to `t` with everything in it (R119, R129, R130): the OPEN, CLOSED and SENT clips with their
first unit resolved are LOST, oldest first unit first (log 46), and after them (log 50) the FIRST_PENDING ones are
LOG_ONLY. -/
def StoreClipsLost (s t : State) : Prop :=
  ∃ is, OldestFirst s.store.nextSeq (fun R => R.first.isSome = true
      ∧ (R.state = .opened ∨ R.state = .closed ∨ R.state = .sent)) s is
    ∧ t = changedWhere (·.firstPending) logOnlyClip (is.foldl (fun y i => lostAt i y) s)

/-- A new index entry `x` of lane `l`, behind those of `before`, has given its first unit to each FIRST_PENDING clip of the
lane with an in-frame at or before it (R127). -/
def firstUnitsTaken (l : Fin 4) (x : IndexEntry) (before : List IndexEntry) (s : State) : State :=
  changedWhere (fun R => R.firstPending && decide (R.source = l) && atOrBefore R.inFrame x.frame)
    (firstResolved l (some x) before) s

/-- The clips that a unit of source `src` and running frame `frame` marks GAP when it is refused (R123). -/
def gapsMarked (src : Option (Fin 4)) (frame : W32) (s : State) : State :=
  changedWhere (fun R => R.last.isNone && atOrBefore R.inFrame frame && !R.gap
      && (decide (R.state = .opened) || (decide (R.state = .closed) && R.endPending))
      && src.all fun l => decide (R.source = l))
    (fun R => { R with gap := true }) s

/-! ## Transfers ended (R166, R169, R170) -/

/-- The active transfer, of entry `e`, has let go of its unit (R169): an offer it is PAUSED on is withdrawn from the path,
its read entries have left the engine's hold, the read buffer is empty, and no data still to come has its tag. -/
def letGoOf (e : Send) (s : State) : State :=
  { s with
    home := if s.xfer.paused = true then
        { s.home with paths := s.home.paths.modify e.path fun P => { P with heldOffer := none } }
      else s.home
    ins := { s.ins with holds := s.ins.holds.set byTransfer [] }
    xfer := { s.xfer with buffer := [], issued := false, paused := false, tag := s.xfer.tag + 1 } }

/-- The clip of record `i` has its prior state again and is mirrored, and then TRANSFER_ENDED is raised for its entry with
a reason's code, the path, and the counts (R169, R170; log 48). -/
def endedTo (code : Nat) (e : Send) (placed remaining : Nat) (i : Fin 256) (s : State) : State :=
  let R := s.log.recs.get i
  raise .transferEnded e.clip [b1 code, b1 e.path.val, b4 placed, b4 remaining] (mirror i { s with
    log := { s.log with recs := s.log.recs.set i { R with state := R.prior.getD .closed, prior := none } } })

/-- The entries `rest` are left, and the first of them becomes active (R166). -/
def nextActive (rest : List Send) (s : State) : State :=
  goOn (activate { s with xfer := { s.xfer with queue := rest } })

/-- The clip that entry `e` names has the range `first` to `last`, and its first unit is retained and selected (R166). -/
def ReadsFirst (e : Send) (first last : W32) (s : State) : Prop :=
  ∃ i R r u, findClip e.clip s = some i ∧ R = s.log.recs.get i ∧ R.first.map (·.1) = some first
    ∧ R.last.map (·.1) = some last ∧ last - first + 1 ≠ 0 ∧ retainedOf first s = some (r, u) ∧ R.selects u = true

/-- What `nextActive` does after the state `v`, with ranges as they stood in `s`: with nothing left the engine is idle
(log 27), and a clip whose first unit is retained and selected is read from there, its counts 0. -/
def NextStarts (rest : List Send) (s v : State) : Prop :=
  (rest = [] → nextActive rest v = { v with xfer := { Transfer.reset with tag := v.xfer.tag + 1 } })
    ∧ ∀ f fs a b, rest = f :: fs → ReadsFirst f a b s → nextActive rest v = { v with xfer := { v.xfer with
      queue := rest, cursor := a, remaining := (b - a + 1).toNat, paused := false, issued := false, buffer := []
      placed := 0, skipped := 0, oversize := 0, tag := v.xfer.tag + 1 } }

/-- Every transfer has ended beneath the engine (R170), in queue order: the active one has let go of its unit, each has
raised TRANSFER_ENDED with a reason's code, the path and its counts, 0 for a queued one, its clip is LOST, and the engine
is idle (log 27). `idx` gives each entry its clip's record. -/
def allEnded (code : Nat) (idx : Send → Fin 256) (s : State) : State :=
  match s.xfer.queue with
  | [] => s
  | e :: es =>
    let v := (e :: es).foldl (fun y x => lostAt (idx x) (raise .transferEnded x.clip [b1 code, b1 x.path.val,
      b4 (if x = e then s.xfer.placed.toNat else 0), b4 (if x = e then s.xfer.remaining else 0)] y)) (letGoOf e s)
    { v with xfer := { Transfer.reset with tag := v.xfer.tag + 1 } }

/-! ## The clock, the cues and the mixer at a tick (R16 to R18, R26, R77, R82 to R85, R88, R153, R158) -/

/-- The clock as a frame opens (R17, R18, R26): the count risen, the offset moved where it passes to 0, and a pending rate
in force on the frame already counted (log 19), its timecode carried over at the same time of day. -/
def openedClock (c : Clock) : Clock :=
  let n := c.frame + 1
  let d := Config.framesPerDay c.rate
  let o := if n = 0 then (c.offset + 2 ^ 32 % d) % d else c.offset
  match c.pendingRate with
  | none => { c with frame := n, offset := o }
  | some r =>
    let tc := (n.toNat + o) % d * Config.framesPerSecond r / Config.framesPerSecond c.rate
    { c with
      frame := n, rate := r, pendingRate := none
      offset := (((tc : Int) - n.toNat) % (Config.framesPerDay r : Int)).toNat }

/-- The clock after a tick: the next position, and the interval count risen (R16, R21). -/
def clockAdvanced (c : Clock) : Clock :=
  { c with
    pos := if c.pos + 1 < 48000 / Config.framesPerSecond c.rate then c.pos + 1 else 0
    interval := min (c.interval + 1) 65535 }

/-- How far ahead of the current timecode a cue is due, in a day of the rate in force (R153). -/
def framesAhead (x : Cue) (s : State) : Nat := (x.dueTc + dayFrames s - timecode s) % dayFrames s

/-- A cue that a rebasing finds past (R153, R158): due at D or more, at the current timecode, or behind it by less than the
lookback window. -/
def skips (x : Cue) (s : State) : Bool :=
  decide (dayFrames s ≤ x.dueTc ∨ framesAhead x s = 0 ∨ dayFrames s - Config.lookback s.clock.rate < framesAhead x s)

/-- The table `new` is `old` rebased (R158): the skipped entries gone, the others with their due frames reckoned anew and no
late mark, in order of these, and those of one due frame in their order from before. -/
def Rebased (old new : List Cue) (s : State) : Prop :=
  let kept := (old.filter fun x => !skips x s).map fun x =>
    { x with due := s.clock.frame + BitVec.ofNat 32 (framesAhead x s), late := false }
  (∀ n, (new.filter fun x => decide (x.due = n)) = kept.filter fun x => decide (x.due = n))
    ∧ new.Pairwise fun x y => dist s.clock.frame x.due ≤ dist s.clock.frame y.due

/-- The inputs settled at a tick, in index order (R77; log 44), after the arms of the buses at a frame tick (R84). -/
def inputsSettled (opening : Bool) (s : State) : State :=
  (List.finRange 4).foldl (fun y n => settleInput n y)
    (if opening = true then { s with snd := { s.snd with buses := s.snd.buses.map fun B =>
      { B with arm := B.arm || !B.satMark, satMark := false } } } else s)

/-- The mixer's share of a tick at position `pos` up to the accumulator's (R77, R82 to R85, R88): the inputs and then the
buses settled, each tap's ramp step taken, the monitor record written. -/
def mixedAt (pos : Nat) (opening : Bool) (s : State) : State :=
  let v := inputsSettled opening s
  let w := (List.finRange 8).foldl (fun y b => settleBus pos b y) v
  monitorWrite ((List.finRange 8).map fun b => busOutput b v.snd)
    { w with snd := { w.snd with taps := w.snd.taps.map Tap.stepped } }

/-! ## The writes of notices and of clip records (R148, R178) -/

/-- An entry that is a write of a notice's: its record, in a slot of NOTICES, or the written count at its base. -/
def NoticeWrite (s : State) (x : InsEntry) : Prop :=
  ∃ z d, ap .notices s = some z ∧ ((x = ⟨.write z.base d, .nothing⟩ ∧ d.length = 8)
    ∨ ∃ k, k < noticeSlots z.size ∧ x = ⟨.write (z.base + 64 + 32 * k) d, .nothing⟩ ∧ d.length = 32)

/-- An entry that is a mirror write: a clip record, at its place in LOG. -/
def MirrorWrite (s : State) (x : InsEntry) : Prop :=
  ∃ z i R, ap .log s = some z ∧ x = ⟨.write (z.base + 64 * (i : Fin 256).val) (clipRecord R), .nothing⟩

/-! ## The end of the start-up load (R172, R173) -/

/-- The start-up load has ended from `s` with a result and an error place: COMMANDS is SET at the base loaded, every MARK
pin takes the level it shows as confirmed and last sampled (R131), and the header stands last in the control block's
hold with the cause POWER_ON (R173; log 12). Nothing else has changed. -/
def LoadEnded (result : LoadResult) (err : Nat) (levels : BitVec 12) (s t : State) : Prop :=
  t = { s with
      ctl := { s.ctl with loader := .ended, loadResult := result, loadErr := err }
      aps := { s.aps with map := s.aps.map.set 0 (some ⟨s.ctl.cmdBase, 4096⟩) }
      pins := t.pins
      ins := { s.ins with holds := s.ins.holds.modify 0 fun h =>
        h ++ [⟨.write s.ctl.cmdBase (headerRecord { t.ctl with cause := .powerOn }), .nothing⟩] } }
    ∧ ∀ p : Fin 12, t.pins.get p = if (s.pins.get p).fn = .mark then
        { s.pins.get p with confirmed := levels.getLsbD p.val, last := levels.getLsbD p.val } else s.pins.get p

/-! ## The answer to a command (R175) -/

/-- The command at the head of the command queue is `c`. -/
def AtHead (c : Command) (s : State) : Prop := ∃ rest, s.ctl.queue = c :: rest

/-- A state after a command of slot `c.slot` has been answered with `r`: the entry has left the queue, the slot's mark is
clear, and the eight bytes of the result write stand last in the control block's hold (R175). -/
def answered (c : Command) (r : Result) (s : State) : State :=
  { s with
    ctl := { s.ctl with queue := s.ctl.queue.tail, marks := s.ctl.marks.set c.slot false }
    ins := { s.ins with
      holds := s.ins.holds.modify 0 fun h =>
        h ++ [⟨.write (((ap .commands s).map (·.base)).getD 0 + 64 + 64 * c.slot.val + 56) (goWord c.code r),
          .nothing⟩] } }

/-- DRAM, the memory path's port, the insert queue and the queue of waiting commands: what no host command changes. -/
def PathKept (s t : State) : Prop :=
  t.pending = s.pending ∧ t.dram = s.dram ∧ t.port = s.port ∧ t.ins.queue = s.ins.queue ∧ t.ins.turn = s.ins.turn

end Sys2Proof.Safety
end

