-- ==== Sys2Proof/Certificates/Slice0/Obligations.lean ====
section
/-! DEFINITION. The statements for the provers, each a proposition about the model; OBLIGATIONS.json says of each what it
formalises. -/

open Sys2Proof Sys2Proof.Machine Sys2Proof.Safety

/-- For every state whose queue of waiting commands is c followed by rest, step answers what exec answers to c on the
state with the queue rest. With an empty queue step answers the state itself (the model's choice, log 2). The
queue is the model's own; it holds the events of the table in the order in which they come. (R1, R175) -/
def Obligations.StepRunsTheFrontCommand : Prop :=
  (∀ s c rest, s.pending = c :: rest → step s = exec c { s with pending := rest })
    ∧ ∀ s, s.pending = [] → step s = .next s

/-- Every command that is well-formed is answered with a next state in every state. An upstream request whose length
is not 1 to 256 bytes is refused with malformedRequest, and one whose last byte lies beyond the 40-bit address
space stops with the fault outsideAddressSpace: these are the only commands that are not well-formed. That such a
request stops the model is the model's choice (log 25). (R1, R175, 00_scope.md) -/
def Obligations.OnlyMalformedRequestsStop : Prop :=
  (∀ c s, c.wf = true → ∃ t, exec c s = .next t)
    ∧ (∀ r s, r.lengthOk = false → exec (.requestAccept r) s = .refused .malformedRequest)
    ∧ ∀ r s, r.lengthOk = true → r.inSpace = false → exec (.requestAccept r) s = .fault .outsideAddressSpace

/-- Whatever the command, a next state has the same queue of waiting commands. DRAM is the same after every command
but DOWNSTREAM_GRANT, READ_SERVED and STORE_READ_SERVED, after which granted writes may have reached it. That
granted writes land at exactly these three rows is the model's choice (log 9), and that POWER_ON_RESET keeps DRAM
and the waiting commands is the model's reading (log 40). (R2, R12, R13) -/
def Obligations.OnlyTheMemoryPathChangesDram : Prop :=
  ∀ c s t, exec c s = .next t →
    t.pending = s.pending
      ∧ (c ≠ .downstreamGrant → c ≠ .readServed → c ≠ .storeReadServed → t.dram = s.dram)

/-- Right after reset DRAM is in canonical form, and the invariants of the aperture map, the clock, the lanes, the
selector, the notices, the cue table, the clip log with the send queue, the home paths and the frame indexes hold,
and no entry, tag or offer of a path is without cells. (R14, R28, R56, R62, R94, R96, R125, R138, R139, R151,
R171, R180) -/
def Obligations.ResetMeetsEveryInvariant : Prop :=
  DramOk State.reset ∧ MapOk State.reset ∧ ClockOk State.reset ∧ LanesOk State.reset ∧ SelectorOk State.reset
    ∧ NoticesOk State.reset ∧ CuesOk State.reset ∧ LogOk State.reset ∧ PathsOk State.reset ∧ HasCells State.reset ∧ IndexOk State.reset

/-- From every state whose DRAM is listed with strictly rising addresses and no byte equal to what an unlisted address
reads as, a step that answers a next state leaves DRAM so. The form is the model's own; the bytes written are
those of R2 and R13. (R2, R13) -/
def Obligations.DramStaysCanonical : Prop :=
  KeptByStep DramOk

/-- From every state in which each SET entry is 4096-aligned, of a legal size, inside the 40-bit space and apart from
every other SET entry, in which COMMANDS when SET has 4096 bytes, and in which a running start-up load has every
entry UNSET, no waiting command and a base that is a whole block, a step that answers a next state leaves all of
this so. (R4, R5, R6, R7, R172) -/
def Obligations.MapStaysLegal : Prop :=
  KeptByStep MapOk

/-- From every state whose tick position is below the ticks per frame of the rate, whose offset is below D, whose
pulse run and miss count are at most 2, whose miss count is at most 1 while LOCKED and whose holding counts are at
most 65 535, a step that answers a next state leaves this so, whatever rate change takes effect. (R16, R18, R21,
R24) -/
def Obligations.ClockStaysInRange : Prop :=
  KeptByStep ClockOk

/-- The law of R56 holds right after power-on reset, and every step keeps it: from any state in which it holds for all
four lanes, a step that answers a next state gives a state in which it holds for all four lanes. A lane that is
disabled is under no law until SET_LANE enables it. (R56) -/
def Obligations.EnabledLanesKeepTheRateLaw : Prop :=
  LanesOk State.reset ∧ KeptByStep LanesOk

/-- From every state whose programme lane, when not none, is enabled and whose pending lane, when not none, is enabled
and differs from the programme lane, a step that answers a next state leaves both so. (R62, R65) -/
def Obligations.SelectorStaysLegal : Prop :=
  KeptByStep SelectorOk

/-- From every state in which the unreleased notices number the written count less the released count, that number is
at most the slot count (0 while NOTICES is UNSET), and ATTN is high exactly when an unreleased notice has a kind
in the mask, a step that answers a next state leaves all of this so. (R180, R178, R179) -/
def Obligations.NoticesNeverExceedTheSlots : Prop :=
  KeptByStep NoticesOk

/-- From every state whose cue table has at most 32 entries, each due at least one and at most D − 1 frames after the
current running frame, in rising order of that distance, a step that answers a next state leaves the table so:
through frame ticks, firing, rate changes, rebasing and admissions. (R151, R153, R154, R158) -/
def Obligations.CueTableStaysInOrder : Prop :=
  KeptByStep CuesOk

/-- From every state in which the clip numbers of non-FREE records are distinct and non-zero and the next number is 1
to 65 535, an input's open-clip pointer names a clip exactly when that clip is OPEN with that source, and a clip
is SENDING exactly when an entry of the send queue (distinct, at most 8) names it, a step that answers a next
state leaves all of this so. (R138, R139, R171) -/
def Obligations.ClipLogStaysConsistent : Prop :=
  KeptByStep LogOk

/-- From every state in which, for each path, consumed ≤ published ≤ placed, placed less consumed is at most the
ring's cell count, all three are 0 while OFF, the unit list lies in order between consumed and placed, every
header write that will publish stands in its own path's hold with a value not beyond placed, and every entry,
pending tag and held offer has a cell (HasCells), a step that answers a next state leaves the counters, the lists
and the header writes so. The premise HasCells shuts out only states that no unit with a sound header leads to;
every step keeps it but that of STORE_READ_SERVED, which forms its replay unit to the length that DRAM holds in
the unit's header. (R96, R95, R101, R107, R104, R105) -/
def Obligations.PathCountersStayOrdered : Prop :=

  (∀ s t, PathsOk s → HasCells s → step s = .next t → PathsOk t)
    ∧ ∀ s t, HasCells s → (∀ rest, s.pending ≠ .storeReadServed :: rest) → step s = .next t → HasCells t


/-- From every state in which each frame-index entry names a retained row of its lane with its sequence, frame and
first cell, each index has at most 128 entries, and an OFF store retains nothing, a step that answers a next state
leaves all of this so. (R125, R119, R122) -/
def Obligations.IndexEntriesNameRetainedUnits : Prop :=
  KeptByStep IndexOk

/-- With a legal map, the pieces of a request of 1 to 256 bytes follow one another without a gap from its first byte
to its last. Each has a function exactly when it lies inside that function's SET aperture and lies outside every
other one; its offset is its distance from the aperture's base and it is guarded as its function guards that
range. Every piece but the first begins at a boundary of a SET aperture. The pieces of a write carry its bytes in
order, and those of a read read. (R3, R8) -/
def Obligations.RequestsAreCutAtApertureBoundaries : Prop :=
  ∀ s r id, MapOk s → r.lengthOk = true →
    Chained r.addr.toNat (piecesOf r id s) (r.addr.toNat + r.op.len)
      ∧ (∀ p ∈ piecesOf r id s, ∀ f a, ap f s = some a →
          (p.fn = some f →
            a.base ≤ p.addr ∧ p.addr + p.op.len ≤ a.base + a.size ∧ p.off = p.addr - a.base
              ∧ p.guarded = f.guards p.off p.op.len)
          ∧ (p.fn ≠ some f → p.addr + p.op.len ≤ a.base ∨ a.base + a.size ≤ p.addr))
      ∧ (∀ p ∈ piecesOf r id s, p.fn = none → p.guarded = false)
      ∧ (∀ p ∈ piecesOf r id s, ∀ f, p.fn = some f → (ap f s).isSome = true)
      ∧ (∀ p ∈ piecesOf r id s, p.addr = r.addr.toNat
          ∨ ∃ f a, ap f s = some a ∧ (p.addr = a.base ∨ p.addr = a.base + a.size))
      ∧ (∀ d, r.op = .write d → (piecesOf r id s).flatMap pieceData = d)
      ∧ ∀ p ∈ piecesOf r id s, opWrites p.op = opWrites r.op ∧ p.initiator = r.initiator

/-- The port can accept a request when the link is up, fewer than 64 entries stand in the insert queue and the in-
flight list has room for all of its pieces among 16. With no request held, a read of legal length and range that
can be accepted is: its pieces join the in-flight list in address order with rising serials, it is open until all
are served, and nothing else changes. One that cannot is held and nothing else changes (for a link that is down
this is log 7, the model's reading); behind a held request that cannot be accepted any request is held. The end of
a command that brings room (log 8) accepts the held requests oldest first, each before the next is judged, until
one cannot be accepted. (R1, R3, R15) -/
def Obligations.ReadRequestsEnterTheInFlightList : Prop :=
  (∀ s r n, r.op = .read n → r.lengthOk = true → r.inSpace = true → s.port.held = [] →
    exec (.requestAccept r) s = .next
      (if canAccept r s = true then
        { s with port := { s.port with
            inflight := s.port.inflight ++ numbered s.port.nextPiece (piecesOf r s.port.nextReq s)
            nextPiece := s.port.nextPiece + (piecesOf r s.port.nextReq s).length
            nextReq := s.port.nextReq + 1
            opens := s.port.opens
              ++ [⟨s.port.nextReq, r.initiator, true, (piecesOf r s.port.nextReq s).length, []⟩] } }
      else { s with port := { s.port with held := [r] } }))
    ∧ (∀ s r h rest, r.lengthOk = true → r.inSpace = true → s.port.held = h :: rest → canAccept h s = false →
      exec (.requestAccept r) s = .next { s with port := { s.port with held := s.port.held ++ [r] } })
    ∧ (∀ s r, canAccept r s = true ↔ s.port.linkUp = true ∧ s.ins.queue.length < 64
        ∧ s.port.inflight.length + (piecesOf r s.port.nextReq s).length ≤ 16)
    ∧ (∀ s, (∀ h rest, s.port.held = h :: rest → canAccept h s = false) → acceptHeld s = s)
    ∧ ∀ s h rest, s.port.held = h :: rest → canAccept h s = true →
        acceptHeld s = acceptHeld (acceptRequest h { s with port := { s.port with held := rest } })

/-- With no request held and a write that can be accepted, of any number of pieces: the request is open for its
unguarded pieces, or answered at once when it has none, and then its pieces are taken in address order. A guarded
piece raises its function's guard tally, holding at 65 535, which keeps the initiator and offset of the first. Any
other is in flight with the next serial, and one of no function does nothing more; one of PICTURE or SOUND is
handed to the lane or input, one of NOTICES is a release word or nothing, one of COMMANDS goes to the shadow. The
shadow takes the bytes up to offset 1087. Then each slot whose go word's first byte is covered, with a code other
than 0: with a clear mark its command joins the queue with its own copy of the slot and the mark is set, and with
a set mark COMMAND_IGNORED is raised with the code, in address order (log 49, the model's reading); a piece that
covers no go word, or leaves a code 0, changes the shadow alone. Written out whole: a write that lies in the
guarded part of one aperture, and a write of the 64 bytes of one slot. (R1, R3, R8, R9, R10, R174) -/
def Obligations.GuardedWritesAndCommandSlotsAreTaken : Prop :=
  ((∀ s r d f a, MapOk s → s.port.held = [] → r.lengthOk = true → r.inSpace = true → r.op = .write d →
    ap f s = some a → a.base ≤ r.addr.toNat → r.addr.toNat + d.length ≤ a.base + a.size →
    f.guards (r.addr.toNat - a.base) d.length = true → canAccept r s = true →
    exec (.requestAccept r) s = .next
      { s with
        port := { s.port with
          nextReq := s.port.nextReq + 1
          answers := s.port.answers ++ [⟨s.port.nextReq, r.initiator, false, []⟩] }
        aps := { s.aps with
          guards := s.aps.guards.modify f.num fun g =>
            if g.count = 0 then ⟨1, r.initiator, r.addr.toNat - a.base⟩
            else { g with count := min (g.count + 1) 65535 } } })
    ∧ (∀ s (r : Request) d a (n : Fin 16), MapOk s → s.port.held = [] → r.op = .write d → d.length = 64 →
    ap .commands s = some a → r.addr.toNat = a.base + 64 + 64 * n.val → d.getD 56 0 ≠ 0 →
    s.ctl.marks.get n = false → canAccept r s = true →
    exec (.requestAccept r) s = .next
      { s with
        port := { s.port with
          inflight := s.port.inflight
            ++ [⟨s.port.nextReq, s.port.nextPiece, some .commands, false, 64 + 64 * n.val, r.addr.toNat, r.initiator,
                .write d⟩]
          nextPiece := s.port.nextPiece + 1
          nextReq := s.port.nextReq + 1
          opens := s.port.opens ++ [⟨s.port.nextReq, r.initiator, false, 1, []⟩] }
        ctl := { s.ctl with
          shadow := putShadow (64 * n.val) d s.ctl.shadow
          queue := s.ctl.queue ++ [⟨n, d⟩]
          marks := s.ctl.marks.set n true } }))
    ∧ (∀ s (r : Request) d, s.port.held = [] → r.lengthOk = true → r.inSpace = true → r.op = .write d →
        canAccept r s = true → ∀ ps left, ps = piecesOf r s.port.nextReq s →
        left = (ps.filter fun p => !p.guarded).length →
        ∃ v : Nat → State, exec (.requestAccept r) s = .next (v ps.length)
          ∧ v 0 = { s with port := { s.port with
              nextReq := s.port.nextReq + 1
              opens := if left = 0 then s.port.opens
                else s.port.opens ++ [⟨s.port.nextReq, r.initiator, false, left, []⟩]
              answers := if left = 0 then s.port.answers ++ [⟨s.port.nextReq, r.initiator, false, []⟩]
                else s.port.answers } }
          ∧ ∀ i p u, ps[i]? = some p →
              u = { v i with port := { (v i).port with
                inflight := (v i).port.inflight ++ [{ p with serial := (v i).port.nextPiece }]
                nextPiece := (v i).port.nextPiece + 1 } } →
              (p.fn = none → v (i + 1) = u)
              ∧ ∀ f, p.fn = some f →
                (p.guarded = true → v (i + 1) = { v i with aps := { (v i).aps with
                  guards := (v i).aps.guards.modify f.num fun g =>
                    if g.count = 0 then ⟨1, r.initiator, p.off⟩ else { g with count := min (g.count + 1) 65535 } } })
                ∧ (p.guarded = false → ∀ b, p.op = .write b →
                  (∀ l, f = .picture l → v (i + 1) = takePicture l p.off b u)
                  ∧ (∀ n, f = .sound n → v (i + 1) = { u with snd := { u.snd with
                      inputs := u.snd.inputs.modify n fun X => X.take (apSize (.sound n) s) p.off b } })
                  ∧ (f = .notices → v (i + 1) =
                      if p.off = 8 ∧ b.length = 8 ∧ r.initiator = u.ctl.controlInit ∧ u.ctl.mode = .write
                        ∧ u.ctl.released ≤ ofLe b ∧ ofLe b ≤ u.ctl.written then
                      { u with ctl := { u.ctl with
                        released := ofLe b, unreleased := u.ctl.unreleased.drop (ofLe b - u.ctl.released)
                        attn := (u.ctl.unreleased.drop (ofLe b - u.ctl.released)).any fun x =>
                          u.ctl.mask.getLsbD x.num } }
                      else u)
                  ∧ (f = .commands → v (i + 1) = takeCommands p.off b u)))
    ∧ ∀ s off b (bs : List Byte) (sh : Table Byte 1024) (code : Fin 16 → Nat) (covered came ignored : List (Fin 16)),
        64 ≤ off → bs = b.take (1088 - off) →
        (∀ j, j < 1024 → sh.items.getD j 0 = if off - 64 ≤ j ∧ j < off - 64 + bs.length then bs.getD (j - (off - 64)) 0
          else s.ctl.shadow.items.getD j 0) →
        (∀ n, code n = (sh.items.getD (64 * n.val + 56) 0).toNat) →
        covered = (List.finRange 16).filter (fun n =>
          decide (off ≤ 120 + 64 * n.val ∧ 120 + 64 * n.val < off + b.length ∧ code n ≠ 0)) →
        came = covered.filter (fun n => !s.ctl.marks.get n) → ignored = covered.filter (fun n => s.ctl.marks.get n) →
        takeCommands off b s = ignored.foldl (fun t n => raise .commandIgnored n.val [b1 (code n)] t)
          { s with ctl := { s.ctl with
            shadow := sh
            queue := s.ctl.queue ++ came.map fun n => ⟨n, slice (64 * n.val) 64 sh.items⟩
            marks := Table.ofFn fun n => s.ctl.marks.get n || decide (n ∈ came) } }

/-- An accepted write that lies in lane l's aperture is in flight and handed to the lane. A disabled lane takes
nothing. WAITING: an odd piece counts a skew and raises SKEW ODD with expected offset 0 and rows 0 (log 31, the
model's reading); one that does not begin at a slot is a stray; one that does starts a frame with the current
frame number and timecode, in this order (that the selector acts before the store is log 43, the model's choice):
a pending switch to the lane completes, with PROGRAM_SWITCHED of result 0, the lane left and the frame number; the
store's open mark is set; each clip of the lane waiting for its end before this frame takes the last stored unit
and its tally, or becomes LOG_ONLY, and is mirrored, in index order (endsResolved; log 16, the model's choice);
then the lane takes the bytes from there. IN_FRAME: an even piece at the expected offset fills the row; each full
line is a ROW COMPLETE (RowsAreCountedChargedAndOffered), the last row ends the frame and what is left of the
piece is one stray. Any other piece abandons the frame: the skew count rises, the lane's open clip counts a
damaged frame, holding at 65 535, and is mirrored, also when it holds already (log 53, the model's choice), and
then (the order is log 52, the model's reading) SKEW is raised with ODD 2, RESTART 1 or OFFSET 0, both offsets and
the rows coded; at a slot start the piece then starts a frame. The most recent stored unit is the sequence before
the next and the first cell of the last retained unit (0 with none retained: log 33). (R33, R34, R35, R36, R37,
R38, R39, R64, R128, R147, R148) -/
def Obligations.PictureWritesDriveTheIntake : Prop :=
  (∀ s r l off d, Observed (.picture l) off d r s →
    exec (.requestAccept r) s = .next (takePicture l off d (inFlight (.picture l) off d r s)))
  ∧ (∀ s l off d, (s.lanes.get l).intake = .disabled → takePicture l off d s = s)
  ∧ (∀ s l off d L g, L = s.lanes.get l → L.geom = some g → 16 ≤ g.width → 1 ≤ g.lines → L.intake = .waiting →
    (off % 2 = 1 ∨ d.length % 2 = 1 → takePicture l off d s
        = raise .skew l.val [b1 2, b5 0, b5 off, b4 0] { s with lanes := s.lanes.set l { L with skews := L.skews + 1 } })
    ∧ (off % 2 = 0 → d.length % 2 = 0 → (∀ k, k < g.slots → off ≠ k * (g.width * g.lines * 2)) →
      takePicture l off d s = { s with lanes := s.lanes.set l { L with strays := L.strays + 1 } })
    ∧ ∀ k, k < g.slots → off = k * (g.width * g.lines * 2) → d.length % 2 = 0 →
      ∀ u w x v, u = { s with lanes := (s.lanes.set l
            { L with intake := .inFrame k off 0 [], frameNo := s.clock.frame, frameTc := timecode s }) } →
        w = (if s.sel.waiting = some l then
            raise .programSwitched l.val [b1 0, b1 (laneCode s.sel.programme), b4 s.clock.frame.toNat]
              { u with sel := { s.sel with programme := some l, waiting := none } }
          else u) →
        x = { w with store := { s.store with openMark := s.store.openMark.set l true } } →
        v = endsResolved l s.clock.frame x →
        takePicture l off d s = takePicture l off d v
        ∧ ∀ i R, R = s.log.recs.get i →
          (R.endPending = true → R.source = l → ∀ o, R.out = some o → isAfter s.clock.frame o.1 = true →
            (R.first.isSome = true → v.log.recs.get i = { endedClip (lastStored s) R with rev := R.rev + 1 })
            ∧ (R.first.isSome = false → v.log.recs.get i = logOnlyClip R))
          ∧ (R.endPending = false ∨ R.source ≠ l ∨ (∀ o, R.out = some o → isAfter s.clock.frame o.1 = false) →
            v.log.recs.get i = R))
  ∧ ∀ s l off d L g slot expected j part, L = s.lanes.get l → L.geom = some g → 16 ≤ g.width → 1 ≤ g.lines →
    L.intake = .inFrame slot expected j part → ∀ odd, (odd ↔ off % 2 = 1 ∨ d.length % 2 = 1) →
    (¬odd → off = expected → d.length < g.width * 2 - part.length →
      takePicture l off d s
        = { s with lanes := s.lanes.set l { L with intake := .inFrame slot (expected + d.length) j (part ++ d) } })
    ∧ (¬odd → off = expected → part.length < g.width * 2 → g.width * 2 - part.length ≤ d.length →
      ∀ need w, need = g.width * 2 - part.length → w = rowComplete l j (part ++ d.take need) s →
        (j + 1 = g.lines → takePicture l off d s = { w with lanes := w.lanes.modify l fun M =>
            { M with intake := .waiting, strays := if d.length = need then M.strays else M.strays + 1 } })
        ∧ (j + 1 ≠ g.lines → part.length % 2 = 0 → ∀ v, v = { w with lanes := w.lanes.modify l fun M =>
            { M with intake := .inFrame slot (off + need) (j + 1) [] } } →
          takePicture l off d s = if d.length = need then v else takePicture l (off + need) (d.drop need) v))
    ∧ (odd ∨ off ≠ expected → ∀ start, (start ↔ ∃ k, k < g.slots ∧ off = k * (g.width * g.lines * 2)) →
      ∀ u v, u = { s with lanes := s.lanes.set l { L with intake := .waiting, skews := L.skews + 1 } } →
        v = (fun reason => raise .skew l.val [b1 reason, b5 expected, b5 off, b4 j] (reportDamage l u)) →
        (odd → takePicture l off d s = v 2)
        ∧ (¬odd → ¬start → takePicture l off d s = v 0)
        ∧ (¬odd → start → takePicture l off d s = takePicture l off d (v 1))
        ∧ (s.log.opens.get l = none → reportDamage l u = u)
        ∧ (NumbersOk s → PointersOk s → ∀ i R, R = s.log.recs.get i → R.state = .opened → R.source = l →
          reportDamage l u = mirror i { u with log := { s.log with recs := (s.log.recs.set i
            { R with damaged := min (R.damaged + 1) 65535 }) } }))
  ∧ ∀ s, ((∀ e ∈ s.store.retained, e.unit = none) → lastStored s = (s.store.nextSeq - 1, 0))
    ∧ ∀ pre e post, s.store.retained = pre ++ e :: post → e.unit.isSome = true → (∀ x ∈ post, x.unit = none) →
      lastStored s = (s.store.nextSeq - 1, e.start % storeCells s)


/-- An accepted write that lies in input i's aperture is in flight and handed to the input, which alone changes.
DISABLED takes nothing. SEEKING passes over a piece that does not begin at a frame boundary below the ring end,
and from a boundary is RUNNING there. RUNNING at another offset counts a skew, and then goes on from a boundary or
is SEEKING. RUNNING at the expected offset: bytes short of a sample frame join the partial frame; a full frame
replaces the slot, is fresh, counts an overrun when the slot was fresh, and is invalid when one of its words is;
at the ring end the input expects offset 0 and the rest of the piece is discarded, else the rest is taken from the
next offset. The value of word c is its low three bytes as a signed number; a frame is invalid when bit 7 of a
word's fourth byte is set. (R70, R73, R74, R75, R76) -/
def Obligations.SoundWritesFillTheSlots : Prop :=
  (∀ s r i off d, Observed (.sound i) off d r s → ∀ u, u = inFlight (.sound i) off d r s →
    exec (.requestAccept r) s = .next { u with snd := { u.snd with
      inputs := u.snd.inputs.modify i fun X => X.take (apSize (.sound i) s) off d } })
  ∧ (∀ X size off d, X.intake = .disabled → SoundInput.take X size off d = X)
  ∧ (∀ X size off d, X.intake = .seeking → 1 ≤ X.channels → ∀ C, C = X.channels * 4 →
    (off % C ≠ 0 ∨ size / C * C ≤ off → SoundInput.take X size off d = X)
    ∧ (off % C = 0 → off < size / C * C →
      SoundInput.take X size off d = SoundInput.take { X with intake := .running off [] } size off d))
  ∧ (∀ X size off d expected part, X.intake = .running expected part → off ≠ expected → 1 ≤ X.channels →
    ∀ C, C = X.channels * 4 →
    (off % C ≠ 0 ∨ size / C * C ≤ off →
      SoundInput.take X size off d = { X with skews := X.skews + 1, intake := .seeking })
    ∧ (off % C = 0 → off < size / C * C →
      SoundInput.take X size off d
        = SoundInput.take { X with skews := X.skews + 1, intake := .running off [] } size off d))
  ∧ (∀ X size off d part, X.intake = .running off part → ∀ need, need = X.channels * 4 - part.length →
    (d.length < need →
      SoundInput.take X size off d = { X with intake := .running (off + d.length) (part ++ d) })
    ∧ (1 ≤ need → need ≤ d.length → ∀ Y : SoundInput, Y = { X with
          slot := sampleWords (part ++ d.take need), fresh := true
          overruns := if X.fresh = true then X.overruns + 1 else X.overruns
          invalid := anyInvalid (part ++ d.take need) } →
      SoundInput.take X size off d =
        if off + need = size / (X.channels * 4) * (X.channels * 4) then { Y with intake := .running 0 [] }
        else if d.length = need then { Y with intake := .running (off + need) [] }
        else SoundInput.take { Y with intake := .running (off + need) [] } size (off + need) (d.drop need)))
  ∧ (∀ bs c, 4 * c + 4 ≤ bs.length →
    (sampleWords bs).getD c 0 = (BitVec.ofNat 24 (ofLe (slice (4 * c) 3 bs))).toInt)
  ∧ ∀ bs, (anyInvalid bs = true ↔ ∃ c, 4 * c + 4 ≤ bs.length ∧ (bs.getD (4 * c + 3) 0).getLsbD 7 = true)

/-- While NOTICES is UNSET or its ring full, a raised notice is lost: lost-before, holding at 65 535, and the lost
total rise, and nothing else changes. Otherwise its record is placed at slot written mod slots and the written
count plus one at offset 0, both in the control block's hold, lost-before is 0, the kind joins the unreleased
list, and ATTN is set anew. An accepted 8-byte write at offset 8 by the control initiator in WRITE mode, of a
count from released to written, releases up to it; every other accepted unguarded write of NOTICES only goes in
flight. A served read by the control initiator in READ mode that touches a byte of the last 8 of the slots of
unreleased notices releases up to the newest of them; any other served read of NOTICES releases nothing;
ServedReadsAnswerWithDram gives its answer and what lands behind it. (R178, R179, R180, R10, R11) -/
def Obligations.NoticesAreWrittenAndReleased : Prop :=
  (∀ s k subject items, (∀ a, ap .notices s = some a → a.size / 32 - 2 ≤ s.ctl.written - s.ctl.released) →
    raise k subject items s = { s with ctl := { s.ctl with
      lostBefore := min (s.ctl.lostBefore + 1) 65535, lostTotal := s.ctl.lostTotal + 1 } })
  ∧ (∀ s k subject items a, ap .notices s = some a → s.ctl.written - s.ctl.released < a.size / 32 - 2 →
    raise k subject items s = { s with
      ctl := { s.ctl with
        written := s.ctl.written + 1, lostBefore := 0, unreleased := s.ctl.unreleased ++ [k]
        attn := (s.ctl.unreleased ++ [k]).any fun x => s.ctl.mask.getLsbD x.num }
      ins := { s.ins with holds := s.ins.holds.modify 0 fun h => h
        ++ [⟨.write (a.base + 64 + 32 * (s.ctl.written % (a.size / 32 - 2)))
              (noticeRecord k subject s.ctl.lostBefore s.clock.frame (timecode s) items), .nothing⟩,
            ⟨.write a.base (le 8 (s.ctl.written + 1)), .nothing⟩] } })
  ∧ (∀ s r off d, Observed .notices off d r s → ∀ u, u = inFlight .notices off d r s →
    (off = 8 ∧ d.length = 8 ∧ r.initiator = s.ctl.controlInit ∧ s.ctl.mode = .write
        ∧ s.ctl.released ≤ ofLe d ∧ ofLe d ≤ s.ctl.written →
      exec (.requestAccept r) s = .next { u with ctl := { u.ctl with
        released := ofLe d, unreleased := s.ctl.unreleased.drop (ofLe d - s.ctl.released)
        attn := (s.ctl.unreleased.drop (ofLe d - s.ctl.released)).any fun x => s.ctl.mask.getLsbD x.num } })
    ∧ (¬(off = 8 ∧ d.length = 8 ∧ r.initiator = s.ctl.controlInit ∧ s.ctl.mode = .write
        ∧ s.ctl.released ≤ ofLe d ∧ ofLe d ≤ s.ctl.written) → exec (.requestAccept r) s = .next u))
  ∧ ∀ s p n a, s.port.granted = [.piece p] → p.op = .read n → 1 ≤ n → p.fn = some .notices → ap .notices s = some a →
    ∃ o, o = { s.port with granted := [], opens := o.opens, answers := o.answers }
    ∧ (p.initiator ≠ s.ctl.controlInit ∨ s.ctl.mode = .write → exec .readServed s = .next { s with port := o })
    ∧ (p.initiator = s.ctl.controlInit → s.ctl.mode = .read → ∀ touched : Nat → Prop,
      (∀ w, touched w ↔ ∃ b, p.off ≤ b ∧ b < p.off + n ∧ 88 + 32 * (w % (a.size / 32 - 2)) ≤ b
        ∧ b < 96 + 32 * (w % (a.size / 32 - 2))) →
      ((∀ w, s.ctl.released ≤ w → w < s.ctl.written → ¬touched w) → exec .readServed s = .next { s with port := o })
      ∧ ∀ w, s.ctl.released ≤ w → w < s.ctl.written → touched w → (∀ x, w < x → x < s.ctl.written → ¬touched x) →
        exec .readServed s = .next { s with
          port := o
          ctl := { s.ctl with
            released := w + 1, unreleased := s.ctl.unreleased.drop (w + 1 - s.ctl.released)
            attn := (s.ctl.unreleased.drop (w + 1 - s.ctl.released)).any fun x => s.ctl.mask.getLsbD x.num } })

/-- An entry is held back when it is a write and a write piece in flight, accepted before the entry joined, overlaps
its bytes. When the head of the insert queue is held back by no earlier fabric write, and 48 or more entries wait
or no piece is in flight, it is granted and leaves the queue. When the queue is empty, or its head is held back,
or fewer than 48 entries wait while a piece is in flight, the oldest piece is granted and leaves the list; a write
piece's request, wherever it stands among the open ones, is answered when it was the last piece and waits for one
piece less when not, the others as before. With nothing granted and unserved, a granted write is in DRAM, exactly
its bytes changing, and a read, be it a piece or a store read of the transfer engine (never held back), becomes
the one granted and not yet served. Behind a read that is not yet served any grant stands last among those granted
and DRAM stays as it is. Nothing else changes, and then held requests are accepted as room allows (log 8). That a
granted write is in DRAM when no read granted before it is unserved is the model's choice (log 9). (R1, R2, R12,
R13) -/
def Obligations.GrantsReachDramInOrder : Prop :=
  (∀ q ps, heldBack q ps = true ↔ ∃ a d, q.op = .write a d ∧ ∃ p ∈ ps, ∃ b, p.op = .write b ∧ p.serial < q.after
      ∧ a < p.addr + b.length ∧ p.addr < a + d.length)
    ∧ ((∀ s a d n rest, DramOk s → s.port.granted = [] →
    s.ins.queue = ⟨.write a d, n⟩ :: rest → heldBack ⟨.write a d, n⟩ s.port.inflight = false →
    (48 ≤ s.ins.queue.length ∨ s.port.inflight = []) →
    ∃ t, exec .downstreamGrant s = .next (acceptHeld t)
      ∧ t = { s with dram := t.dram, ins := { s.ins with queue := rest } }
      ∧ ∀ x, Mem.read t.dram x = if a ≤ x ∧ x < a + d.length then d.getD (x - a) 0 else Mem.read s.dram x)
    ∧ ∀ s p rest, DramOk s → s.port.granted = [] → s.port.inflight = p :: rest →
      (s.ins.queue = []
        ∨ ∃ e es, s.ins.queue = e :: es ∧ (heldBack e s.port.inflight = true ∨ s.ins.queue.length < 48)) →
      (∀ n, p.op = .read n →
        exec .downstreamGrant s
          = .next (acceptHeld { s with port := { s.port with inflight := rest, granted := [.piece p] } }))
      ∧ ∀ d o os qs, p.op = .write d → s.port.opens = os ++ o :: qs → o.id = p.req → 1 ≤ o.left →
          (∀ x ∈ os ++ qs, x.id ≠ p.req) →
        ∃ t, exec .downstreamGrant s = .next (acceptHeld t)
          ∧ t = { s with dram := t.dram, port := { s.port with
                    inflight := rest
                    opens := if o.left = 1 then os ++ qs else os ++ { o with left := o.left - 1 } :: qs
                    answers := if o.left = 1 then s.port.answers ++ [⟨o.id, o.initiator, o.isRead, o.data⟩]
                      else s.port.answers } }
          ∧ ∀ x, Mem.read t.dram x =
              if p.addr ≤ x ∧ x < p.addr + d.length then d.getD (x - p.addr) 0 else Mem.read s.dram x)
    ∧ (∀ s a n k rest, (∀ g gs, s.port.granted = g :: gs → writeOf g = none) → s.ins.queue = ⟨.read a n, k⟩ :: rest →
      48 ≤ s.ins.queue.length ∨ s.port.inflight = [] →
      exec .downstreamGrant s = .next (acceptHeld { s with
        ins := { s.ins with queue := rest }
        port := { s.port with granted := s.port.granted ++ [.entry (.read a n)] } }))
    ∧ ∀ s g gs, s.port.granted = g :: gs → writeOf g = none →
      (∀ e rest, s.ins.queue = e :: rest → heldBack e s.port.inflight = false →
        48 ≤ s.ins.queue.length ∨ s.port.inflight = [] →
        exec .downstreamGrant s = .next (acceptHeld { s with
          ins := { s.ins with queue := rest }
          port := { s.port with granted := s.port.granted ++ [.entry e.op] } }))
      ∧ ∀ p rest, s.port.inflight = p :: rest →
        (s.ins.queue = []
          ∨ ∃ e es, s.ins.queue = e :: es ∧ (heldBack e s.port.inflight = true ∨ s.ins.queue.length < 48)) →
        (∀ n, p.op = .read n → exec .downstreamGrant s = .next (acceptHeld { s with port := { s.port with
          inflight := rest, granted := s.port.granted ++ [.piece p] } }))
        ∧ ∀ d o os qs, p.op = .write d → s.port.opens = os ++ o :: qs → o.id = p.req → 1 ≤ o.left →
          (∀ x ∈ os ++ qs, x.id ≠ p.req) →
          exec .downstreamGrant s = .next (acceptHeld { s with port := { s.port with
            inflight := rest, granted := s.port.granted ++ [.piece p]
            opens := if o.left = 1 then os ++ qs else os ++ { o with left := o.left - 1 } :: qs
            answers := if o.left = 1 then s.port.answers ++ [⟨o.id, o.initiator, o.isRead, o.data⟩]
              else s.port.answers } })

/-- When the oldest request granted and not yet served is a read piece, of any function or none: its bytes, as DRAM
holds them now, join its request's data. If it is the last piece of its request, the request is answered with the
whole data and closes; otherwise the request waits for one piece less; the other open requests are as before. The
writes granted directly behind it then reach DRAM in order, up to the next read granted (log 9, the model's
choice). For a piece of no function, or of COMMANDS, PICTURE, SOUND, STORE, LOG, STATUS or MONITOR, whose owners
do not watch reads, nothing else changes. For a piece of a path or of NOTICES the rest of the part is as after the
same piece served alone, which ConsumerReadsConsume and NoticesAreWrittenAndReleased give. With no read piece at
the front of the granted requests nothing happens (log 3, the model's choice). (R1, R2, R11, R13) -/
def Obligations.ServedReadsAnswerWithDram : Prop :=

  (∀ s p n o os qs ws later dram port, s.port.granted = .piece p :: (ws ++ later) → p.op = .read n →
    s.port.opens = os ++ o :: qs → o.id = p.req → (∀ x ∈ os ++ qs, x.id ≠ p.req) →
    (∀ g ∈ ws, (writeOf g).isSome = true) → (∀ g gs, later = g :: gs → writeOf g = none) →
    dram = (ws.filterMap writeOf).foldl (fun m w => Mem.writeBytes m w.1 w.2) s.dram →
    port = { s.port with
        granted := later
        opens := if o.left ≤ 1 then os ++ qs
          else os ++ { o with left := o.left - 1, data := o.data ++ Mem.readBytes s.dram p.addr n } :: qs
        answers := if o.left ≤ 1 then
            s.port.answers ++ [⟨o.id, o.initiator, o.isRead, o.data ++ Mem.readBytes s.dram p.addr n⟩]
          else s.port.answers } →
    ((∀ f, p.fn = some f → f ≠ .notices ∧ ∀ q, f ≠ .path q) →
      exec .readServed s = .next { s with dram := dram, port := port })
    ∧ ∃ t, exec .readServed { s with port := { s.port with granted := [.piece p] } } = .next t
      ∧ exec .readServed s = .next { t with dram := dram, port := port })
    ∧ ∀ s, (∀ p n rest, s.port.granted = .piece p :: rest → p.op ≠ .read n) → exec .readServed s = .next s


/-- With the home paths consistent (R96) and the one granted request a read piece of path q's aperture. By another
initiator, or of an OFF path: nothing changes but the port. Else the touched positions are those of its bytes at
offsets 64 and above; the early-read count rises by one exactly when a placed, unpublished cell is touched. With
no published entry whose last cell is touched, nothing else of the part changes. Otherwise the newest such entry
and every entry before it leave the list, consumed is its end, the stall timer is 0, the state is RUNNING, and the
arm is set if in-use is now at most L; a STALLED path raises RESUME, and path A under A_THEN_B RESTORE. Then the
pending tags are tried in order and the held offer is examined again (UnitsArePlacedShedOrHeld says how). The
other path and every other field are as before; ServedReadsAnswerWithDram gives the answer and what lands behind
the read. (R107, R108, R109, R106, R11) -/
def Obligations.ConsumerReadsConsume : Prop :=
  ∀ s p n q N P, s.port.granted = [.piece p] → p.op = .read n → 1 ≤ n → p.fn = some (.path q) → PathsOk s →
    P = s.home.paths.get q → N = pathCells q s →
    ∃ o, o = { s.port with granted := [], opens := o.opens, answers := o.answers }
      ∧ (p.initiator ≠ P.consumer ∨ P.state = .off → exec .readServed s = .next { s with port := o })
      ∧ (p.initiator = P.consumer → P.state ≠ .off → ∀ (touched : Nat → Prop) (early : W32),
        (∀ x, touched x ↔ ∃ b, p.off ≤ b ∧ b < p.off + n ∧ 64 ≤ b ∧ x = (b - 64) / 64) →
        ((∃ v, P.published ≤ v ∧ v < P.placed ∧ touched (v % N)) → early = P.early + 1) →
        ((∀ v, P.published ≤ v → v < P.placed → ¬touched (v % N)) → early = P.early) →
        ((∀ e ∈ P.units, e.start + e.cells ≤ P.published → ¬touched ((e.start + e.cells - 1) % N)) →
          exec .readServed s = .next { s with
            port := o, home := { s.home with paths := s.home.paths.set q { P with early := early } } })
        ∧ ∀ pre e post, P.units = pre ++ e :: post → e.start + e.cells ≤ P.published →
          touched ((e.start + e.cells - 1) % N) →
          (∀ x ∈ post, x.start + x.cells ≤ P.published → ¬touched ((x.start + x.cells - 1) % N)) →
          ∀ u, u = { s with port := o, home := { s.home with paths := (s.home.paths.set q { P with
              early := early, units := post, consumed := e.start + e.cells, stall := 0, state := .running
              arm := if P.placed - (e.start + e.cells) ≤ P.low then true else P.arm }) } } →
            (P.state = .running → exec .readServed s = .next (reexamine q (tryTags q P.tags u)))
            ∧ (P.state = .stalled → ∀ v,
              v = raise .resume q.val [b1 0, b4 (P.placed - (e.start + e.cells)), b1 P.stallAt] u →
              exec .readServed s = .next (reexamine q (tryTags q P.tags
                (if q = 0 ∧ s.home.route = .aThenB then raise .restore 0 [b1 (routeBits v)] v else v)))))

/-- FitsAt and placedAs (Safety) write out R101: how a unit fits behind no pad, a pad or a passed-over pad, and the
entries, counters, writes and PRESSURE of its placement; the pressure test is made once, after pad and unit (log
45, the model's reading). A live unit that fits is placed with its source's shed run in its shed-before field, and
the run is 0; else the source's shed count and run rise. A tag is placed when none is pending and it fits, else
kept behind fewer than four, else dropped with TAG_DROPPED. A replay unit is OVERSIZE with more cells than the
ring, PLACED when the path is RUNNING with in-use at most Y and it fits, else held. Pending tags are tried in
order until one does not fit, each leaving the list before it is placed. A held offer examined again is placed by
the same test and the transfer engine told, or stays. A placed unit's bytes carry the sequence and the shed-before
field, and a replay unit's the REPLAY flag and shed-before 0. (R101, R102, R103, R104, R105, R106, R109) -/
def Obligations.UnitsArePlacedShedOrHeld : Prop :=
  (∀ s p u P n, P = s.home.paths.get p → n = pathCells p s →
    (∀ src, (∀ pad passed, FitsAt n P u.cells pad passed → ∀ t, t = placedAs p u (P.shedRuns.get src) pad passed s →
        offerLive src u p s = { t with home := { t.home with paths := t.home.paths.modify p fun Q =>
          { Q with shedRuns := Q.shedRuns.set src 0 } } })
      ∧ ((∀ pad passed, ¬FitsAt n P u.cells pad passed) →
        offerLive src u p s = { s with home := { s.home with paths := (s.home.paths.set p { P with
          sheds := P.sheds.set src (P.sheds.get src + 1)
          shedRuns := P.shedRuns.set src (min (P.shedRuns.get src + 1) 65535) }) } }))
    ∧ (∀ pad passed, P.tags = [] → FitsAt n P u.cells pad passed → offerTag u p s = placedAs p u 0 pad passed s)
    ∧ (P.tags ≠ [] ∨ (∀ pad passed, ¬FitsAt n P u.cells pad passed) →
      (P.tags.length < 4 → offerTag u p s
        = { s with home := { s.home with paths := s.home.paths.set p { P with tags := P.tags ++ [u] } } })
      ∧ (4 ≤ P.tags.length → ∀ source frame tc clip event body, u = .tag source frame tc clip event body →
        offerTag u p s = raise .tagDropped p.val [b2 clip, b1 event.code] s))
    ∧ (n < u.cells → replayAnswer p u s = .oversize ∧ offerReplay p u s = s)
    ∧ (∀ pad passed, P.state = .running → P.placed - P.consumed ≤ P.ceiling → FitsAt n P u.cells pad passed →
      replayAnswer p u s = .placed ∧ offerReplay p u s = placedAs p u 0 pad passed s)
    ∧ (u.cells ≤ n → P.state ≠ .running ∨ P.ceiling < P.placed - P.consumed
        ∨ (∀ pad passed, ¬FitsAt n P u.cells pad passed) →
      replayAnswer p u s = .wait ∧ offerReplay p u s
        = { s with home := { s.home with paths := s.home.paths.set p { P with heldOffer := some u } } }))
  ∧ (∀ s p, tryTags p [] s = s)
  ∧ (∀ s p u us P n, P = s.home.paths.get p → n = pathCells p s →
    (∀ pad passed, FitsAt n P u.cells pad passed → tryTags p (u :: us) s = tryTags p us (placedAs p u 0 pad passed
        { s with home := { s.home with paths := s.home.paths.set p { P with tags := us } } }))
    ∧ ((∀ pad passed, ¬FitsAt n P u.cells pad passed) → tryTags p (u :: us) s = s))
  ∧ (∀ s p P n, P = s.home.paths.get p → n = pathCells p s →
    (P.heldOffer = none → reexamine p s = s)
    ∧ ∀ u, P.heldOffer = some u →
      (∀ pad passed, P.state = .running → P.placed - P.consumed ≤ P.ceiling → FitsAt n P u.cells pad passed →
        reexamine p s = toldPlaced (placedAs p u 0 pad passed
          { s with home := { s.home with paths := s.home.paths.set p { P with heldOffer := none } } }))
      ∧ (P.state ≠ .running ∨ P.ceiling < P.placed - P.consumed ∨ (∀ pad passed, ¬FitsAt n P u.cells pad passed) →
        reexamine p s = s))
  ∧ (∀ lane frame tc j q k bits payload seq shed b, b = (MUnit.row lane frame tc j q k bits payload).bytes seq shed →
    slice 12 4 b = le 4 seq.toNat ∧ slice 24 2 b = le 2 shed)
  ∧ (∀ frame tc ticks start mask x y data seq shed b,
    b = (MUnit.sound frame tc ticks start mask x y data).bytes seq shed →
    slice 12 4 b = le 4 seq.toNat ∧ slice 22 2 b = le 2 shed)
  ∧ ∀ raw seq shed k b, 28 ≤ raw.length → b = (MUnit.replay k raw).bytes seq shed →
    b.length = raw.length ∧ slice 12 4 b = le 4 seq.toNat ∧ b.getD 11 0 = (raw.getD 11 0 ||| 1)
      ∧ (k = .pictureRow → slice 24 2 b = [0, 0]) ∧ (k = .sound → slice 22 2 b = [0, 0])

/-- With room in the insert queue, the first block from the turn on whose hold is not empty has the oldest entry of
its hold join the end of the queue, stamped with the pieces accepted before it. A header write's joining raises
the path's published count to the value it carries (to the larger of the two, log 38, the model's reading), and a
stored unit's last cell's joining makes the unit readable; nothing else changes. The turn then stands at the next
block with a non-empty hold, the block served being the last to be looked at, and with every hold empty at the
block after it (log 10, the model's reading). With no room, or no entry, the row has no occasion and nothing
happens (log 3, the model's choice). (R12, R101, R117) -/
def Obligations.JoinsGoInTurn : Prop :=
  (∀ s (k : Fin 6) e rest, s.ins.queue.length < 64 → (∀ j : Fin 6, j < k → s.ins.holds.get (s.ins.turn + j) = []) →
    s.ins.holds.get (s.ins.turn + k) = e :: rest →
    ∃ t, exec .insertQueueJoin s = .next t
      ∧ t.ins.queue = s.ins.queue ++ [⟨e.op, s.port.nextPiece⟩]
      ∧ t.ins.holds = s.ins.holds.set (s.ins.turn + k) rest
      ∧ (∀ j : Fin 6, t.ins.holds.get (s.ins.turn + k + 1 + j) ≠ [] →
          (∀ i : Fin 6, i < j → t.ins.holds.get (s.ins.turn + k + 1 + i) = []) →
          t.ins.turn = s.ins.turn + k + 1 + j)
      ∧ ((∀ b, t.ins.holds.get b = []) → t.ins.turn = s.ins.turn + k + 1)
      ∧ t = { s with
          ins := t.ins
          home := match e.eff with
            | .publish p v =>
              { s.home with paths := s.home.paths.modify p fun P => { P with published := max P.published v } }
            | .nothing | .readable _ => s.home
          store := match e.eff with
            | .readable seq =>
              { s.store with retained := s.store.retained.map fun x =>
                  { x with unit := x.unit.map fun u => if u.seq = seq then { u with readable := true } else u } }
            | .nothing | .publish _ _ => s.store })
    ∧ (∀ s, 64 ≤ s.ins.queue.length → exec .insertQueueJoin s = .next s)
    ∧ ∀ s, (∀ b, s.ins.holds.get b = []) → exec .insertQueueJoin s = .next s

/-- Let out be the entries that must leave from the front so that pad and unit fit the cells (R120), keep the rest.
When a unit of out lies in a SENDING clip's range, the offer is refused: the store is BLOCKED by that clip (the
lowest record when several protect the oldest such unit, log 17, the model's choice), the record gaps and the
source's gap run rise, the clips that R123 names take GAP and are mirrored, in index order (log 16, the model's
choice), and then (log 52, the model's reading) a RUNNING store raises STORE_BLOCKED with the blocking clip, the
unit's kind and source (log 14, the model's reading) and the record gaps; nothing else changes. Otherwise, in this
order: a BLOCKED store is RUNNING with STORE_RESUMED of the clip and the record gaps; for each unit of out in turn
the OPEN, CLOSED and SENT clips whose first unit is at or before it are LOST, oldest first unit first (equal ones
in index order: log 16), each with its marks and tally gone, CLIP_LOST and the mirror write, and an OPEN one's
pointer is cleared (LostBy, lostAt); a new index entry of the lane gives each FIRST_PENDING clip with an in-frame
at or before it its first unit, with PREROLL_SHORT by R127 and mirrored, in index order (firstUnitsTaken; log 16;
that each such part of one offer mirrors its record is log 18, the model's reading). out has left, a pad and the
unit have joined behind keep, head and sequence have risen, the gap run is 0, the writes stand last in the store's
hold with the header at the end, index entries of out are gone and a row may have its own; the row raises the
tally of each clip that passes R147's tests (rowStored). Every other record, pointer, hold and count stands. A
retained unit in a SENDING clip's range stays retained. (R117, R120, R121, R122, R123, R124, R125, R127, R147,
R148, R171) -/
def Obligations.StoreOffersStoreOrRefuse : Prop :=
  ∀ s src frame u n h c pad out keep (k : Fin 5) base (protects : Clip → W32 → Prop), s.store.state ≠ .off →
    n = storeCells s → h = s.store.head → c = u.cells → pad = (if c ≤ n - h % n then 0 else n - h % n) →
    base = apBase .store s → s.store.retained = out ++ keep → (∀ e ∈ out, n + e.start < h + pad + c) →
    (∀ e rest, keep = e :: rest → h + pad + c ≤ n + e.start) → (∀ l : Fin 4, src = some l → k.val = l.val) →
    (src = none → k = 4) →
    (∀ R q, protects R q ↔ R.state = .sending ∧ ∃ f l, R.first = some f ∧ R.last = some l ∧ within f.1 q l.1 = true) →
    ∃ t, offerStore src frame u s = t
      ∧ t = { s with store := t.store, log := t.log, ctl := t.ctl, ins := t.ins }
      ∧ (∀ e ∈ s.store.retained, ∀ v, e.unit = some v → ∀ j, protects (s.log.recs.get j) v.seq → e ∈ t.store.retained)
      ∧ (∀ pre e post v i num, out = pre ++ e :: post → e.unit = some v →
          (∀ x ∈ pre, ∀ y, x.unit = some y → ∀ j, ¬protects (s.log.recs.get j) y.seq) →
          protects (s.log.recs.get i) v.seq → (∀ j, j < i → ¬protects (s.log.recs.get j) v.seq) →
          num = (s.log.recs.get i).num →
          t.store = { s.store with
            state := .blocked num, gaps := s.store.gaps + 1
            gapRuns := s.store.gapRuns.set k (min (s.store.gapRuns.get k + 1) 65535) }
          ∧ (∀ w, w = gapsMarked src frame s →
            t = if s.store.state = .running then
                { raise .storeBlocked 0 [b2 num, b1 (if src = none then 2 else 1), b1 (if src = none then 0 else k.val),
                    b4 (s.store.gaps + 1).toNat] w with store := t.store }
              else { w with store := t.store })
          ∧ t.log = { s.log with recs := t.log.recs } ∧ t.ins.holds.get 3 = s.ins.holds.get 3
          ∧ (∀ j R (gap : Prop), R = s.log.recs.get j →
              (gap ↔ R.last = none ∧ atOrBefore R.inFrame frame = true
                ∧ (R.state = .opened ∨ (R.state = .closed ∧ R.endPending = true))
                ∧ (∀ l, src = some l → R.source = l) ∧ R.gap = false) →
              (gap → t.log.recs.get j = { R with gap := true, rev := R.rev + 1 })
              ∧ (¬gap → t.log.recs.get j = R)))
      ∧ ((∀ e ∈ out, ∀ v, e.unit = some v → ∀ j, ¬protects (s.log.recs.get j) v.seq) →
          ∀ (seq : W32) (evicted : Fin 4 → List IndexEntry), seq = s.store.nextSeq →
          (∀ l, evicted l = (s.store.index.get l).filter fun x =>
            !(out.any fun e => decide ((e.unit.map fun v => v.seq) = some x.seq))) →
          t.store = { s.store with
            state := .running, head := h + pad + c, nextSeq := seq + 1, gapRuns := s.store.gapRuns.set k 0
            retained := keep ++ (if pad = 0 then [] else [⟨h, pad, none⟩])
              ++ [⟨h + pad, c, some ⟨seq, src, frame, false⟩⟩]
            index := t.store.index, openMark := t.store.openMark }
          ∧ (∀ l, src ≠ some l ∨ s.store.openMark.get l = false →
              t.store.index.get l = evicted l ∧ t.store.openMark.get l = s.store.openMark.get l)
          ∧ (∀ l, src = some l → s.store.openMark.get l = true → t.store.openMark.get l = false
              ∧ t.store.index.get l =
                if ((evicted l).getLast?.map fun x => decide (x.frame = frame)) = some true then evicted l
                else (if (evicted l).length < 128 then evicted l else (evicted l).drop 1)
                  ++ [⟨frame, seq, (h + pad) % n⟩])
          ∧ (∀ j R (lost : Prop), R = s.log.recs.get j →
              (lost ↔ (R.state = .opened ∨ R.state = .closed ∨ R.state = .sent) ∧ ∃ f, R.first = some f
                ∧ ∃ e ∈ out, ∃ v, e.unit = some v ∧ atOrBefore f.1 v.seq = true) →
              (lost → t.log.recs.get j = lostClip R)
              ∧ (¬lost → src = none → t.log.recs.get j = R)
              ∧ (¬lost → ∀ l new before, src = some l →
                  before = (if (evicted l).length < 128 then evicted l else (evicted l).drop 1) →
                  new = (if s.store.openMark.get l = true
                      ∧ ((evicted l).getLast?.map fun x => decide (x.frame = frame)) ≠ some true then
                    some ⟨frame, seq, (h + pad) % n⟩ else none) →
                  t.log.recs.get j = rowStored l frame new before R))
          ∧ t.ins.holds.get 3 = s.ins.holds.get 3
              ++ (if pad = 0 then []
                else [⟨.write (base + 64 * (h % n + 1)) (padCell pad s.clock.frame (timecode s)), .nothing⟩])
              ++ (List.range c).map (fun i => ⟨.write (base + 64 * ((h + pad) % n + 1 + i))
                  (padTo 64 (slice (64 * i) 64 (u.bytes seq (s.store.gapRuns.get k)))),
                  if i + 1 = c then .readable seq else .nothing⟩)
              ++ [⟨.write base (storeHeader t.store n), .nothing⟩]
          ∧ (∃ v w x : State,
              (∀ b, s.store.state = .blocked b → v = raise .storeResumed 0 [b2 b, b4 s.store.gaps.toNat] s)
              ∧ (s.store.state = .running → v = s)
              ∧ LostBy (out.filterMap fun e => e.unit.map fun q => q.seq) v w
              ∧ (src = none → x = w)
              ∧ (∀ l before, src = some l →
                  before = (if (evicted l).length < 128 then evicted l else (evicted l).drop 1) →
                  x = if s.store.openMark.get l = true
                      ∧ ((evicted l).getLast?.map fun y => decide (y.frame = frame)) ≠ some true then
                    firstUnitsTaken l ⟨frame, seq, (h + pad) % n⟩ before w else w)
              ∧ t = { x with
                  store := t.store
                  log := { x.log with recs := t.log.recs }
                  ins := { x.ins with holds := x.ins.holds.set 3 (t.ins.holds.get 3) } })
          ∧ (∀ m : Fin 4, ∀ clears : Prop,
              (clears ↔ ∃ j R, R = s.log.recs.get j ∧ R.state = .opened ∧ R.source = m ∧ ∃ f, R.first = some f
                ∧ ∃ e ∈ out, ∃ v, e.unit = some v ∧ atOrBefore f.1 v.seq = true) →
              (clears → t.log.opens.get m = none) ∧ (¬clears → t.log.opens.get m = s.log.opens.get m))
          ∧ t.log = { s.log with recs := t.log.recs, opens := t.log.opens })


/-- A READING transfer whose unit at the cursor is selected and readable and whose reads have not been made puts one
read entry per cell, in cell order, in the engine's hold. Where one of these does not hold the row has no occasion
and nothing happens (log 3, the model's choice). A served read of the current set (the sets are numbered: log 29,
the model's choice) adds its 64 bytes to the read buffer; data of a set let go is discarded. With further requests
granted behind the read, the data is what DRAM holds before the writes directly behind it; these then reach DRAM
in order, up to the next read granted (log 9, the model's choice), the rest stays granted, and all else is as with
the read alone. With no store read at the front nothing happens (log 3). With the last cell the bytes up to the
unit's length are offered to the path: PLACED and OVERSIZE count and advance the cursor, WAIT pauses the transfer.
Going on: a selected unit stays at the cursor; one that is not is skipped and counted; with nothing remaining the
clip is SENT with its send count risen, TRANSFER_DONE is raised, the entry leaves, and the next entry becomes
active at its clip's first sequence with counts 0. A unit is selected when it is a row of the clip's source or a
sound unit, with a running frame from the clip's in-frame to its out-frame; the unit at the cursor is the retained
one of that sequence, and the active clip the one non-FREE record of the first entry's number. (R166, R167, R168,
R169, R105, R2, R11, R13) -/
def Obligations.TransfersReadOfferAndAdvance : Prop :=
  (∀ s e es r u, s.xfer.queue = e :: es → retainedOf s.xfer.cursor s = some (r, u) → s.xfer.paused = false →
    s.xfer.issued = false → cursorSelected s = true → u.readable = true →
    exec .transferReadIssue s = .next { s with
      xfer := { s.xfer with issued := true }
      ins := { s.ins with holds := s.ins.holds.modify byTransfer fun h =>
        h ++ (List.range r.cells).map fun i =>
          ⟨.read (apBase .store s + 64 * ((r.start + i) % storeCells s + 1)) s.xfer.tag, .nothing⟩ } })
    ∧ (∀ s, s.xfer.queue = [] ∨ s.xfer.paused = true ∨ s.xfer.issued = true ∨ cursorSelected s = false
        ∨ (∀ r u, retainedOf s.xfer.cursor s = some (r, u) → u.readable = false) →
        exec .transferReadIssue s = .next s)
    ∧ (∀ s a k ws later dram, s.port.granted = .entry (.read a k) :: (ws ++ later) →
        (∀ g ∈ ws, (writeOf g).isSome = true) → (∀ g gs, later = g :: gs → writeOf g = none) →
        dram = (ws.filterMap writeOf).foldl (fun m w => Mem.writeBytes m w.1 w.2) s.dram →
        ∃ t, exec .storeReadServed { s with port := { s.port with granted := [.entry (.read a k)] } } = .next t
          ∧ exec .storeReadServed s = .next { t with dram := dram, port := { s.port with granted := later } })
    ∧ (∀ s, (∀ a k rest, s.port.granted ≠ .entry (.read a k) :: rest) → exec .storeReadServed s = .next s)
    ∧ (∀ s a e es r u, s.port.granted = [.entry (.read a s.xfer.tag)] → s.xfer.queue = e :: es →
        retainedOf s.xfer.cursor s = some (r, u) → s.xfer.issued = true → s.xfer.paused = false →
        s.xfer.buffer.length + 1 < r.cells →
        exec .storeReadServed s = .next { s with
          port := { s.port with granted := [] }
          xfer := { s.xfer with buffer := s.xfer.buffer ++ [Mem.readBytes s.dram a 64] } })
    ∧ (∀ s a t, s.port.granted = [.entry (.read a t)] →
        t ≠ s.xfer.tag ∨ s.xfer.issued = false ∨ s.xfer.paused = true ∨ s.xfer.queue = []
          ∨ retainedOf s.xfer.cursor s = none →
        exec .storeReadServed s = .next { s with port := { s.port with granted := [] } })
    ∧ (∀ s a e es r u raw unit t, s.port.granted = [.entry (.read a s.xfer.tag)] → s.xfer.queue = e :: es →
        retainedOf s.xfer.cursor s = some (r, u) → s.xfer.issued = true → s.xfer.paused = false →
        r.cells ≤ s.xfer.buffer.length + 1 → raw = (s.xfer.buffer ++ [Mem.readBytes s.dram a 64]).flatten →
        unit = .replay (if u.source = none then .sound else .pictureRow) (raw.take (ofLe (slice 2 2 raw))) →
        t = { s with
          port := { s.port with granted := [] }
          xfer := { s.xfer with buffer := s.xfer.buffer ++ [Mem.readBytes s.dram a 64] } } →
        (replayAnswer e.path unit t = .placed →
          exec .storeReadServed s = .next (toldPlaced (offerReplay e.path unit t)))
        ∧ (replayAnswer e.path unit t = .wait → ∀ w, w = offerReplay e.path unit t →
          exec .storeReadServed s = .next { w with xfer := { w.xfer with paused := true } })
        ∧ (replayAnswer e.path unit t = .oversize → ∀ x, x = s.xfer →
          exec .storeReadServed s = .next (goOn { t with xfer := { x with
            oversize := x.oversize + 1, cursor := x.cursor + 1, remaining := x.remaining - 1, buffer := []
            issued := false, paused := false, tag := x.tag + 1 } })))
    ∧ (∀ s x, x = s.xfer → toldPlaced s = goOn { s with xfer := { x with
        placed := x.placed + 1, cursor := x.cursor + 1, remaining := x.remaining - 1, buffer := [], issued := false
        paused := false, tag := x.tag + 1 } })
    ∧ (∀ s, s.xfer.queue = [] ∨ (s.xfer.remaining ≠ 0 ∧ cursorSelected s = true) → goOn s = s)
    ∧ (∀ s x, x = s.xfer → x.queue ≠ [] → x.remaining ≠ 0 → cursorSelected s = false →
        goOn s = goOn { s with xfer := { x with
          skipped := x.skipped + 1, cursor := x.cursor + 1, remaining := x.remaining - 1, buffer := [], issued := false
          paused := false, tag := x.tag + 1 } })
    ∧ (∀ s x e es i R v, x = s.xfer → x.queue = e :: es → x.remaining = 0 → findClip e.clip s = some i →
        R = s.log.recs.get i → v = changeRec i (fun c => { c with state := .sent, prior := none, sends := c.sends + 1 }) s →
        ∀ w, w = raise .transferDone e.clip
          [b1 e.path.val, b4 x.placed.toNat, b4 x.skipped.toNat, b4 x.oversize.toNat] v →
        goOn s = goOn (activate { w with xfer := { w.xfer with queue := es } }))
    ∧ (∀ s, cursorSelected s = true ↔ ∃ e es i r u, s.xfer.queue = e :: es ∧ findClip e.clip s = some i
        ∧ retainedOf s.xfer.cursor s = some (r, u) ∧ (s.log.recs.get i).selects u = true)
    ∧ (∀ (R : Clip) (u : StoredUnit), R.selects u = true ↔ (u.source = some R.source ∨ u.source = none)
        ∧ ∃ o, R.out = some o ∧ atOrBefore R.inFrame u.frame = true ∧ atOrBefore u.frame o.1 = true)
    ∧ (∀ s seq r u, retainedOf seq s = some (r, u) ↔ ∃ pre post, s.store.retained = pre ++ r :: post
        ∧ r.unit = some u ∧ u.seq = seq ∧ ∀ x ∈ pre, ∀ v, x.unit = some v → v.seq ≠ seq)
    ∧ (∀ s num i, NumbersOk s →
        (findClip num s = some i ↔ (s.log.recs.get i).state ≠ .free ∧ (s.log.recs.get i).num = num))
    ∧ ∀ s x e es i R, x = s.xfer → x.queue = e :: es → findClip e.clip s = some i → R = s.log.recs.get i →
        ∀ f l, R.first = some f → R.last = some l →
        activate s = { s with xfer := { x with
          cursor := f.1, remaining := (l.1 - f.1 + 1).toNat, paused := false, issued := false, buffer := []
          placed := 0, skipped := 0, oversize := 0, tag := x.tag + 1 } }

/-- With CFGSEL high the state becomes that of reset with the load still to come; DRAM, the waiting commands and the
pins' levels are not the part's and stay (log 40, the model's reading). With CFGSEL low, the strap being an
operand (log 6, the model's choice), the loader has ended with result NONE, COMMANDS is SET at its default base
with 4096 bytes, and the header record stands in the control block's hold; all else is as with CFGSEL high. In the
state of reset no aperture is SET and no tally counts, the clock is FREE at rate code 1, frame 0 and position 0,
every lane, input and path is off with the settings the spec gives, taps and buses are at rest, the store is OFF,
pins are UNUSED with TOGGLE, every record is FREE and the next number 1, and no queue, table or list holds
anything. (R14, R28, R62, R150, R172, R173) -/
def Obligations.PowerOnResetRestoresEveryBlock : Prop :=
  (∀ s,
    exec (.powerOnReset true) s
        = .next { State.reset with pending := s.pending, dram := s.dram, epIn := s.epIn }
      ∧ ∃ t, exec (.powerOnReset false) s = .next t
        ∧ t = { State.reset with
            pending := s.pending, dram := s.dram, epIn := s.epIn
            aps := { Apertures.reset with
              map := Apertures.reset.map.set 0 (some ⟨0xFFFFF00000, 4096⟩) }
            ins := { InsertPath.reset with
              holds := InsertPath.reset.holds.set 0 [⟨.write 0xFFFFF00000 (headerRecord t.ctl), .nothing⟩] }
            ctl := { Control.reset with cfgsel := false, loader := .ended } })
    ∧ (∀ n, State.reset.aps.map.get n = none ∧ (State.reset.aps.guards.get n).count = 0)
    ∧ State.reset.clock = ⟨1, none, 0, 0, 0, .free, 0, 0, 65535, 0, false, none⟩
    ∧ (∀ l, State.reset.lanes.get l
        = ⟨none, .disabled, 0, 0, 0, 0, 0, 0, 1024, 65536, 4096, 0, 3, false, 0, 0⟩)
    ∧ State.reset.sel.programme = none ∧ State.reset.sel.waiting = none ∧ (∀ l, State.reset.sel.onAir.get l = 0)
    ∧ (∀ i, State.reset.snd.inputs.get i = ⟨2, .disabled, [0, 0], false, false, false, 0, 0, 0, 0⟩)
    ∧ (∀ k, State.reset.snd.taps.get k = ⟨false, 0, 0, 0, 0, 0, 1⟩)
    ∧ (∀ b, State.reset.snd.buses.get b = ⟨false, false, false, 0, true, false⟩)
    ∧ (∀ p, ∃ P, State.reset.home.paths.get p = P ∧ P.state = .off ∧ P.consumer = 0 ∧ P.high = 1 ∧ P.low = 0
        ∧ P.ceiling = 0 ∧ P.limit = 250 ∧ P.placed = 0 ∧ P.published = 0 ∧ P.consumed = 0 ∧ P.units = []
        ∧ P.nextSeq = 0 ∧ P.arm = true ∧ P.tags = [] ∧ P.heldOffer = none ∧ P.early = 0 ∧ P.epoch = 0)
    ∧ State.reset.home.route = .a ∧ State.reset.store.state = .off ∧ State.reset.store.retained = []
    ∧ (∀ p, ∃ P, State.reset.pins.get p = P ∧ P.fn = .unused ∧ P.edge = .rising ∧ P.filter = 16 ∧ P.action = .toggle
        ∧ P.input.val = p.val % 4 ∧ P.cand = none ∧ P.mode = .level ∧ P.tally.val = p.val % 4 ∧ P.period = 50
        ∧ P.onCount = 25 ∧ P.level = false)
    ∧ (∀ i, (State.reset.log.recs.get i).state = .free) ∧ State.reset.log.nextNum = 1
    ∧ (∀ i, State.reset.log.opens.get i = none) ∧ State.reset.cues = [] ∧ State.reset.xfer.queue = []
    ∧ State.reset.ctl.queue = [] ∧ State.reset.ctl.written = 0 ∧ State.reset.ctl.released = 0
    ∧ State.reset.port.inflight = [] ∧ State.reset.ins.queue = [] ∧ ∀ b, State.reset.ins.holds.get b = []

/-- After LINK_RESET the link is down and no request is held, in flight or open (that held requests go too is log 7,
the model's reading); every enabled lane waits and every enabled sound input seeks, their partial data gone; stall
timers are 0; pins have no candidate; the command queue and every mark are clear and the cause is LINK; and, while
COMMANDS is SET, the header record stands last in the control block's hold (none is written while it is UNSET, log
12, the model's reading). Granted requests, the insert queue, DRAM, map, clock, selector, store, clip log, cues
and transfers are kept. LINK_UP brings the link up, and then held requests are accepted as room allows. (R15, R51,
R93, R114, R150, R176) -/
def Obligations.LinkResetAndLinkUp : Prop :=
  (∀ s, ∃ t, exec .linkReset s = .next t
    ∧ t = { s with
        port := { s.port with linkUp := false, held := [], inflight := [], opens := [] }
        lanes := t.lanes, snd := { s.snd with inputs := t.snd.inputs }
        home := { s.home with paths := t.home.paths }, pins := t.pins, ins := t.ins
        ctl := { s.ctl with queue := [], marks := Table.fill 16 false, cause := .link } }
    ∧ (∀ l, t.lanes.get l =
        { s.lanes.get l with intake := if (s.lanes.get l).intake = .disabled then .disabled else .waiting })
    ∧ (∀ i, t.snd.inputs.get i =
        { s.snd.inputs.get i with intake := if (s.snd.inputs.get i).intake = .disabled then .disabled else .seeking })
    ∧ (∀ p, t.home.paths.get p = { s.home.paths.get p with stall := 0 })
    ∧ (∀ p, t.pins.get p = { s.pins.get p with cand := none })
    ∧ (ap .commands s = none → t.ins = s.ins)
    ∧ ∀ a, ap .commands s = some a →
        t.ins = { s.ins with holds := s.ins.holds.modify 0 (· ++ [⟨.write a.base (headerRecord t.ctl), .nothing⟩]) })
    ∧ ∀ s, exec .linkUp s = .next (acceptHeld { s with port := { s.port with linkUp := true } })

/-- While the loader is about to read entry i: no acknowledge ends the load with ABSENT at entry 0 and ERROR i later;
an entry with padding not zero, with a tag not above the one before, or with an unknown tag other than 255 ends it
with ERROR i; tag 255 ends it with OK. A known entry counts as applied: tags 1 and 2 set the base's bits 12 to 31
and 32 to 39, tag 3 names the rate unless it is above 4, none pending when it is the one in force (log 20, the
model's reading), and switches the reference, off leaving no steering target (log 24, the model's choice), tag 4
gives each pin its function, tag 5 names the control initiator, and nothing else changes. Before the last place
the loader goes on; after entry 31 the load ends with ERROR 32. LoadEnded (Safety) says what an end leaves:
COMMANDS SET at the base, MARK pins settled on the levels shown, a candidate kept (log 21, the model's reading),
and the header in the control block's hold with the cause POWER_ON (log 12). Held requests are then accepted as
room allows (log 8). After the load the row has no occasion (log 3). (R172, R173, R28, R131) -/
def Obligations.LoadEntriesAreTakenInTagOrder : Prop :=
  (∀ s i last levels, s.ctl.loader = .reading i last →
    (∃ t, exec (.configEntryRead none levels) s = .next (acceptHeld t)
      ∧ LoadEnded (if i = 0 then .absent else .error) i levels s t)
    ∧ ∀ (e : BitVec 64) tag data, tag = e.toNat % 256 → data = e.toNat / 2 ^ 32 →
      ((e.toNat / 256 % 2 ^ 24 ≠ 0 ∨ tagRises tag last = false ∨ (tag ≠ 255 ∧ (tag = 0 ∨ 5 < tag))) →
        ∃ t, exec (.configEntryRead (some e) levels) s = .next (acceptHeld t) ∧ LoadEnded .error i levels s t)
      ∧ (e.toNat / 256 % 2 ^ 24 = 0 → tagRises tag last = true →
        (tag = 255 →
          ∃ t, exec (.configEntryRead (some e) levels) s = .next (acceptHeld t) ∧ LoadEnded .ok 0 levels s t)
        ∧ (1 ≤ tag → tag ≤ 5 → ∃ x : State,
          x = { s with clock := x.clock, pins := x.pins, ctl := { s.ctl with
            applied := s.ctl.applied + 1, loader := .reading (i + 1) (some tag), controlInit := x.ctl.controlInit
            cmdBase := if tag = 1 then s.ctl.cmdBase / 2 ^ 32 * 2 ^ 32 + data % 2 ^ 20 * 4096
              else if tag = 2 then data % 256 * 2 ^ 32 + s.ctl.cmdBase % 2 ^ 32 else s.ctl.cmdBase } }
          ∧ (tag ≠ 3 → x.clock = s.clock) ∧ (tag ≠ 4 → x.pins = s.pins)
          ∧ (tag ≠ 5 → x.ctl.controlInit = s.ctl.controlInit) ∧ (tag = 5 → x.ctl.controlInit.val = data % 16)
          ∧ (tag = 3 → ∀ C : Clock, (4 < data % 256 → C = s.clock) →
            (∀ r : Fin 5, r.val = data % 256 →
              C = { s.clock with pendingRate := if r = s.clock.rate then none else some r }) →
            (data / 256 % 256 = 0 → x.clock = { C with lock := .free, steer := none })
            ∧ (data / 256 % 256 ≠ 0 → s.clock.lock ≠ .free → x.clock = C)
            ∧ (data / 256 % 256 ≠ 0 → s.clock.lock = .free → x.clock =
              { C with lock := .seeking, run := 0, miss := 0, interval := 65535, rejected := 0, mark := false }))
          ∧ (tag = 4 → ∀ p, x.pins.get p = { s.pins.get p with
              fn := if data / 4 ^ p.val % 4 = 1 then .mark else if data / 4 ^ p.val % 4 = 2 then .line else .unused })
          ∧ (i < 31 → exec (.configEntryRead (some e) levels) s = .next (acceptHeld x))
          ∧ (31 ≤ i → ∃ t, exec (.configEntryRead (some e) levels) s = .next (acceptHeld t)
            ∧ LoadEnded .error 32 levels x t))))
    ∧ ∀ s e levels, s.ctl.loader = .ended → exec (.configEntryRead e levels) s = .next s

/-- At tick position 0 a frame tick answers a next state in which the running frame count has risen by one, a pending
rate is in force and none is pending, the position is 1, every lane's rows last frame are its rows this frame,
which start again at 0, the on-air counter of the programme lane alone has risen by one, and every guard tally is
0. The opening frame's timecode goes on under the old rate, and is carried over to a pending one at the same time
of day, by an offset mod the new D; where the count wraps too, the offset moves by R18 under the old rate first
(log 19, the model's reading). The due cues have left, and at a rate change the others are rebased (Rebased). Map,
DRAM, port, insert queue, programme lane and loader are as before. In the default order (log 4, the model's
choice) the tick is, in turn: the guards' reports, MIDNIGHT with the new rate code when the day has ended, the
look at the reference (RefPulsesAndLossesMoveTheLock), the paths' stall timers (PathsStallAtTheirLimit), the on-
air counter, the row tallies, each above 0 added to rows stored (holding at 2^32 - 1), set to 0 and mirrored in
index order (log 16; also when it holds, log 53), the due cues' firing (DueCuesFireAtTheFrameTick), the rebasing
(ClockCommandsNameRateAndTimecode), the mixer's share with the clip arms (SampleTicksAdvanceAndMix), the pins'
samples (EdgesAreConfirmedAfterTheWindow), the status block, and the position and interval. A tally's report
raises GUARD and sets it to 0 whether or not the notice is lost, and a tally of 0 raises nothing; with NOTICES SET
and a slot for each, the GUARD notices of the tallies, in function order, are the next unreleased ones and stand
next in the control block's hold. At any other position the row has no occasion and nothing happens (log 3). (R9,
R16, R17, R18, R26, R40, R67, R84, R147, R154, R158, R181) -/
def Obligations.FrameTickOpensTheNextFrame : Prop :=
  ((∀ s i, s.clock.pos = 0 → ∃ t, exec (.frameTick i) s = .next t
    ∧ t.clock.frame = s.clock.frame + 1 ∧ t.clock.rate = s.clock.pendingRate.getD s.clock.rate
    ∧ t.clock.pendingRate = none ∧ t.clock.pos = 1 ∧ t.clock.offset = (openedClock s.clock).offset
    ∧ (∀ tc, tc = ((s.clock.frame + 1).toNat + (if s.clock.frame + 1 = 0 then s.clock.offset + 2 ^ 32
        else s.clock.offset)) % dayFrames s →
      (s.clock.pendingRate = none → timecode t = tc)
      ∧ ∀ r, s.clock.pendingRate = some r →
        timecode t = tc * Config.framesPerSecond r / Config.framesPerSecond s.clock.rate)
    ∧ (∀ left, left = s.cues.dropWhile (fun x => atOrBefore x.due (s.clock.frame + 1)) →
      (s.clock.pendingRate = none → t.cues = left) ∧ (s.clock.pendingRate ≠ none → Rebased left t.cues t))
    ∧ (∀ l, t.lanes.get l = { s.lanes.get l with rowsLast := (s.lanes.get l).rowsThis, rowsThis := 0 })
    ∧ t.sel.programme = s.sel.programme
    ∧ (∀ l, t.sel.onAir.get l = if s.sel.programme = some l then s.sel.onAir.get l + 1 else s.sel.onAir.get l)
    ∧ (∀ n, (t.aps.guards.get n).count = 0) ∧ t.aps.map = s.aps.map
    ∧ t.dram = s.dram ∧ t.port = s.port ∧ t.ins.queue = s.ins.queue ∧ t.epIn = i.levels
    ∧ t.ctl.loader = s.ctl.loader ∧ t.ctl.queue = s.ctl.queue ∧ t.ctl.marks = s.ctl.marks))
    ∧ (∀ s n g, g = s.aps.guards.get n →
      (g.count = 0 → guardReport n s = s)
      ∧ (g.count ≠ 0 → ∀ t, t = raise .guard n.val
          [b2 g.count, b1 g.initiator.val, b5 g.offset, b4 (s.clock.frame - 1).toNat] s →
        guardReport n s = { t with aps := { s.aps with guards := s.aps.guards.set n { g with count := 0 } } }))
    ∧ (∀ s i a os ns k, s.clock.pos = 0 → i.order = [] ∨ i.order = .guards :: os → ap .notices s = some a →
      k = a.size / 32 - 2 → ns = (List.finRange 16).filter (fun n => decide ((s.aps.guards.get n).count ≠ 0)) →
      s.ctl.released ≤ s.ctl.written → s.ctl.written - s.ctl.released + ns.length ≤ k →
      ∃ t later more, exec (.frameTick i) s = .next t
        ∧ t.ctl.unreleased = s.ctl.unreleased ++ List.replicate ns.length .guard ++ later
        ∧ t.ins.holds.get 0 = s.ins.holds.get 0
          ++ (ns.zipIdx.flatMap fun x =>
            let g := s.aps.guards.get x.1
            [⟨.write (a.base + 64 + 32 * ((s.ctl.written + x.2) % k))
                (noticeRecord .guard x.1.val (if x.2 = 0 then s.ctl.lostBefore else 0) (s.clock.frame + 1) (timecode t)
                  [b2 g.count, b1 g.initiator.val, b5 g.offset, b4 s.clock.frame.toNat]), .nothing⟩,
              ⟨.write a.base (le 8 (s.ctl.written + x.2 + 1)), .nothing⟩])
          ++ more)
    ∧ (∀ s i u v w x y, s.clock.pos = 0 → i.order = [] →
      u = { s with clock := openedClock s.clock, epIn := i.levels
                   lanes := s.lanes.map fun L => { L with rowsLast := L.rowsThis, rowsThis := 0 } } →
      v = (List.finRange 16).foldl (fun z n => guardReport n z) u →
      w = (if timecode s + 1 = dayFrames s ∧ timecode u = 0 then raise .midnight 0 [b1 u.clock.rate.val] v else v) →
      x = stallTick 1 (stallTick 0 (refLossTick w)) →
      y = changedWhere (fun R => decide (0 < R.tally))
        (fun R => { R with rowsStored := min (R.rowsStored + R.tally) (2 ^ 32 - 1), tally := 0 })
        { x with sel := { x.sel with onAir := match x.sel.programme with
          | some l => x.sel.onAir.modify l (· + 1)
          | none => x.sel.onAir } } →
      ∀ z a, z = fireDue y.cues.length y →
        a = (List.finRange 12).foldl (fun b p => samplePin p b)
          (mixerTick 0 true (if s.clock.pendingRate = none then z else rebase z)) →
        exec (.frameTick i) s = .next { statusTick a with clock := clockAdvanced (statusTick a).clock })
    ∧ (∀ s k, (∀ e rest, s.cues = e :: rest → atOrBefore e.due s.clock.frame = true →
        fireDue (k + 1) s = fireDue k (fireHead s))
      ∧ ((∀ e rest, s.cues = e :: rest → atOrBefore e.due s.clock.frame = false) → fireDue k s = s))
    ∧ ∀ s i, s.clock.pos ≠ 0 → exec (.frameTick i) s = .next s

/-- While STATUS is UNSET the control block's share of the status is nothing. While it is SET, seven writes of 64
bytes, the last shorter, stand last in the control block's hold at the aperture's base and carry a block of 436
bytes: at their offsets the running frame count (first and last), the timecode, the lock state, the programme and
pending lanes, the on-air counters, 24 bytes of each lane, 16 of each sound input, the bus clip counts, 56 bytes
of each path, the store, the monitor position, the pins' counts, the active transfer, and the notice counts, as
they stand when it is read; nothing else changes. A frame tick whose order names no other reads it last (the
default order of the blocks is log 4, the model's choice), in a state whose frame count has risen by one, and then
the tick position is 1. (R181, R183) -/
def Obligations.StatusIsWrittenAtTheFrameTick : Prop :=
  (∀ s, ap .status s = none → statusTick s = s)
    ∧ (∀ s a, ap .status s = some a → ∃ b : List Byte, b.length = 436
      ∧ statusTick s = { s with ins := { s.ins with holds := (s.ins.holds.modify 0 fun h =>
          h ++ (List.range 7).map fun i => ⟨.write (a.base + 64 * i) (slice (64 * i) 64 b), .nothing⟩) } }
      ∧ slice 0 4 b = le 4 s.clock.frame.toNat ∧ slice 432 4 b = le 4 s.clock.frame.toNat
      ∧ slice 4 4 b = le 4 (timecode s)
      ∧ slice 8 1 b = le 1 (match s.clock.lock with | .free => 0 | .seeking => 1 | .locked => 2 | .holdover => 3)
      ∧ slice 9 1 b = le 1 ((s.sel.programme.map fun l => l.val).getD 255)
      ∧ slice 10 1 b = le 1 ((s.sel.waiting.map fun l => l.val).getD 255)
      ∧ (∀ l : Fin 4, slice (12 + 4 * l.val) 4 b = le 4 (s.sel.onAir.get l).toNat)
      ∧ (∀ l : Fin 4, slice (28 + 24 * l.val) 24 b =
          (let L := s.lanes.get l
          le 1 (match L.intake with | .disabled => 0 | .waiting => 1 | .inFrame _ _ _ _ => 2) ++ le 1 L.q ++ [0, 0]
            ++ leInt 4 L.fullness ++ le 4 L.rowsLast.toNat ++ le 4 L.skews.toNat ++ le 4 L.strays.toNat
            ++ le 4 L.frameNo.toNat))
      ∧ (∀ i : Fin 4, slice (124 + 16 * i.val) 16 b =
          (let X := s.snd.inputs.get i
          le 1 (match X.intake with | .disabled => 0 | .seeking => 1 | .running _ _ => 2)
            ++ le 1 (if X.silent = true then 1 else 0) ++ le 1 (if X.invalid = true then 1 else 0) ++ [0]
            ++ le 4 X.slips.toNat ++ le 4 X.overruns.toNat ++ le 4 X.skews.toNat))
      ∧ (∀ k : Fin 8, slice (188 + 4 * k.val) 4 b = le 4 (s.snd.buses.get k).clips.toNat)
      ∧ (∀ p : Fin 2, slice (220 + 56 * p.val) 32 b =
          (let P := s.home.paths.get p
          le 1 (match P.state with | .off => 0 | .running => 1 | .stalled => 2) ++ le 1 P.tags.length ++ [0, 0]
            ++ le 4 P.nextSeq.toNat ++ le 8 P.placed ++ le 8 P.published ++ le 8 P.consumed))
      ∧ (∀ (p : Fin 2) (k : Fin 5), slice (252 + 56 * p.val + 4 * k.val) 4 b
          = le 4 ((s.home.paths.get p).sheds.get k).toNat)
      ∧ (∀ p : Fin 2, slice (272 + 56 * p.val) 4 b = le 4 (s.home.paths.get p).early.toNat)
      ∧ slice 332 1 b = le 1 (match s.store.state with | .off => 0 | .running => 1 | .blocked _ => 2)
      ∧ slice 333 7 b = (match s.store.retained.findSome? fun e => e.unit with
          | none => [1, 0, 0, 0, 0, 0, 0]
          | some v => [0, 0, 0] ++ le 4 v.seq.toNat)
      ∧ slice 340 12 b = le 8 s.store.head ++ le 4 s.store.gaps.toNat
      ∧ slice 352 4 b = le 4 s.snd.monPos
      ∧ (∀ p : Fin 12, slice (356 + 4 * p.val) 4 b = le 2 (s.pins.get p).edges.toNat ++ le 2 (s.pins.get p).glitches.toNat)
      ∧ slice 404 8 b = le 2 (match s.xfer.queue with | [] => 0 | e :: _ => e.clip) ++ [0, 0] ++ le 4 s.xfer.remaining
      ∧ slice 412 20 b = le 8 s.ctl.written ++ le 8 s.ctl.released ++ le 4 s.ctl.lostTotal.toNat)
    ∧ ∀ s i, s.clock.pos = 0 → i.order = [] → ∃ v,
        v.clock.frame = s.clock.frame + 1 ∧ v.clock.pos = 0
        ∧ exec (.frameTick i) s = .next { statusTick v with clock := { v.clock with
            pos := 1, interval := min (v.clock.interval + 1) 65535 } }

/-- At a tick position other than 0 a sample tick answers a next state in which the frame count, rate, offset and lock
state are as before, the position has risen by one or wrapped to 0 at the ticks per frame, and the interval count
has risen, holding at 65 535. Each enabled input: with a fresh slot it has used it (fresh and silent clear, starve
run 0); late for the first to seventh tick, its starve run and slip count have risen; late for the eighth it is
silent; a silent one and a disabled one are as before. Each unmuted bus whose rounded sum lies outside 24 bits has
its clip count risen, its mark set and its arm clear, every other bus is as before. While MONITOR is SET the
record of the monitored buses' outputs joins the mixer's hold at the monitor position, which advances modulo the
records of the ring. Every tap has taken its ramp step. Lanes, selector, cues, guards, transfers, map, port and
DRAM are as before. In the default order (log 4, the model's choice) the tick is the mixer's share and then the
pins' samples. The mixer's share is, in turn: at a frame tick the arm of each bus with its mark clear set and
every mark cleared; each input settled, in index order (log 44, the model's choice), SOUND_BACK raised where the
silent flag clears and SOUND_SILENT where it sets, with slip and overrun count; each bus settled, one that
saturates with its arm set raising BUS_CLIP with the value before saturation, the tick position and the new clip
count; the ramps; the monitor record (mixedAt); and the accumulator (SoundUnitsCloseAtTheBoundary). (R16, R21,
R77, R81, R82, R83, R84, R85, R88) -/
def Obligations.SampleTicksAdvanceAndMix : Prop :=
  (∀ s i, s.clock.pos ≠ 0 → ∃ t, exec (.sampleTick i) s = .next t
    ∧ t.clock = { s.clock with
        pos := if s.clock.pos + 1 < 48000 / Config.framesPerSecond s.clock.rate then s.clock.pos + 1 else 0
        interval := min (s.clock.interval + 1) 65535 }
    ∧ (∀ k, t.snd.taps.get k =
        let T := s.snd.taps.get k
        if T.enabled = false then T
        else if T.gain ≤ T.target then { T with gain := if T.target - T.gain ≤ T.step then T.target else T.gain + T.step }
        else { T with gain := if T.gain - T.target ≤ T.step then T.target else T.gain - T.step })
    ∧ (∀ n X, X = s.snd.inputs.get n →
        (X.enabled = false ∨ (X.fresh = false ∧ X.silent = true) → t.snd.inputs.get n = X)
        ∧ (X.enabled = true → X.fresh = true →
            t.snd.inputs.get n = { X with fresh := false, starve := 0, silent := false })
        ∧ (X.enabled = true → X.fresh = false → X.silent = false → X.starve < 7 →
            t.snd.inputs.get n = { X with starve := X.starve + 1, slips := X.slips + 1 })
        ∧ (X.enabled = true → X.fresh = false → X.silent = false → 7 ≤ X.starve →
            t.snd.inputs.get n = { X with starve := 8, silent := true }))
    ∧ (∀ b B D v, B = s.snd.buses.get b → D = { s.snd with inputs := t.snd.inputs } → v = (busSum b D + 16384) / 32768 →
        t.snd.buses.get b = if B.mute = true ∨ (-8388608 ≤ v ∧ v ≤ 8388607) then B
          else { B with clips := B.clips + 1, satMark := true, arm := false })
    ∧ (ap .monitor s = none → t.snd.monPos = s.snd.monPos ∧ t.ins.holds.get 4 = s.ins.holds.get 4)
    ∧ (∀ a D, ap .monitor s = some a → D = { s.snd with inputs := t.snd.inputs } →
        t.snd.monPos = (if s.snd.monPos + 1 < a.size / 32 then s.snd.monPos + 1 else 0)
        ∧ t.ins.holds.get 4 = s.ins.holds.get 4 ++ [⟨.write (a.base + 32 * s.snd.monPos)
            ((List.finRange 8).flatMap fun b => leInt 4 (if (D.buses.get b).monitor then busOutput b D else 0)),
            .nothing⟩])
    ∧ t.lanes = s.lanes ∧ t.sel = s.sel ∧ t.cues = s.cues ∧ t.aps = s.aps ∧ t.port = s.port ∧ t.dram = s.dram
    ∧ t.xfer = s.xfer ∧ t.epIn = i.levels)
    ∧ (∀ s i a, s.clock.pos ≠ 0 → i.order = [] →
      a = (List.finRange 12).foldl (fun b p => samplePin p b) (mixerTick s.clock.pos false { s with epIn := i.levels }) →
      exec (.sampleTick i) s = .next { a with clock := clockAdvanced a.clock })
    ∧ (∀ s pos opening, mixerTick pos opening s
      = accumulate pos ((List.finRange 8).map fun b => busOutput b (inputsSettled opening s).snd) (mixedAt pos opening s))
    ∧ (∀ s n X u, X = s.snd.inputs.get n → u = (fun Y => { s with snd := { s.snd with inputs := s.snd.inputs.set n Y } }) →
      (X.enabled = false ∨ (X.fresh = false ∧ X.silent = true) → settleInput n s = s)
      ∧ (X.enabled = true → X.fresh = true → ∀ v, v = u { X with fresh := false, starve := 0, silent := false } →
        settleInput n s = if X.silent = true then raise .soundBack n.val [b4 X.slips.toNat, b4 X.overruns.toNat] v else v)
      ∧ (X.enabled = true → X.fresh = false → X.silent = false → X.starve < 7 →
        settleInput n s = u { X with starve := X.starve + 1, slips := X.slips + 1 })
      ∧ (X.enabled = true → X.fresh = false → X.silent = false → 7 ≤ X.starve →
        settleInput n s = raise .soundSilent n.val [b4 X.slips.toNat, b4 X.overruns.toNat]
          (u { X with starve := 8, silent := true })))
    ∧ (∀ s pos b B v u, B = s.snd.buses.get b → v = (busSum b s.snd + 16384) / 32768 →
      u = { s with snd := { s.snd with buses := (s.snd.buses.set b
        { B with clips := B.clips + 1, satMark := true, arm := false }) } } →
      (B.mute = true ∨ (-8388608 ≤ v ∧ v ≤ 8388607) → settleBus pos b s = s)
      ∧ (B.mute = false → (v < -8388608 ∨ 8388607 < v) → settleBus pos b s = if B.arm = true then
          raise .busClip b.val [b4s v, b2 pos, b4 (B.clips + 1).toNat] u else u))
    ∧ ∀ s outs, (ap .monitor s = none → monitorWrite outs s = s)
      ∧ ∀ a, ap .monitor s = some a → monitorWrite outs s = { s with
        snd := { s.snd with monPos := if s.snd.monPos + 1 < a.size / 32 then s.snd.monPos + 1 else 0 }
        ins := { s.ins with holds := s.ins.holds.modify 4 fun h => h ++ [⟨.write (a.base + 32 * s.snd.monPos)
          ((List.finRange 8).flatMap fun b => leInt 4 (if (s.snd.buses.get b).monitor then outs.getD b.val 0 else 0)),
          .nothing⟩] } }


/-- At tick position 0 with the running frame count 4 294 967 295 and no rate change pending, the tick takes the count
to 0 and the offset to (offset + 2^32 mod D) mod D, so that the new frame's timecode follows the old frame's by
exactly one, mod D. At tick position 0, when the frame just ended has timecode D − 1 with no rate change pending,
NOTICES is SET with a free slot, and the clock's notice is taken first in the tick: the opening frame has timecode
0, the written count has risen, and MIDNIGHT is the next unreleased notice after those there were, its record and
the written count standing next in the control block's hold with the lost-before count, the frame count now
opening, timecode 0 and the rate code. The row is that frame tick (FrameTickOpensTheNextFrame). With another frame
count, or another timecode, the row FRAME_COUNT_WRAP or MIDNIGHT has no occasion and nothing happens (log 3, the
model's choice). (R17, R18, R19, R26, R178) -/
def Obligations.WrapKeepsTimecodeAndMidnightIsNoticed : Prop :=
  ((∀ s i, s.clock.pos = 0 → s.clock.frame = 4294967295 → s.clock.pendingRate = none →
    ∃ t, exec (.frameCountWrap i) s = .next t ∧ t.clock.frame = 0 ∧ t.clock.rate = s.clock.rate
      ∧ t.clock.offset = (s.clock.offset + 2 ^ 32 % dayFrames s) % dayFrames s
      ∧ timecode t = (timecode s + 1) % dayFrames s)
    ∧ ∀ s i, s.clock.frame ≠ 4294967295 → exec (.frameCountWrap i) s = .next s)
    ∧ ((∀ s i a os, s.clock.pos = 0 → s.clock.pendingRate = none → timecode s + 1 = dayFrames s →
    i.order = .midnight :: os → ap .notices s = some a →
    s.ctl.written - s.ctl.released < a.size / 32 - 2 →
    ∃ t later, exec (.midnight i) s = .next t ∧ timecode t = 0
      ∧ t.ctl.unreleased = s.ctl.unreleased ++ .midnight :: later
      ∧ t.ctl.released = s.ctl.released ∧ s.ctl.written + 1 ≤ t.ctl.written
      ∧ ∃ more, t.ins.holds.get 0 = s.ins.holds.get 0
        ++ [⟨.write (a.base + 64 + 32 * (s.ctl.written % (a.size / 32 - 2)))
            (noticeRecord .midnight 0 s.ctl.lostBefore (s.clock.frame + 1) 0 [b1 s.clock.rate.val]), .nothing⟩,
          ⟨.write a.base (le 8 (s.ctl.written + 1)), .nothing⟩] ++ more)
    ∧ (∀ s i, s.clock.pos = 0 → timecode s + 1 = dayFrames s → s.clock.pendingRate = none →
      exec (.midnight i) s = exec (.frameTick i) s)
    ∧ ∀ s i, timecode s + 1 ≠ dayFrames s → exec (.midnight i) s = .next s)

/-- A pulse is in step with n frames when the interval count lies within 2 of n times the ticks per frame. FREE:
nothing happens. SEEKING or HOLDOVER: with a pulse run of 1 and in step with one frame the clock is LOCKED with
run 2, interval, miss count and rejected count 0 and the mark set, and REF_LOCKED is raised with the lock state
left and the rejected count; otherwise the run is 1 and the interval 0, and the rejected count rises if the run
was 1. LOCKED: in step with one or two frames, the interval is 0, the mark is set and the steering target is this
tick position (log 24, the model's choice); otherwise the rejected count rises. Nothing but the clock changes,
save by the notice. At tick position 0 while LOCKED, with the mark clear and a miss count of 1, the tick takes the
clock to HOLDOVER with run 0, rejected 0, miss count 2 and no target. The clock's look at the frame just ended,
its share of that tick: while LOCKED a marked frame sets the miss count to 0 and clears the mark, one without a
mark raises the miss count, and at 2 the clock is in HOLDOVER with REF_LOST of the rejected count, which is then
0. The row is that frame tick (FrameTickOpensTheNextFrame). Where the frame just ended was marked, or the miss
count is 0, or the clock is not LOCKED, REF_LOST has no occasion and nothing happens (log 3, the model's choice).
(R21, R22, R23, R24) -/
def Obligations.RefPulsesAndLossesMoveTheLock : Prop :=
  (∀ s (near : Nat → Prop),
    (∀ n, near n ↔ n * (48000 / Config.framesPerSecond s.clock.rate) ≤ s.clock.interval + 2
      ∧ s.clock.interval ≤ n * (48000 / Config.framesPerSecond s.clock.rate) + 2) →
    (s.clock.lock = .free → exec .refPulse s = .next s)
      ∧ (s.clock.lock = .seeking ∨ s.clock.lock = .holdover →
          (s.clock.run = 1 ∧ near 1 → exec .refPulse s = .next
            (raise .refLocked 0 [b1 (if s.clock.lock = .seeking then 1 else 3), b2 s.clock.rejected]
              { s with clock := { s.clock with
                  lock := .locked, run := 2, interval := 0, miss := 0, mark := true, rejected := 0 } }))
          ∧ (s.clock.run = 1 → ¬near 1 → exec .refPulse s = .next
              { s with clock := { s.clock with run := 1, interval := 0, rejected := min (s.clock.rejected + 1) 65535 } })
          ∧ (s.clock.run ≠ 1 → exec .refPulse s = .next { s with clock := { s.clock with run := 1, interval := 0 } }))
      ∧ (s.clock.lock = .locked →
          (near 1 ∨ near 2 → exec .refPulse s = .next
              { s with clock := { s.clock with interval := 0, mark := true, steer := some s.clock.pos } })
          ∧ (¬(near 1 ∨ near 2) → exec .refPulse s = .next
              { s with clock := { s.clock with rejected := min (s.clock.rejected + 1) 65535 } })))
    ∧ (∀ s i, s.clock.pos = 0 → s.clock.lock = .locked → s.clock.mark = false → s.clock.miss = 1 →
      ∃ t, exec (.refLost i) s = .next t ∧ t.clock.lock = .holdover ∧ t.clock.run = 0 ∧ t.clock.rejected = 0
        ∧ t.clock.miss = 2 ∧ t.clock.mark = false ∧ t.clock.steer = none ∧ t.clock.frame = s.clock.frame + 1)
    ∧ (∀ s i, s.clock.pos = 0 → s.clock.lock = .locked → s.clock.mark = false → 1 ≤ s.clock.miss →
      exec (.refLost i) s = exec (.frameTick i) s)
    ∧ (∀ s, (s.clock.lock ≠ .locked → refLossTick s = s)
      ∧ (s.clock.lock = .locked → s.clock.mark = true →
        refLossTick s = { s with clock := { s.clock with miss := 0, mark := false } })
      ∧ (s.clock.lock = .locked → s.clock.mark = false → s.clock.miss = 0 →
        refLossTick s = { s with clock := { s.clock with miss := 1 } })
      ∧ (s.clock.lock = .locked → s.clock.mark = false → 1 ≤ s.clock.miss →
        refLossTick s = raise .refLost 0 [b2 s.clock.rejected] { s with clock := { s.clock with
          miss := s.clock.miss + 1, lock := .holdover, run := 0, rejected := 0, steer := none } }))
    ∧ ∀ s i, s.clock.mark = true ∨ s.clock.miss = 0 ∨ s.clock.lock ≠ .locked → exec (.refLost i) s = .next s

/-- When an enabled input that is neither fresh nor silent has starved for seven ticks, the tick sets its silent flag
and its starve run to 8, its slip count and everything else of it unchanged. The row is that sample tick
(SampleTicksAdvanceAndMix says what else it does). When the mixer acts first in it (the default order, log 4, the
model's choice), no input before this one raises a notice (they are settled in index order, log 44, the model's
choice), and NOTICES is SET with a free slot, SOUND_SILENT is the next unreleased notice, and its record, with the
slip and overrun counts, and the written count stand next in the control block's hold. Where the input is fresh,
silent or disabled the row has no occasion and nothing happens (log 3). (R77, R178) -/
def Obligations.StarvedInputsFallSilent : Prop :=
  (∀ s n i, (s.snd.inputs.get n).enabled = true → (s.snd.inputs.get n).fresh = false →
    (s.snd.inputs.get n).silent = false → (s.snd.inputs.get n).starve = 7 →
    ∃ t, exec (.soundSilent n i) s = .next t
      ∧ t.snd.inputs.get n = { s.snd.inputs.get n with silent := true, starve := 8 }
      ∧ t.epIn = i.levels ∧ t.dram = s.dram ∧ t.port = s.port)
    ∧ (∀ s n i, (s.snd.inputs.get n).enabled = true → (s.snd.inputs.get n).fresh = false →
      (s.snd.inputs.get n).silent = false → 7 ≤ (s.snd.inputs.get n).starve →
      exec (.soundSilent n i) s = exec (.sampleTick i) s)
    ∧ (∀ s n i a os X, s.clock.pos ≠ 0 → i.order = [] ∨ i.order = .mixer :: os → X = s.snd.inputs.get n →
      X.enabled = true → X.fresh = false → X.silent = false → 7 ≤ X.starve →
      (∀ m Y, m < n → Y = s.snd.inputs.get m → Y.enabled = false ∨ (Y.fresh = true ∧ Y.silent = false)
        ∨ (Y.fresh = false ∧ (Y.silent = true ∨ Y.starve < 7))) →
      ap .notices s = some a → s.ctl.written - s.ctl.released < a.size / 32 - 2 →
      ∃ t later more, exec (.soundSilent n i) s = .next t
        ∧ t.ctl.unreleased = s.ctl.unreleased ++ .soundSilent :: later
        ∧ t.ins.holds.get 0 = s.ins.holds.get 0
          ++ [⟨.write (a.base + 64 + 32 * (s.ctl.written % (a.size / 32 - 2)))
              (noticeRecord .soundSilent n.val s.ctl.lostBefore s.clock.frame (timecode s)
                [b4 X.slips.toNat, b4 X.overruns.toNat]), .nothing⟩,
            ⟨.write a.base (le 8 (s.ctl.written + 1)), .nothing⟩] ++ more)
    ∧ ∀ s n i, (s.snd.inputs.get n).enabled = false ∨ (s.snd.inputs.get n).fresh = true
        ∨ (s.snd.inputs.get n).silent = true → exec (.soundSilent n i) s = .next s

/-- The unit of a tick is the OPEN accumulator's, or, with an EMPTY one and a sent mask that is not empty, one that
opens here because the position is a multiple of 40 or the restart mark is set, which this clears. Bit b of the
sent mask is the sent flag of bus b. The unit has this tick's outputs of its mask's buses, ascending, behind those
it had, one tick more, and the flags of R90 (OpenUnit, Collected in Safety). At a position one less than a
multiple of 40 it closes and the accumulator is EMPTY, also when it opened at this tick. In the mixer's share of a
tick, after its inputs, buses, ramps and monitor record (mixedAt; SampleTicksAdvanceAndMix), it is offered to the
store, unless OFF, and then as a live unit of source 4 to each path of the effective route set as it stands after
the store (the order is log 32, the model's reading), and nothing else follows (when no pin is MARK the tick is
that share and the clock's); StoreOffersStoreOrRefuse and UnitsArePlacedShedOrHeld say what the offers do. At any
other sample tick the accumulator holds the unit, or stays EMPTY with the restart mark clear. A frame tick opens a
unit at position 0 with the count and timecode now opening. With an EMPTY accumulator and an empty sent mask
SOUND_UNIT_CLOSE has no occasion and nothing happens (log 3). (R81, R89, R90, R92) -/
def Obligations.SoundUnitsCloseAtTheBoundary : Prop :=
  (∀ s i a rst, OpenUnit s a rst → (s.clock.pos + 1) % 40 = 0 →
    (∃ t, exec (.soundUnitClose i) s = .next t ∧ t.snd.acc = none ∧ t.snd.restart = rst
      ∧ (s.store.state = .off → t.store = s.store))
    ∧ ((∀ p, (s.pins.get p).fn ≠ .mark) → exec (.soundUnitClose i) s = .next { mixerTick s.clock.pos false
        { s with epIn := i.levels } with clock := clockAdvanced s.clock })
    ∧ exec (.soundUnitClose i) s = exec (.sampleTick i) s)
    ∧ (∀ s opening a a1 rst m, OpenUnit s a rst → Collected (inputsSettled opening s).snd a a1 →
      m = mixedAt s.clock.pos opening s →
      ((s.clock.pos + 1) % 40 = 0 → ∀ v w, v = { m with snd := { m.snd with acc := none, restart := rst } } →
        w = (if s.store.state = .off then v else offerStore none a.frame a1.toUnit v) →
        mixerTick s.clock.pos opening s = (effectiveRoute w).foldl (fun y p => offerLive 4 a1.toUnit p y) w)
      ∧ ((s.clock.pos + 1) % 40 ≠ 0 →
        mixerTick s.clock.pos opening s = { m with snd := { m.snd with acc := some a1, restart := rst } }))
    ∧ (∀ s opening m, (∀ a rst, ¬OpenUnit s a rst) → m = mixedAt s.clock.pos opening s →
      mixerTick s.clock.pos opening s = { m with snd := { m.snd with acc := none, restart := false } })
    ∧ (∀ s i, s.clock.pos ≠ 0 → (s.clock.pos + 1) % 40 ≠ 0 → ∃ t, exec (.sampleTick i) s = .next t
      ∧ (∀ a rst, OpenUnit s a rst → t.snd.restart = rst
          ∧ ∃ a1, t.snd.acc = some a1 ∧ Collected { s.snd with inputs := t.snd.inputs } a a1)
      ∧ ((∀ a rst, ¬OpenUnit s a rst) → t.snd.acc = none ∧ t.snd.restart = false))
    ∧ (∀ s i, s.clock.pos = 0 → s.snd.acc = none → s.snd.sentMask ≠ 0 → ∃ t a, exec (.frameTick i) s = .next t
      ∧ t.snd.acc = some a ∧ t.snd.restart = false ∧ a.mask = s.snd.sentMask ∧ a.start = 0
      ∧ a.frame = s.clock.frame + 1 ∧ a.tc = timecode t ∧ a.ticks = 1)
    ∧ (∀ (d : Sound) (b : Fin 8), d.sentMask.getLsbD b.val = (d.buses.get b).sent)
    ∧ ∀ s i, s.snd.acc = none → s.snd.sentMask = 0 → exec (.soundUnitClose i) s = .next s

/-- For a MARK pin with a candidate in its last tick whose level is the one last sampled, MARK_CONFIRM confirms the
level if it differs from the confirmed one, and the edge count rises when the edge is of the selected polarity; if
it equals the confirmed level the glitch count rises; the candidate is gone and nothing else of the pin changes. A
pin that is not a MARK pin gives no occasion and nothing happens (log 3). At every sample tick, for a MARK pin of
filter f: a level that equals the confirmed one with no candidate is only sampled; one that differs forms a
candidate with this tick's frame and timecode and floor(f ÷ 2) ticks left, or is confirmed at once when f is 0 or
1; a candidate restarts at a level that differs from the last sampled, and else counts down; at 0 the test is
made. The sample of a pin hands the clip log, exactly when an edge of the selected polarity is confirmed, a mark
arrival with the pin's action, input, code and preroll, the captured frame and timecode, and the pin as origin, in
the state with the pin so changed; otherwise nothing but the pin changes. With no other MARK pin, a sample tick in
the default order (log 4, the model's choice) is the mixer's share (SampleTicksAdvanceAndMix), then this sample,
then the clock's. (R133, R134, R135) -/
def Obligations.EdgesAreConfirmedAfterTheWindow : Prop :=
  ((∀ s p i c, (s.pins.get p).fn = .mark → (s.pins.get p).cand = some c → c.left ≤ 1 →
    i.levels.getLsbD p.val = (s.pins.get p).last →
    ∃ t, exec (.markConfirm p i) s = .next t
      ∧ t.pins.get p =
        (let P := s.pins.get p
        if P.last = P.confirmed then { P with cand := none, glitches := P.glitches + 1 }
        else if P.edge = .both ∨ (P.edge = .rising ∧ P.last = true) ∨ (P.edge = .falling ∧ P.last = false) then
          { P with cand := none, confirmed := P.last, edges := P.edges + 1 }
        else { P with cand := none, confirmed := P.last })))
    ∧ (∀ s p i, (s.pins.get p).fn ≠ .mark → exec (.markConfirm p i) s = .next s)
    ∧ (∀ s p i P lv, s.clock.pos ≠ 0 → P = s.pins.get p → P.fn = .mark → lv = i.levels.getLsbD p.val →
      ∃ t Q, exec (.sampleTick i) s = .next t ∧ t.pins.get p = Q
        ∧ (P.cand = none → lv = P.confirmed → Q = { P with last := lv })
        ∧ (P.cand = none → lv ≠ P.confirmed → 2 ≤ P.filter →
            Q = { P with cand := some ⟨s.clock.frame, timecode s, P.filter / 2⟩, last := lv })
        ∧ (P.cand = none → lv ≠ P.confirmed → P.filter ≤ 1 → Q = confirmedAs P lv)
        ∧ ∀ c, P.cand = some c →
          (lv ≠ P.last → 2 ≤ P.filter → Q = { P with cand := some { c with left := P.filter / 2 }, last := lv })
          ∧ (lv = P.last → 1 < c.left → Q = { P with cand := some { c with left := c.left - 1 } })
          ∧ ((lv ≠ P.last ∧ P.filter ≤ 1) ∨ (lv = P.last ∧ c.left ≤ 1) →
            Q = if lv = P.confirmed then { P with cand := none, last := lv, glitches := P.glitches + 1 }
              else confirmedAs P lv))
    ∧ (∀ s p P lv, P = s.pins.get p → P.fn = .mark → lv = s.epIn.getLsbD p.val →
      (∀ c, Confirms P lv s.clock.frame (timecode s) c → lv ≠ P.confirmed →
        P.edge = .both ∨ (P.edge = .rising ∧ lv = true) ∨ (P.edge = .falling ∧ lv = false) →
        samplePin p s = (markArrival P.action P.input P.label c.frame c.tc P.preroll (.pin p)
          { s with pins := s.pins.set p (confirmedAs P lv) }).1)
      ∧ ((∀ c, ¬Confirms P lv s.clock.frame (timecode s) c) ∨ lv = P.confirmed
          ∨ (P.edge = .rising ∧ lv = false) ∨ (P.edge = .falling ∧ lv = true) →
        ∃ Q, samplePin p s = { s with pins := s.pins.set p Q }))
    ∧ ∀ s i p, s.clock.pos ≠ 0 → i.order = [] → (∀ q, q ≠ p → (s.pins.get q).fn ≠ .mark) → ∀ v,
        v = mixerTick s.clock.pos false { s with epIn := i.levels } →
        v = { s with epIn := i.levels, snd := v.snd, ins := v.ins, ctl := v.ctl, store := v.store, home := v.home
                     log := v.log }
        ∧ ((s.clock.pos + 1) % 40 ≠ 0 → v.store = s.store ∧ v.home = s.home ∧ v.log = s.log)
        ∧ exec (.sampleTick i) s = .next { samplePin p v with clock := clockAdvanced s.clock }


/-- A path's share of a frame tick: one that is not RUNNING is as before; with nothing in use its stall timer is 0;
below the limit the timer rises by one; a timer that so reaches or passes the limit leaves the path STALLED at
that timer value and raises STALL with in-use, consumed and the limit, and then, for path A under A_THEN_B,
FAILOVER with the effective route set after the change. Nothing else changes. At tick position 0 the row STALL of
a path that so reaches its limit makes the tick in which it becomes STALLED, consumed and the limit as before. A
path that is not RUNNING, or has nothing in use, gives the row no occasion and nothing happens (log 3, the model's
choice). (R100, R112) -/
def Obligations.PathsStallAtTheirLimit : Prop :=
  (∀ s p P, P = s.home.paths.get p →
    (P.state ≠ .running → stallTick p s = s)
    ∧ (P.state = .running → P.placed ≤ P.consumed →
      stallTick p s = { s with home := { s.home with paths := s.home.paths.set p { P with stall := 0 } } })
    ∧ (P.state = .running → P.consumed < P.placed → P.stall + 1 < P.limit →
      stallTick p s = { s with home := { s.home with paths := s.home.paths.set p { P with stall := P.stall + 1 } } })
    ∧ (P.state = .running → P.consumed < P.placed → P.limit ≤ P.stall + 1 →
      ∀ u, u = raise .stall p.val [b4 (P.placed - P.consumed), b8 P.consumed, b1 P.limit]
          { s with home := { s.home with paths := (s.home.paths.set p
            { P with state := .stalled, stall := P.stall + 1, stallAt := P.stall + 1 }) } } →
        stallTick p s = if p = 0 ∧ s.home.route = .aThenB then
          raise .failover 0 [b1 (if (s.home.paths.get 1).state = .running then 2 else 1)] u else u))
    ∧ (∀ s p i, s.clock.pos = 0 → (s.home.paths.get p).state = .running →
      (s.home.paths.get p).consumed < (s.home.paths.get p).placed →
      (s.home.paths.get p).limit ≤ (s.home.paths.get p).stall + 1 →
      ∃ t, exec (.stall p i) s = .next t ∧ (t.home.paths.get p).state = .stalled
        ∧ (t.home.paths.get p).stall = (s.home.paths.get p).stall + 1
        ∧ (t.home.paths.get p).stallAt = (s.home.paths.get p).stall + 1
        ∧ (t.home.paths.get p).consumed = (s.home.paths.get p).consumed
        ∧ (t.home.paths.get p).limit = (s.home.paths.get p).limit ∧ t.home.route = s.home.route)
    ∧ ∀ s p i, (s.home.paths.get p).state ≠ .running ∨ (s.home.paths.get p).inUse = 0 →
        exec (.stall p i) s = .next s

/-- The firing of the leading cue applies its slots in order (CuesAreCancelledOrForced says how), takes it from the
table and raises CUE_FIRED with its due timecode, due frame, the set of failed slots and its late mark as a byte
of 0 or 1 (log 36, the model's reading). At tick position 0 with no rate change pending, when the leading cue is
due at or before the opening frame, the table after the tick is what stood behind the leading run of due cues,
whatever the order of the blocks. When that cue alone is due and one slot alone is not NONE: a SWITCH to an
enabled lane has made it pending, or cancelled a pending switch when it is the programme lane; a FADE of an
enabled tap has set its target and its step, 0 becoming 1; LINES has set the level of each LINE pin in its mask to
its data bit. When the table is empty nothing happens (log 3, the model's choice). (R154, R151, R155) -/
def Obligations.DueCuesFireAtTheFrameTick : Prop :=
  (∀ s e rest, s.cues = e :: rest →
    fireHead s = raise .cueFired e.id
      [b4 e.dueTc, b4 e.due.toNat, b1 (setBits (applySlots e s).2), b1 (if e.late = true then 1 else 0)]
      { (applySlots e s).1 with cues := rest })
    ∧ (∀ s i e rest, s.clock.pos = 0 → s.clock.pendingRate = none → s.cues = e :: rest →
      atOrBefore e.due (s.clock.frame + 1) = true →
      ∃ t, exec (.cueFiring i) s = .next t ∧ t.clock.frame = s.clock.frame + 1
        ∧ t.cues = rest.dropWhile (fun x => atOrBefore x.due (s.clock.frame + 1))
        ∧ ((∀ x ∈ rest, atOrBefore x.due (s.clock.frame + 1) = false) → ∀ j, (∀ k, k ≠ j → e.acts.get k = .none) →
          (∀ l, e.acts.get j = .switch l → (s.lanes.get l).enabled = true →
            t.sel.waiting = if s.sel.programme = some l then none else some l)
          ∧ (∀ k target step, e.acts.get j = .fade k target step → (s.snd.taps.get k).enabled = true →
            (t.snd.taps.get k).target = target ∧ (t.snd.taps.get k).step = if step = 0 then 1 else step)
          ∧ ∀ mask data, e.acts.get j = .lines mask data → ∀ p : Fin 12, mask.getLsbD p.val = true →
            (s.pins.get p).fn = .line → (t.pins.get p).level = data.getLsbD p.val))
    ∧ ∀ s i, s.cues = [] → exec (.cueFiring i) s = .next s

/-- With the command at the head of the queue: a function that is 0 or above 15 is refused BAD_FIELD 1. Otherwise, in
this order: an unaligned base is BAD_FIELD 2; a size that is not whole blocks, below the minimum, above 2^36 or
past the space, or a PICTURE aperture too small for its geometry, is BAD_FIELD 3; a running function is ACTIVE; an
intersection with another SET aperture is OVERLAP naming the lowest such function; else the entry is SET and the
result is DONE. A SET one of LOG, NOTICES, STATUS or MONITOR leaves its old range: the entries its owner still
holds for it are dropped (R6 before R12, log 42, the model's reading). MONITOR then begins at record 0; NOTICES
loses its unreleased notices, both counts are 0, ATTN is low and a written count of 0 is written; LOG writes its
256 records as they stand. Nothing else changes, and then held requests are accepted as room allows (log 8). (R5,
R6, R4, R31) -/
def Obligations.SetApertureSetsOrRefuses : Prop :=
  ∀ s c, AtHead c s → c.code = 1 →
    (c.word 0 = 0 ∨ 15 < c.word 0 → exec .setAperture s = .next (acceptHeld (answered c (.refused .badField 1) s)))
    ∧ ∀ n : Fin 16, n ≠ 0 → c.word 0 = n.val → ∀ (f : Fn) base size (sized : Prop) (meets : Fn → Prop),
      f = Fn.ofNum n → base = c.field 8 8 → size = c.field 16 8 →
      (sized ↔ size % 4096 = 0 ∧ f.minSize ≤ size ∧ size ≤ 2 ^ 36 ∧ base + size ≤ 2 ^ 40
        ∧ ∀ l g, f = .picture l → (s.lanes.get l).geom = some g → g.slots * g.width * g.lines * 2 ≤ size) →
      (∀ g, meets g ↔ g ≠ f ∧ ∃ a, ap g s = some a ∧ base < a.base + a.size ∧ a.base < base + size) →
      (base % 4096 ≠ 0 → exec .setAperture s = .next (acceptHeld (answered c (.refused .badField 2) s)))
      ∧ (base % 4096 = 0 → ¬sized → exec .setAperture s = .next (acceptHeld (answered c (.refused .badField 3) s)))
      ∧ (base % 4096 = 0 → sized → f.running s = true →
        exec .setAperture s = .next (acceptHeld (answered c (.refused .active 0) s)))
      ∧ (base % 4096 = 0 → sized → f.running s = false →
        (∀ g, meets g → (∀ h, h.num < g.num → ¬meets h) →
          exec .setAperture s = .next (acceptHeld (answered c (.refused .overlap g.num.val) s)))
        ∧ ((∀ g, ¬meets g) → ∃ u t : State,
          exec .setAperture s = .next (acceptHeld (answered c (.done 0) t))
          ∧ u = { s with aps := { s.aps with map := s.aps.map.set n (some ⟨base, size⟩) }, ins := u.ins }
          ∧ (n < 12 ∨ ap f s = none → u.ins = s.ins)
          ∧ (∀ a (b : Fin 6), ap f s = some a → (12 ≤ n ∧ n < 15 ∧ b = 0) ∨ (n = 15 ∧ b = 4) →
            u.ins = { s.ins with holds := (s.ins.holds.modify b fun h => h.filter fun e =>
              match e.op with
              | .write x _ => decide (x < a.base) || decide (a.base + a.size ≤ x)
              | .read _ _ => true) })
          ∧ (n < 12 ∨ n = 14 → t = u)
          ∧ (n = 15 → t = { u with snd := { u.snd with monPos := 0 } })
          ∧ (n = 13 → t = { u with
              ctl := { s.ctl with
                lostBefore := min (s.ctl.lostBefore + (s.ctl.written - s.ctl.released)) 65535
                lostTotal := s.ctl.lostTotal + BitVec.ofNat 32 (s.ctl.written - s.ctl.released)
                written := 0, released := 0, unreleased := [], attn := false }
              ins := { u.ins with holds := u.ins.holds.modify 0 fun h => h ++ [⟨.write base (le 8 0), .nothing⟩] } })
          ∧ (n = 12 → t = { u with ins := { u.ins with holds := (u.ins.holds.modify 0 fun h =>
              h ++ (List.finRange 256).map fun i =>
                ⟨.write (base + 64 * i.val) (clipRecord (s.log.recs.get i)), .nothing⟩) } })))

/-- With the command at the head of the queue: a function that is 0 or above 15 is refused BAD_FIELD 1, a running one
is ACTIVE, an UNSET one is DONE with nothing changed, and any other entry becomes UNSET. When it is NOTICES, each
notice not yet released counts as lost, both counts are 0, nothing is unreleased and ATTN is low. Entries in the
holds stay there (log 42, the model's reading), nothing else changes, and then held requests are accepted as room
allows (log 8). (R7, R180) -/
def Obligations.ClearApertureUnsetsOrRefuses : Prop :=
  ∀ s c, AtHead c s → c.code = 2 →
    (c.word 0 = 0 ∨ 15 < c.word 0 → exec .clearAperture s = .next (acceptHeld (answered c (.refused .badField 1) s)))
    ∧ ∀ n : Fin 16, n ≠ 0 → c.word 0 = n.val →
      exec .clearAperture s = .next (acceptHeld
        (if (Fn.ofNum n).running s = true then answered c (.refused .active 0) s
        else if ap (Fn.ofNum n) s = none then answered c (.done 0) s
        else if n = 13 then
          answered c (.done 0) { s with
            aps := { s.aps with map := s.aps.map.set n none }
            ctl := { s.ctl with
              lostBefore := min (s.ctl.lostBefore + (s.ctl.written - s.ctl.released)) 65535
              lostTotal := s.ctl.lostTotal + BitVec.ofNat 32 (s.ctl.written - s.ctl.released)
              written := 0, released := 0, unreleased := [], attn := false } }
        else answered c (.done 0) { s with aps := { s.aps with map := s.aps.map.set n none } }))

/-- SET_CLOCK, with the command at the head of the queue: a rate above 4 is BAD_FIELD 1 and a reference setting above
1 is BAD_FIELD 2. An enabled lane, sound input or path, or a store that is not OFF, is ACTIVE with detail 1 to 4,
the first that holds. Else the named rate is pending unless it is the rate in force, which clears a pending rate;
the reference switched on takes a FREE clock to SEEKING with its counts at their start, and switched off makes the
clock FREE with nothing to steer to (log 24, the model's choice). Nothing else changes. PRESET_TIMECODE, with the
command at the head of the queue: a timecode of D or more is BAD_FIELD 1. Else the result is DONE, the current
frame reads the named timecode, and of the clock only the offset changes. The table is then rebased. A rebasing: a
cue is past when it is due at D or more, at the current timecode, or behind it by less than the lookback window
(skips); for each past cue in table order CUE_SKIPPED is raised with its id and due timecode, and it leaves; every
other stays with its due frame reckoned anew and no late mark, the table in order of these, those of one due frame
in their order from before (Rebased); nothing else changes. (R25, R21, R27, R158) -/
def Obligations.ClockCommandsNameRateAndTimecode : Prop :=
  (∀ s c, AtHead c s → c.code = 3 →
    (4 < c.word 0 → exec .setClock s = .next (answered c (.refused .badField 1) s))
    ∧ (c.word 0 ≤ 4 → 1 < c.word 1 → exec .setClock s = .next (answered c (.refused .badField 2) s))
    ∧ ∀ r : Fin 5, c.word 0 = r.val → c.word 1 ≤ 1 →
      exec .setClock s = .next
        (if ∃ l, (s.lanes.get l).enabled = true then answered c (.refused .active 1) s
        else if ∃ n, (s.snd.inputs.get n).enabled = true then answered c (.refused .active 2) s
        else if ∃ p, (s.home.paths.get p).state ≠ .off then answered c (.refused .active 3) s
        else if s.store.state ≠ .off then answered c (.refused .active 4) s
        else answered c (.done 0) { s with clock :=
          (if c.word 1 = 0 then
            { s.clock with lock := .free, steer := none, pendingRate := if r = s.clock.rate then none else some r }
          else if s.clock.lock = .free then
            { s.clock with lock := .seeking, run := 0, miss := 0, interval := 65535, rejected := 0, mark := false,
                           pendingRate := if r = s.clock.rate then none else some r }
          else { s.clock with pendingRate := if r = s.clock.rate then none else some r }) }))
    ∧ (∀ s c, AtHead c s → c.code = 4 →
    (dayFrames s ≤ c.word 0 → exec .presetTimecode s = .next (answered c (.refused .badField 1) s))
    ∧ (c.word 0 < dayFrames s → ∃ u t, exec .presetTimecode s = .next (answered c (.done 0) t)
      ∧ u = { s with clock := { s.clock with offset := u.clock.offset } } ∧ timecode u = c.word 0
      ∧ u.clock.offset < dayFrames s ∧ t = rebase u ∧ timecode t = c.word 0
      ∧ t = { s with clock := { s.clock with offset := t.clock.offset }, cues := t.cues, ctl := t.ctl, ins := t.ins }
      ∧ (∀ e, e ∈ t.cues ↔ ∃ x ∈ s.cues, skips x t = false
          ∧ e = { x with due := s.clock.frame + BitVec.ofNat 32 (framesAhead x t), late := false })
      ∧ (s.cues = [] → t.ctl = s.ctl ∧ t.ins = s.ins)))
    ∧ ∀ s, ∃ new, Rebased s.cues new s ∧ rebase s = { (s.cues.filter fun x => skips x s).foldl
        (fun y x => raise .cueSkipped x.id [b4 x.dueTc] y) s with cues := new }


/-- With the command at the head of the queue: lane, enable and record choice out of range are BAD_FIELD 1 to 3, and
enabling a disabled lane without geometry or aperture is STATE 1 or 2. Else the settings, each brought into its
range, are written, and the result names those that were changed. An enable sets F to 0 and q to q_floor and the
lane waits; a lane that stays enabled has F and q brought into the new range; a disable makes the intake DISABLED
and takes the lane from the selector; a disabled lane that is not enabled only takes the settings. When a lane
that records is disabled or its record flag cleared, each OPEN or CLOSED clip of the lane (these two alone: log
30, the model's reading) with its first unit resolved and its last not has as last unit the most recent stored
one, END_PENDING clear, and its row tally in its rows stored; each FIRST_PENDING one is LOG_ONLY with both marks
clear; every other record, the numbers and the pointers are as before. Else the clip log is as before. The ends
come before the LOG_ONLY ones, each kind in index order, each record mirrored (recordingEnded; logs 50 and 16, the
model's choice). After them a disabled pending lane raises PROGRAM_SWITCHED FAILED with the programme lane, and
the programme lane DROPPED, whose detail is the result byte alone (log 15, the model's reading); items without a
value are 0. Other lanes and everything else are as before. (R57, R58, R59, R60, R61, R65, R128, R129, R147, R148) -/
def Obligations.SetLaneWritesClampedSettings : Prop :=
  ∀ s c, AtHead c s → c.code = 6 →
    (3 < c.word 0 → exec .setLane s = .next (answered c (.refused .badField 1) s))
    ∧ (c.word 0 ≤ 3 → 1 < c.word 1 → exec .setLane s = .next (answered c (.refused .badField 2) s))
    ∧ (c.word 0 ≤ 3 → c.word 1 ≤ 1 → 1 < c.word 7 → exec .setLane s = .next (answered c (.refused .badField 3) s))
    ∧ ∀ l : Fin 4, c.word 0 = l.val → c.word 1 ≤ 1 → c.word 7 ≤ 1 → ∀ L M r, L = s.lanes.get l →
      M = { L with
        target := max 64 (min (c.word 2) 1048575), bound := max 1024 (min (c.word 3) 16777215)
        span := max 16 (min (c.word 4) 1048575), qFloor := min (c.word 5) 5, kbase := min (c.word 6) 7
        record := decide (c.word 7 = 1) } →
      r = clampedResult [decide (M.target ≠ c.word 2), decide (M.bound ≠ c.word 3), decide (M.span ≠ c.word 4),
        decide (M.qFloor ≠ c.word 5), decide (M.kbase ≠ c.word 6)] →
      (L.intake = .disabled → c.word 1 = 0 → exec .setLane s = .next (answered c r { s with lanes := s.lanes.set l M }))
      ∧ (L.intake = .disabled → c.word 1 = 1 →
          exec .setLane s = .next
            (if L.geom = none then answered c (.refused .state 1) s
            else if ap (.picture l) s = none then answered c (.refused .state 2) s
            else answered c r { s with lanes := s.lanes.set l { M with fullness := 0, q := M.qFloor, intake := .waiting } }))
      ∧ (L.intake ≠ .disabled → c.word 1 = 1 → ∃ t, exec .setLane s = .next (answered c r t)
          ∧ t = { s with
              lanes := (s.lanes.set l
                { M with fullness := max (-(M.bound : Int)) (min L.fullness M.bound), q := max M.qFloor (min L.q 5) })
              log := t.log, ins := t.ins }
          ∧ (∀ u, u = { s with lanes := t.lanes } →
            (L.record = false ∨ c.word 7 = 1 → t = u) ∧ (L.record = true → c.word 7 = 0 → t = recordingEnded l u))
          ∧ (L.record = true → c.word 7 = 0 → RecordingStopped l s t))
      ∧ (L.intake ≠ .disabled → c.word 1 = 0 → ∃ t, exec .setLane s = .next (answered c r t)
          ∧ t = { s with
              lanes := s.lanes.set l { M with intake := .disabled }
              sel := { s.sel with
                programme := if s.sel.programme = some l then none else s.sel.programme
                waiting := if s.sel.waiting = some l then none else s.sel.waiting }
              log := t.log, ins := t.ins, ctl := t.ctl }
          ∧ (∀ u v, u = { s with lanes := t.lanes, sel := t.sel } →
            v = (if L.record = true then recordingEnded l u else u) →
            ∀ w, w = (if s.sel.waiting = some l then
                raise .programSwitched l.val [b1 1, b1 (laneCode s.sel.programme), b4 0] v else v) →
            t = if s.sel.programme = some l then raise .programSwitched l.val [b1 2] w else w)
          ∧ (L.record = false → t.log = s.log)
          ∧ (L.record = true → RecordingStopped l s t))

/-- SET_PICTURE, with the command at the head of the queue: a lane above 3 is BAD_FIELD 1; then, in this order, a
width outside 16 to 7680 or not a multiple of 4 is BAD_FIELD 2, lines outside 1 to 2160 BAD_FIELD 3, slots outside
1 to 8 BAD_FIELD 4, an enabled lane ACTIVE, and a SET aperture smaller than the slots BAD_FIELD 5. Else the lane
has that geometry, and nothing else changes. SET_PROGRAM: a lane above 3 is BAD_FIELD 1, a disabled lane STATE 1;
naming the programme lane cancels a pending switch, naming another makes it the pending lane. SET_ROUTE: a route
above 3 is BAD_FIELD 1; else the route is the one named, A, B, BOTH or A_THEN_B. Nothing else changes. The
effective route set: under A, path A unless it is OFF; under B, path B unless it is OFF; under BOTH, both less any
OFF one, A first (log 32, the model's reading); under A_THEN_B, A when it is RUNNING, else B when it is RUNNING,
else A unless it is OFF, else none. (R30, R63, R110, R111) -/
def Obligations.GeometrySwitchAndRouteRequests : Prop :=
  ((∀ s c, AtHead c s → c.code = 5 →
    (3 < c.word 0 → exec .setPicture s = .next (answered c (.refused .badField 1) s))
    ∧ ∀ l : Fin 4, c.word 0 = l.val →
      exec .setPicture s = .next
        (if c.word 1 < 16 ∨ 7680 < c.word 1 ∨ c.word 1 % 4 ≠ 0 then answered c (.refused .badField 2) s
        else if c.word 2 < 1 ∨ 2160 < c.word 2 then answered c (.refused .badField 3) s
        else if c.word 3 < 1 ∨ 8 < c.word 3 then answered c (.refused .badField 4) s
        else if (s.lanes.get l).intake ≠ .disabled then answered c (.refused .active 0) s
        else if ((ap (.picture l) s).any fun a => decide (a.size < c.word 3 * c.word 1 * c.word 2 * 2)) = true then
          answered c (.refused .badField 5) s
        else answered c (.done 0) { s with lanes := (s.lanes.set l
          { s.lanes.get l with geom := some ⟨c.word 1, c.word 2, c.word 3⟩ }) }))
    ∧ ((∀ s c, AtHead c s → c.code = 7 →
    (3 < c.word 0 → exec .setProgram s = .next (answered c (.refused .badField 1) s))
    ∧ ∀ l : Fin 4, c.word 0 = l.val →
      exec .setProgram s = .next
        (if (s.lanes.get l).intake = .disabled then answered c (.refused .state 1) s
        else answered c (.done 0)
          { s with sel := { s.sel with waiting := if s.sel.programme = some l then none else some l } }))
    ∧ ∀ s c, AtHead c s → c.code = 12 →
      (3 < c.word 0 → exec .setRoute s = .next (answered c (.refused .badField 1) s))
      ∧ ∀ r, (c.word 0 = 0 ∧ r = .a) ∨ (c.word 0 = 1 ∧ r = .b) ∨ (c.word 0 = 2 ∧ r = .both) ∨ (c.word 0 = 3 ∧ r = .aThenB) →
        exec .setRoute s = .next (answered c (.done 0) { s with home := { s.home with route := r } })))
    ∧ ∀ s on, on = (fun p : Fin 2 => decide ((s.home.paths.get p).state ≠ .off)) →
      (s.home.route = .a → effectiveRoute s = if on 0 = true then [0] else [])
      ∧ (s.home.route = .b → effectiveRoute s = if on 1 = true then [1] else [])
      ∧ (s.home.route = .both → effectiveRoute s = [0, 1].filter on)
      ∧ (s.home.route = .aThenB → effectiveRoute s = if (s.home.paths.get 0).state = .running then [0]
          else if (s.home.paths.get 1).state = .running then [1] else if on 0 = true then [0] else [])


/-- With the command at the head of the queue: input, channel count and enable choice out of range are BAD_FIELD 1 to
3; a new channel count for an input that stays enabled is ACTIVE; enabling an input whose aperture is UNSET is
STATE. Else: a new channel count empties the slot and clears fresh and invalid; an enable makes the input SEEKING,
silent, its starve run 8 and fresh clear; an input that stays enabled is unchanged; a disable makes it DISABLED.
Nothing else changes. (R71, R72) -/
def Obligations.SetSoundActsByState : Prop :=
  ∀ s c, AtHead c s → c.code = 8 →
    (3 < c.word 0 → exec .setSound s = .next (answered c (.refused .badField 1) s))
    ∧ ∀ i : Fin 4, c.word 0 = i.val → ∀ X Y, X = s.snd.inputs.get i →
      Y = (if X.channels = c.word 1 then X
        else { X with channels := c.word 1, slot := List.replicate (c.word 1) 0, fresh := false, invalid := false }) →
      exec .setSound s = .next
        (if c.word 1 = 0 ∨ 16 < c.word 1 then answered c (.refused .badField 2) s
        else if 1 < c.word 2 then answered c (.refused .badField 3) s
        else if X.intake ≠ .disabled ∧ c.word 2 = 1 ∧ c.word 1 ≠ X.channels then answered c (.refused .active 0) s
        else if X.intake = .disabled ∧ c.word 2 = 1 ∧ ap (.sound i) s = none then answered c (.refused .state 0) s
        else answered c (.done 0) { s with snd := { s.snd with inputs := (s.snd.inputs.set i
          (if X.intake = .disabled ∧ c.word 2 = 1 then
            { Y with intake := .seeking, silent := true, starve := 8, fresh := false }
          else if X.intake = .disabled then Y
          else if c.word 2 = 1 then X
          else { Y with intake := .disabled })) } })

/-- With the command at the head of the queue. SET_TAP: tap, enable, input, channel and bus out of range are BAD_FIELD
1 to 5; else every field of the tap is the one named, a step of 0 becoming 1 with DONE_CLAMPED, and nothing else
changes. SET_BUS: bus and flags out of range are BAD_FIELD 1 to 4; else the three flags are those named. With no
open unit, or the sent mask as it was, nothing else changes; otherwise the accumulator is EMPTY and the restart
mark set, and the closed unit, as it stood, is offered to the store, unless OFF, and then as a live unit of source
4 to each path of the effective route set as it stands after the store (the order is log 32, the model's reading),
and nothing else follows; StoreOffersStoreOrRefuse and UnitsArePlacedShedOrHeld say what the offers do. (R79, R87,
R91, R92) -/
def Obligations.SetTapAndSetBusReplaceTheirFields : Prop :=
  (∀ s c, AtHead c s → c.code = 9 →
    (127 < c.word 0 → exec .setTap s = .next (answered c (.refused .badField 1) s))
    ∧ (c.word 0 ≤ 127 → 1 < c.word 1 → exec .setTap s = .next (answered c (.refused .badField 2) s))
    ∧ (c.word 0 ≤ 127 → c.word 1 ≤ 1 → 3 < c.word 2 → exec .setTap s = .next (answered c (.refused .badField 3) s))
    ∧ (c.word 0 ≤ 127 → c.word 1 ≤ 1 → c.word 2 ≤ 3 → 15 < c.word 3 →
        exec .setTap s = .next (answered c (.refused .badField 4) s))
    ∧ (c.word 0 ≤ 127 → c.word 1 ≤ 1 → c.word 2 ≤ 3 → c.word 3 ≤ 15 → 7 < c.word 4 →
        exec .setTap s = .next (answered c (.refused .badField 5) s))
    ∧ ∀ (t : Fin 128) (i : Fin 4) (ch : Fin 16) (b : Fin 8), c.word 0 = t.val → c.word 1 ≤ 1 → c.word 2 = i.val →
        c.word 3 = ch.val → c.word 4 = b.val →
        exec .setTap s = .next (answered c (if c.low16 7 = 0 then .doneClamped 0 else .done 0)
          { s with snd := { s.snd with taps := (s.snd.taps.set t
            ⟨decide (c.word 1 = 1), i, ch, b, c.low16 5, c.low16 6, max 1 (c.low16 7)⟩) } }))
    ∧ ∀ s c, AtHead c s → c.code = 10 →
      (7 < c.word 0 → exec .setBus s = .next (answered c (.refused .badField 1) s))
      ∧ (c.word 0 ≤ 7 → 1 < c.word 1 → exec .setBus s = .next (answered c (.refused .badField 2) s))
      ∧ (c.word 0 ≤ 7 → c.word 1 ≤ 1 → 1 < c.word 2 → exec .setBus s = .next (answered c (.refused .badField 3) s))
      ∧ (c.word 0 ≤ 7 → c.word 1 ≤ 1 → c.word 2 ≤ 1 → 1 < c.word 3 →
          exec .setBus s = .next (answered c (.refused .badField 4) s))
      ∧ ∀ (b : Fin 8) u, c.word 0 = b.val → c.word 1 ≤ 1 → c.word 2 ≤ 1 → c.word 3 ≤ 1 →
          u = { s with snd := { s.snd with buses := s.snd.buses.modify b fun B =>
            { B with mute := decide (c.word 1 = 1), sent := decide (c.word 2 = 1), monitor := decide (c.word 3 = 1) } } } →
          (s.snd.acc = none ∨ decide (c.word 2 = 1) = (s.snd.buses.get b).sent →
            exec .setBus s = .next (answered c (.done 0) u))
          ∧ (s.snd.acc ≠ none → decide (c.word 2 = 1) ≠ (s.snd.buses.get b).sent →
            ∃ t, exec .setBus s = .next (answered c (.done 0) t) ∧ t.snd = { u.snd with acc := none, restart := true }
              ∧ t.clock = s.clock ∧ t.lanes = s.lanes ∧ t.sel = s.sel ∧ t.pins = s.pins ∧ t.cues = s.cues
              ∧ t.aps = s.aps ∧ t.xfer = s.xfer
              ∧ ∀ a v w, s.snd.acc = some a → v = { u with snd := { u.snd with acc := none, restart := true } } →
                w = (if s.store.state = .off then v else offerStore none a.frame a.toUnit v) →
                t = (effectiveRoute w).foldl (fun y p => offerLive 4 a.toUnit p y) w)

/-- With the command at the head of the queue: path, enable choice and consumer out of range are BAD_FIELD 1 to 3 and
an UNSET aperture is STATE. Else the result names the settings brought into range against the cell count. OFF and
not enabled: the settings alone are written. OFF and enabled: the path is RUNNING with empty counters, lists, runs
and sequence, its epoch risen by one, and a header write of published 0 is made. Enabled and staying so: the
settings are written and a held offer is examined again by them (UnitsArePlacedShedOrHeld says how); one that
still waits stays. Enabled and disabled: the hold is dropped, the ring emptied, the state OFF, settings (log 35,
the model's reading), shed counts and epoch kept, no entry of the send queue names the path any more, and a header
write of published 0 is all its hold has; with no transfer queued nothing else changes. With transfers queued and
the clip log consistent, those bound to the path end in queue order: for the active one the engine first lets go
of its unit (letGoOf); each clip has its prior state again, its sends count as it was, and is mirrored, then
TRANSFER_ENDED is raised with PATH_OFF, the path and the placed and remaining counts, 0 for a queued one (endedTo;
the order is log 48, the model's reading); every other record stands; the other path's entries are left in order,
and if the active one has ended the first of them becomes active (nextActive, NextStarts; with none left the
engine is idle, log 27, the model's choice), else the active transfer goes on as it was. These header writes
change no counter when they join (log 23, the model's reading). (R97, R98, R99, R166, R169, R170) -/
def Obligations.SetPathEnablesTunesOrDisables : Prop :=
  ∀ s c, AtHead c s → c.code = 11 →
    (1 < c.word 0 → exec .setPath s = .next (answered c (.refused .badField 1) s))
    ∧ (c.word 0 ≤ 1 → 1 < c.word 1 → exec .setPath s = .next (answered c (.refused .badField 2) s))
    ∧ (c.word 0 ≤ 1 → c.word 1 ≤ 1 → 15 < c.word 2 → exec .setPath s = .next (answered c (.refused .badField 3) s))
    ∧ ∀ (p : Fin 2) (k : Fin 16), c.word 0 = p.val → c.word 1 ≤ 1 → c.word 2 = k.val →
      (ap (.path p) s = none → exec .setPath s = .next (answered c (.refused .state 0) s))
      ∧ ∀ a n P Q r, ap (.path p) s = some a → n = a.size / 64 - 1 → P = s.home.paths.get p →
        Q = { P with
          consumer := k, high := max 1 (min (c.word 3) n)
          low := if max 1 (min (c.word 3) n) ≤ c.word 4 then max 1 (min (c.word 3) n) - 1 else c.word 4
          ceiling := min (c.word 5) n, limit := max 1 (min (c.word 6) 250) } →
        r = clampedResult [decide (Q.high ≠ c.word 3), decide (Q.low ≠ c.word 4), decide (Q.ceiling ≠ c.word 5),
          decide (Q.limit ≠ c.word 6)] →
        (P.state = .off → c.word 1 = 0 →
          exec .setPath s = .next (answered c r { s with home := { s.home with paths := s.home.paths.set p Q } }))
        ∧ (P.state = .off → c.word 1 = 1 →
          exec .setPath s = .next (answered c r { s with
            home := { s.home with paths := s.home.paths.set p { Q with
              state := .running, units := [], placed := 0, published := 0, consumed := 0, nextSeq := 0, arm := true
              stall := 0, tags := [], heldOffer := none, shedRuns := Table.fill 5 0, epoch := P.epoch + 1 } }
            ins := { s.ins with holds := s.ins.holds.modify (byPath p) fun h =>
              h ++ [⟨.write a.base (ringHeader 0 n (P.epoch + 1)), .nothing⟩] } }))
        ∧ (P.state ≠ .off → c.word 1 = 1 → ∀ u, u = { s with home := { s.home with paths := s.home.paths.set p Q } } →
          exec .setPath s = .next (answered c r (reexamine p u))
            ∧ (P.heldOffer = none → reexamine p u = u)
            ∧ ∀ x, P.heldOffer = some x →
              (P.state = .stalled ∨ n < x.cells ∨ Q.ceiling < P.placed - P.consumed → reexamine p u = u))
        ∧ (P.state ≠ .off → c.word 1 = 0 → ∃ t, exec .setPath s = .next (answered c r t)
          ∧ (∀ x ∈ t.xfer.queue, x.path ≠ p)
          ∧ t.home.paths.get p = { P with
              state := .off, units := [], placed := 0, published := 0, consumed := 0, nextSeq := 0, arm := true
              stall := 0, tags := [], heldOffer := none }
          ∧ t.ins.holds.get (byPath p) = [⟨.write a.base (ringHeader 0 n P.epoch), .nothing⟩]
          ∧ t.aps = s.aps ∧ t.clock = s.clock ∧ t.lanes = s.lanes ∧ t.sel = s.sel ∧ t.snd = s.snd ∧ t.store = s.store
          ∧ t.pins = s.pins ∧ t.cues = s.cues)
        ∧ (P.state ≠ .off → c.word 1 = 0 → s.xfer.queue = [] →
          exec .setPath s = .next (answered c r { s with
            home := { s.home with paths := s.home.paths.set p { P with
              state := .off, units := [], placed := 0, published := 0, consumed := 0, nextSeq := 0, arm := true
              stall := 0, tags := [], heldOffer := none } }
            ins := { s.ins with holds := (s.ins.holds.set (byPath p)
              [⟨.write a.base (ringHeader 0 n P.epoch), .nothing⟩]) } }))
        ∧ (P.state ≠ .off → c.word 1 = 0 → LogOk s → ∀ e es, s.xfer.queue = e :: es →
          ∀ bound kept (idx : Send → Fin 256) u v w, bound = s.xfer.queue.filter (fun x => decide (x.path = p)) →
            kept = s.xfer.queue.filter (fun x => decide (x.path ≠ p)) →
            (∀ x ∈ bound, findClip x.clip s = some (idx x)) →
            u = { s with
              home := { s.home with paths := s.home.paths.set p { P with
                state := .off, units := [], placed := 0, published := 0, consumed := 0, nextSeq := 0, arm := true
                stall := 0, tags := [], heldOffer := none } }
              ins := { s.ins with holds := s.ins.holds.set (byPath p) [] } } →
            v = bound.foldl (fun y x => endedTo 1 x (if x = e then s.xfer.placed.toNat else 0)
              (if x = e then s.xfer.remaining else 0) (idx x) y) (if e.path = p then letGoOf e u else u) →
            w = (if e.path = p then nextActive kept v else { v with xfer := { v.xfer with queue := kept } }) →
            exec .setPath s = .next (answered c r { w with ins := { w.ins with holds := (w.ins.holds.set (byPath p)
              [⟨.write a.base (ringHeader 0 n P.epoch), .nothing⟩]) } })
            ∧ v.log = { s.log with recs := v.log.recs } ∧ v.home = u.home
            ∧ (∀ x ∈ bound, ∀ R k, R = s.log.recs.get (idx x) → R.prior = some k →
              v.log.recs.get (idx x) = { R with state := k, prior := none, rev := R.rev + 1 })
            ∧ (∀ j, (∀ x ∈ bound, idx x ≠ j) → v.log.recs.get j = s.log.recs.get j)
            ∧ (e.path = p → NextStarts kept s v))

/-- With the command at the head of the queue: a choice above 1 is BAD_FIELD 1, and enabling an OFF store whose
aperture is UNSET is STATE. Enabling an OFF store makes it RUNNING with head and sequence 0, no retained unit,
empty indexes, runs and marks, its epoch risen by one and a header write made. Enabling an enabled store or
disabling an OFF one changes nothing. A disable leaves it OFF with nothing retained or indexed, head, sequence,
gap counts and epoch kept, the send queue empty, no clip with a resolved first unit OPEN, CLOSED or SENT, none
FIRST_PENDING, and its hold one header write with nothing retained. With the clip log consistent (StoreDropped):
each SENDING clip, and each OPEN, CLOSED or SENT one with its first unit resolved, is LOST with its marks and
tally gone, each other FIRST_PENDING one is LOG_ONLY, every other record is as before, a pointer is cleared
exactly where its clip is LOST, and the numbers stand. In this order: each transfer ends with STORE_OFF, the
active one letting go of its unit, TRANSFER_ENDED with the path and counts and then CLIP_LOST raised for it and
its record mirrored, the engine idle (allEnded; log 27, the model's choice); then the other lost clips, oldest
first unit first, each with CLIP_LOST and its mirror write (log 46, the model's reading), and after them the
LOG_ONLY ones in index order (logs 50 and 16, the model's choice; StoreClipsLost). (R118, R119, R122, R129, R147,
R170) -/
def Obligations.SetStoreEnablesOrDisables : Prop :=
  ∀ s c, AtHead c s → c.code = 13 →
    (1 < c.word 0 → exec .setStore s = .next (answered c (.refused .badField 1) s))
    ∧ (c.word 0 = 1 → s.store.state = .off → ap .store s = none →
        exec .setStore s = .next (answered c (.refused .state 0) s))
    ∧ (c.word 0 = 1 → s.store.state = .off → ∀ a st, ap .store s = some a →
        st = { s.store with
          state := .running, head := 0, nextSeq := 0, retained := [], index := Table.fill 4 []
          gapRuns := Table.fill 5 0, openMark := Table.fill 4 false, epoch := s.store.epoch + 1 } →
        exec .setStore s = .next (answered c (.done 0) { s with
          store := st
          ins := { s.ins with holds := s.ins.holds.modify 3 fun h =>
            h ++ [⟨.write a.base (storeHeader st (a.size / 64 - 1)), .nothing⟩] } }))
    ∧ ((c.word 0 = 1 ∧ s.store.state ≠ .off) ∨ (c.word 0 = 0 ∧ s.store.state = .off) →
        exec .setStore s = .next (answered c (.done 0) s))
    ∧ (c.word 0 = 0 → s.store.state ≠ .off → ∃ t, exec .setStore s = .next (answered c (.done 0) t)
        ∧ t.store = { s.store with state := .off, retained := [], index := Table.fill 4 [] }
        ∧ t.xfer.queue = []
        ∧ t.ins.holds.get 3 = [⟨.write (apBase .store s) (storeHeader t.store (storeCells s)), .nothing⟩]
        ∧ (∀ i, (t.log.recs.get i).firstPending = false ∧ ((t.log.recs.get i).first.isSome = true →
            (t.log.recs.get i).state ≠ .opened ∧ (t.log.recs.get i).state ≠ .closed ∧ (t.log.recs.get i).state ≠ .sent))
        ∧ (LogOk s → StoreDropped s t)
        ∧ (∀ idx : Send → Fin 256, (s.xfer.queue.map (·.clip)).Nodup →
          (∀ x ∈ s.xfer.queue, findClip x.clip s = some (idx x)) → ∃ w,
          StoreClipsLost (allEnded 2 idx { s with ins := { s.ins with holds := s.ins.holds.set 3 [] } }) w
            ∧ t = { w with store := t.store, ins := { w.ins with holds := w.ins.holds.set 3 (t.ins.holds.get 3) } })
        ∧ t.clock = s.clock ∧ t.lanes = s.lanes ∧ t.sel = s.sel ∧ t.snd = s.snd ∧ t.aps = s.aps ∧ t.pins = s.pins)

/-- With the command at the head of the queue. SET_PIN: a pin above 11 is BAD_FIELD 1 and a function above 2 BAD_FIELD
2. UNUSED takes the function and drops the candidate. MARK: edge, action, input and a label code of 0 for LABEL
are BAD_FIELD 3 to 6, the first that holds; else it takes its parameters, a preroll above 250 becoming 250 with
DONE_CLAMPED, and the level shown is the confirmed and last level. LINE: a bad mode is BAD_FIELD 7 and a bad tally
input of TALLY BAD_FIELD 8; else it takes mode, tally input, period and on-count, brought into range with
DONE_CLAMPED, a tally input out of range in another mode leaving the one held (log 37, the model's reading).
SET_LINE_LEVELS: a mask or data of more than 12 bits is BAD_FIELD 1 or 2; else each LINE pin in the mask has its
data bit as its level and no other pin changes, and the detail is the set of those pins. After the load a LINE pin
drives its level register, or whether its tally input is the programme lane, or whether the frame count mod its
period is below its on-count; every other pin, and during the load every pin, drives none. (R132, R159, R160,
R161) -/
def Obligations.PinsAreSetAndLinesDriven : Prop :=
  (∀ s c lv, AtHead c s → c.code = 14 →
    (11 < c.word 0 → exec (.setPin lv) s = .next (answered c (.refused .badField 1) s))
    ∧ ∀ p : Fin 12, c.word 0 = p.val → ∀ P, P = s.pins.get p →
      (2 < c.word 1 → exec (.setPin lv) s = .next (answered c (.refused .badField 2) s))
      ∧ (c.word 1 = 0 → exec (.setPin lv) s = .next (answered c (.done 0)
          { s with pins := s.pins.set p { P with fn := .unused, cand := none } }))
      ∧ (c.word 1 = 1 → ∀ e a (i : Fin 4), edgeOf (c.word 2) = some e → markActionOf (c.word 4) = some a →
          c.word 5 = i.val → (a = .label → c.low16 6 ≠ 0) →
          exec (.setPin lv) s = .next (answered c (if 250 < c.word 7 then .doneClamped 0 else .done 0)
            { s with pins := s.pins.set p { P with
                fn := .mark, edge := e, filter := c.word 3 % 256, action := a, input := i
                label := BitVec.ofNat 16 (c.low16 6), preroll := min (c.word 7) 250, cand := none
                confirmed := lv.getLsbD p.val, last := lv.getLsbD p.val } }))
      ∧ (c.word 1 = 1 → ∀ k, k = (if 2 < c.word 2 then 3 else if 3 < c.word 4 then 4 else if 3 < c.word 5 then 5
            else if c.word 4 = 3 ∧ c.low16 6 = 0 then 6 else 0) → k ≠ 0 →
          exec (.setPin lv) s = .next (answered c (.refused .badField k) s))
      ∧ (c.word 1 = 2 → 2 < c.word 8 → exec (.setPin lv) s = .next (answered c (.refused .badField 7) s))
      ∧ (c.word 1 = 2 → c.word 8 = 1 → 3 < c.word 9 → exec (.setPin lv) s = .next (answered c (.refused .badField 8) s))
      ∧ (c.word 1 = 2 → ∀ m (i : Fin 4), lineModeOf (c.word 8) = some m →
          c.word 9 = i.val ∨ (3 < c.word 9 ∧ m ≠ .tally ∧ i = P.tally) →
          exec (.setPin lv) s = .next (answered c
            (if c.word 10 < 2 ∨ 250 < c.word 10 ∨ max 2 (min (c.word 10) 250) < c.word 11 then .doneClamped 0 else .done 0)
            { s with pins := s.pins.set p { P with
                fn := .line, mode := m, tally := i, period := max 2 (min (c.word 10) 250)
                onCount := min (c.word 11) (max 2 (min (c.word 10) 250)), cand := none } })))
    ∧ (∀ s c, AtHead c s → c.code = 15 →
      (4096 ≤ c.word 0 → exec .setLineLevels s = .next (answered c (.refused .badField 1) s))
      ∧ (c.word 0 < 4096 → 4096 ≤ c.word 1 → exec .setLineLevels s = .next (answered c (.refused .badField 2) s))
      ∧ (c.word 0 < 4096 → c.word 1 < 4096 → ∃ t d, exec .setLineLevels s = .next (answered c (.done d) t)
          ∧ t = { s with pins := t.pins }
          ∧ (∀ p : Fin 12, t.pins.get p =
              if (c.word 0).testBit p.val = true ∧ (s.pins.get p).fn = .line then
                { s.pins.get p with level := (c.word 1).testBit p.val } else s.pins.get p)
          ∧ ∀ p : Fin 12, d.testBit p.val = true ↔ (c.word 0).testBit p.val = true ∧ (s.pins.get p).fn = .line))
    ∧ ∀ s p P, P = s.pins.get p →
      (s.ctl.loader ≠ .ended ∨ P.fn ≠ .line → drivenLevel p s = none)
      ∧ (s.ctl.loader = .ended → P.fn = .line →
        (P.mode = .level → drivenLevel p s = some P.level)
        ∧ (P.mode = .tally → drivenLevel p s = some (decide (s.sel.programme = some P.tally)))
        ∧ (P.mode = .blink → drivenLevel p s = some (decide (s.clock.frame.toNat % P.period < P.onCount))))

/-- With the command at the head of the queue, in this order: a due timecode of D or more is BAD_FIELD 1, flags above
1 BAD_FIELD 2, the first bad action slot i BAD_FIELD 3 + i, a past cue without LATE_OK PAST, and a full table
FULL. A cue is past when its distance ahead of the current timecode, mod D, is 0 or above D less the lookback
window. Else the entry is inserted behind every entry due at or before it: a past cue due at the next frame with
its late mark, any other at its distance ahead. The detail is its position, with 256 more when it is late (the
packing is the model's, log 13). Nothing else changes. (R152, R153) -/
def Obligations.AddCueAdmitsInOrder : Prop :=
  ∀ s c, AtHead c s → c.code = 16 → ∀ d, d = subMod (c.field 4 4) (timecode s) (dayFrames s) →
    ∀ past, past = (decide (d = 0) || decide (dayFrames s - Config.lookback s.clock.rate < d)) →
    exec .addCue s = .next
      (if dayFrames s ≤ c.field 4 4 then answered c (.refused .badField 1) s
      else if 1 < c.field 1 1 then answered c (.refused .badField 2) s
      else match badSlot c with
        | some i => answered c (.refused .badField (3 + i.val)) s
        | none =>
          if past = true ∧ c.field 1 1 = 0 then answered c (.refused .past 0) s
          else if 32 ≤ s.cues.length then answered c (.refused .full 0) s
          else
            let e : Cue := ⟨c.field 0 1, c.field 4 4,
              if past = true then s.clock.frame + 1
              else s.clock.frame + BitVec.ofNat 32 d, past, cueActs c⟩
            let before := s.cues.takeWhile fun x => atOrBefore x.due e.due
            answered c (.done (before.length + if past = true then 256 else 0))
              { s with cues := before ++ e :: s.cues.dropWhile fun x => atOrBefore x.due e.due })

/-- With the command at the head of the queue, when no entry has the id the result is NOT_FOUND and nothing changes.
CANCEL_CUE: the first entry of the id leaves, the detail is its due timecode, and nothing else changes. FORCE_CUE:
the slots of the first entry of the id are applied in order, each in the state the one before left, and each that
fails raises CUE_ACTION_FAILED with slot, kind and reason; the entry leaves, CUE_FORCED is raised, and the detail
is the set of failed slots, a number below 16. An action: NONE does nothing; SWITCH makes an enabled lane pending,
or cancels a pending switch, and fails STATE for a disabled one; FADE sets target and step, 0 becoming 1, and
fails STATE for a disabled tap; LINES is a level write; the clip actions are mark arrivals of the current frame
and timecode, preroll 0 and the cue as origin, failing as the arrival does. (R156, R157, R155, R154) -/
def Obligations.CuesAreCancelledOrForced : Prop :=
  (∀ s c, AtHead c s → c.code = 17 →
    (s.cues.find? (fun e => e.id = c.word 0) = none → exec .cancelCue s = .next (answered c (.refused .notFound 0) s))
    ∧ ∀ pre e post, s.cues = pre ++ e :: post → (∀ x ∈ pre, x.id ≠ c.word 0) → e.id = c.word 0 →
        exec .cancelCue s = .next (answered c (.done e.dueTc) { s with cues := pre ++ post }))
    ∧ (∀ s c, AtHead c s → c.code = 18 →
      (s.cues.find? (fun e => e.id = c.word 0) = none → exec .forceCue s = .next (answered c (.refused .notFound 0) s))
      ∧ ∀ pre e post, s.cues = pre ++ e :: post → (∀ x ∈ pre, x.id ≠ c.word 0) → e.id = c.word 0 →
        ∃ (v : Nat → State) (d : Nat), v 0 = s ∧ d < 16
          ∧ (∀ i : Fin 4, ∀ r, r = applyAct e.id (e.acts.get i) (v i.val) →
            (r.2 = none → v (i.val + 1) = r.1 ∧ d.testBit i.val = false)
            ∧ ∀ f, r.2 = some f → d.testBit i.val = true
              ∧ v (i.val + 1) = raise .cueActionFailed e.id [b1 i.val, b1 (e.acts.get i).kindNum, b1 f.code] r.1)
          ∧ exec .forceCue s = .next (answered c (.done d)
            (raise .cueForced e.id [b4 e.dueTc, b4 e.due.toNat, b1 d] { v 4 with cues := pre ++ post })))
    ∧ ∀ s id,
      applyAct id .none s = (s, none)
      ∧ (∀ l, applyAct id (.switch l) s = if (s.lanes.get l).intake = .disabled then (s, some .state)
          else ({ s with sel := { s.sel with waiting := if s.sel.programme = some l then none else some l } }, none))
      ∧ (∀ k target step T, T = s.snd.taps.get k → applyAct id (.fade k target step) s =
          if T.enabled = false then (s, some .state)
          else ({ s with snd := { s.snd with taps := (s.snd.taps.set k
            { T with target := target, step := if step = 0 then 1 else step }) } }, none))
      ∧ (∀ mask data, ∃ t, applyAct id (.lines mask data) s = (t, none) ∧ t = { s with pins := t.pins }
          ∧ ∀ p : Fin 12, t.pins.get p = if mask.getLsbD p.val = true ∧ (s.pins.get p).fn = .line then
              { s.pins.get p with level := data.getLsbD p.val } else s.pins.get p)
      ∧ ∀ i k act m, (act = .clipIn i ∧ m = .markIn ∧ k = 0) ∨ (act = .clipOut i ∧ m = .markOut ∧ k = 0)
            ∨ (act = .label i k ∧ m = .label) →
          ∀ r, r = markArrival m i k s.clock.frame (timecode s) 0 (.cue id) s →
            (applyAct id act s).1 = r.1
            ∧ ((applyAct id act s).2 = match r.2 with
              | .done _ | .present _ => none
              | .labelDropped _ => some .full
              | .orphanOut => some .orphanOut
              | .orphanLabel => some .orphanLabel
              | .logFull => some .logFull)

/-- CLIP_MARK: action, input and a LABEL code of 0 out of range are BAD_FIELD 1 to 3; else it is a mark arrival of the
current frame and timecode with the preroll held to 250 and the command as origin, and the outcome gives the
result as in R140. The arrivals, of any origin, with the clip log consistent: TOGGLE is IN when the input has no
OPEN clip, else OUT. IN with an OPEN clip first closes it at one frame before the new in-frame, or at its own in-
frame, and then goes on. IN with none takes the record of TakesRecord (lowest FREE, else earliest SENT, else
earliest LOST) for a new clip with the first number from the next one on that nobody holds, in-frame and in
timecode less the preroll, its range by R126, all else empty; CLIP_OPENED is raised with its items and the origin
last (log 41, the model's reading), the OPEN tag offered to the effective route set, the record mirrored. With no
record to take LOG_FULL is raised. OUT closes the OPEN clip at the carried frame, or at its in-frame when that is
later (closedAs: state, stamp, pointer, END_PENDING, CLIP_CLOSED, the CLOSE tag, the mirror write); with none
ORPHAN_OUT is raised. As a command: IN with no OPEN clip and a FREE record, and OUT, with every other record as
before. LABEL arrivals are in ClipsAreLabelledAndDeleted. (R126, R138, R139, R140, R141, R142, R143, R149) -/
def Obligations.ClipMarkOpensAndCloses : Prop :=
  (∀ s c, AtHead c s → c.code = 19 → LogOk s →
    (3 < c.word 0 → exec .clipMark s = .next (answered c (.refused .badField 1) s))
    ∧ (c.word 0 ≤ 3 → 3 < c.word 1 → exec .clipMark s = .next (answered c (.refused .badField 2) s))
    ∧ ∀ n : Fin 4, c.word 1 = n.val →
      (c.word 0 = 0 → c.word 3 ≤ 250 → s.log.opens.get n = none →
        ∀ i, (s.log.recs.get i).state = .free → (∀ j, j < i → (s.log.recs.get j).state ≠ .free) →
        ∃ t R, exec .clipMark s = .next (answered c (.done R.num) t) ∧ R = t.log.recs.get i ∧ R.state = .opened
          ∧ R.source = n ∧ R.inFrame = s.clock.frame - BitVec.ofNat 32 (c.word 3)
          ∧ R.inTc = subMod (timecode s) (c.word 3) (dayFrames s) ∧ R.out = none ∧ R.labels = []
          ∧ R.rev = (s.log.recs.get i).rev + 1 ∧ 1 ≤ R.num ∧ R.num ≤ 65535
          ∧ t.log.opens = s.log.opens.set n (some R.num)
          ∧ ∀ j, j ≠ i → t.log.recs.get j = s.log.recs.get j ∧ (t.log.recs.get j).num ≠ R.num)
      ∧ (c.word 0 = 1 → c.word 3 ≤ 250 → ∀ i R, R = s.log.recs.get i → R.state = .opened → R.source = n →
        atOrBefore R.inFrame s.clock.frame = true →
        ∃ t, exec .clipMark s = .next (answered c (.done R.num) t)
          ∧ t.log.recs.get i = { R with
              state := .closed, out := some (s.clock.frame, timecode s), stamp := some s.log.closeCount
              endPending := !R.logOnly && R.last.isNone, rev := R.rev + 1 }
          ∧ t.log.opens = s.log.opens.set n none ∧ t.log.closeCount = s.log.closeCount + 1
          ∧ ∀ j, j ≠ i → t.log.recs.get j = s.log.recs.get j)
      ∧ (c.word 0 = 1 → s.log.opens.get n = none →
        ∃ t, exec .clipMark s = .next (answered c (.refused .state 1) t) ∧ t.log = s.log))
    ∧ (∀ s c, AtHead c s → c.code = 19 →
      (c.word 0 = 3 → c.word 1 ≤ 3 → c.low16 2 = 0 → exec .clipMark s = .next (answered c (.refused .badField 3) s))
      ∧ ∀ (n : Fin 4) m r, c.word 1 = n.val →
        (c.word 0 = 0 ∧ m = .markIn) ∨ (c.word 0 = 1 ∧ m = .markOut) ∨ (c.word 0 = 2 ∧ m = .toggle)
          ∨ (c.word 0 = 3 ∧ m = .label ∧ c.low16 2 ≠ 0) →
        r = markArrival m n (BitVec.ofNat 16 (c.low16 2)) s.clock.frame (timecode s) (min (c.word 3) 250) .command s →
        exec .clipMark s = .next (answered c (match r.2 with
          | .done x => if 250 < c.word 3 then .doneClamped x else .done x
          | .present x => .done x
          | .labelDropped x => .refused .full x
          | .orphanOut => .refused .state 1
          | .orphanLabel => .refused .state 1
          | .logFull => .refused .state 2) r.1))
    ∧ ∀ s (n : Fin 4) k g tc p o f ftc, LogOk s → f = g - BitVec.ofNat 32 p → ftc = subMod tc p (dayFrames s) →
      (markArrival .toggle n k g tc p o s = if s.log.opens.get n = none then markArrival .markIn n k g tc p o s
        else markArrival .markOut n k g tc p o s)
      ∧ (s.log.opens.get n = none →
        markArrival .markOut n k g tc p o s = (raise .orphanOut 0 [b1 n.val, b4 g.toNat, o.item] s, .orphanOut))
      ∧ (∀ i R, R = s.log.recs.get i → R.state = .opened → R.source = n →
        (markArrival .markOut n k g tc p o s = (if earlier g R.inFrame = true then closedAs i R.inFrame R.inTc o s
          else closedAs i g tc o s, .done R.num))
        ∧ ∀ u, u = (if earlier (f - 1) R.inFrame = true then closedAs i R.inFrame R.inTc o s
            else closedAs i (f - 1) (subMod ftc 1 (dayFrames s)) o s) →
          markArrival .markIn n k g tc p o s = markArrival .markIn n k g tc p o u
            ∧ u.log.opens.get n = none ∧ LogOk u ∧ u.clock = s.clock)
      ∧ (s.log.opens.get n = none →
        (∀ i R, R = s.log.recs.get i → R.state ≠ .free ∧ R.state ≠ .sent ∧ R.state ≠ .lost) →
        markArrival .markIn n k g tc p o s = (raise .logFull 0 [b1 n.val, b4 f.toNat, o.item] s, .logFull))
      ∧ (s.log.opens.get n = none → ∀ i R, R = s.log.recs.get i → TakesRecord i s → ∃ (X : Clip) (w : State),
        X = { Clip.free R.rev with
            num := X.num, state := .opened, source := n, inFrame := f, inTc := ftc, first := X.first
            prerollShort := X.prerollShort, firstPending := X.firstPending, logOnly := X.logOnly }
        ∧ NextFree i X.num s ∧ OpensWithRange n X s
        ∧ w = raise .clipOpened X.num [b1 n.val, b4 f.toNat, b1 i.val, b2 R.num, b1 X.flags.toNat, o.item]
          { s with log := { s.log with
            recs := s.log.recs.set i X, nextNum := X.num % 65535 + 1, opens := s.log.opens.set n (some X.num) } }
        ∧ markArrival .markIn n k g tc p o s = (mirror i ((effectiveRoute w).foldl (fun y q =>
            offerTag (.tag n s.clock.frame (timecode s) X.num .opened (tagBody X .opened)) q y) w), .done X.num))

/-- With the command at the head of the queue and record i the one non-FREE record of the clip number named.
CLIP_LABEL with an operation above 1 is BAD_FIELD 1, and else with code 0 BAD_FIELD 2. With both in range, add: a
new code joins the end of fewer than six labels; a code already there is DONE with nothing changed; a seventh code
counts as dropped, the record is mirrored, and the result is REFUSED FULL. Remove: a code that is there leaves and
the others keep their order; one that is not there is NOT_FOUND 2. A list that has changed is DONE: the record is
mirrored, then the LABEL tag with the new list is offered to each path of the effective route set, and the log is
otherwise as before. CLIP_DELETE: a SENDING clip is STATE 1; any other record becomes FREE with its revision
risen, an OPEN clip's pointer cleared, and nothing changes but the log and the mirror write. For both a clip
number nobody holds is NOT_FOUND 1. A LABEL arrival of any origin, with the clip log consistent: the target is the
input's OPEN clip, else its CLOSED, SENDING or SENT clip with the latest close stamp (of equal ones the lowest
index: log 16, the model's choice), and with neither ORPHAN_LABEL is raised and nothing else changes. A code
already there has no effect; with six labels the dropped count rises, holding at 65 535, and the record is
mirrored; else the code joins the labels, the record is mirrored, and the LABEL tag with the new list is offered
to the effective route set. A mirror raises the record's revision and, while LOG is SET, puts its 64 bytes at 64
times its index in the control block's hold. (R144, R145, R146, R148, R149) -/
def Obligations.ClipsAreLabelledAndDeleted : Prop :=
  ((∀ s c, AtHead c s → c.code = 20 →
      (1 < c.word 1 → exec .clipLabel s = .next (answered c (.refused .badField 1) s))
      ∧ (c.word 1 ≤ 1 → c.low16 2 = 0 → exec .clipLabel s = .next (answered c (.refused .badField 2) s)))
    ∧ (∀ s c, AtHead c s → c.code = 20 → c.word 1 ≤ 1 → c.low16 2 ≠ 0 →
    (findClip (c.word 0) s = none → exec .clipLabel s = .next (answered c (.refused .notFound 1) s))
    ∧ ∀ i R k, findClip (c.word 0) s = some i → R = s.log.recs.get i → k = BitVec.ofNat 16 (c.low16 2) →
      (c.word 1 = 0 → k ∈ R.labels → exec .clipLabel s = .next (answered c (.done 0) s))
      ∧ (∀ X w, w = mirror i { s with log := { s.log with recs := s.log.recs.set i X } } →
        (c.word 1 = 0 → k ∉ R.labels → 6 ≤ R.labels.length →
          X = { R with labelsDropped := min (R.labelsDropped + 1) 65535 } →
          exec .clipLabel s = .next (answered c (.refused .full 0) w))
        ∧ ((c.word 1 = 0 ∧ k ∉ R.labels ∧ R.labels.length < 6 ∧ X = { R with labels := R.labels ++ [k] })
            ∨ (c.word 1 = 1 ∧ k ∈ R.labels ∧ X = { R with labels := R.labels.filter fun x => decide (x ≠ k) }) →
          exec .clipLabel s = .next (answered c (.done 0) ((effectiveRoute w).foldl (fun y q =>
            offerTag (.tag R.source s.clock.frame (timecode s) R.num .label (tagBody X .label)) q y) w))
          ∧ ∀ v, v = (effectiveRoute w).foldl (fun y q =>
              offerTag (.tag R.source s.clock.frame (timecode s) R.num .label (tagBody X .label)) q y) w →
            v.log = { s.log with recs := s.log.recs.set i { X with rev := R.rev + 1 } }))
      ∧ (c.word 1 = 1 → k ∉ R.labels → exec .clipLabel s = .next (answered c (.refused .notFound 2) s)))
    ∧ ∀ s c, AtHead c s → c.code = 21 →
      (findClip (c.word 0) s = none → exec .clipDelete s = .next (answered c (.refused .notFound 1) s))
      ∧ ∀ i R, findClip (c.word 0) s = some i → R = s.log.recs.get i →
        (R.state = .sending → exec .clipDelete s = .next (answered c (.refused .state 1) s))
        ∧ (R.state ≠ .sending → ∃ t, exec .clipDelete s = .next (answered c (.done 0) t)
          ∧ t = { s with
              log := { s.log with
                recs := s.log.recs.set i (Clip.free (R.rev + 1))
                opens := if R.state = .opened then s.log.opens.set R.source none else s.log.opens }
              ins := t.ins }
          ∧ (ap .log s = none → t.ins = s.ins)
          ∧ ∀ a, ap .log s = some a → t.ins = { s.ins with holds := s.ins.holds.modify 0 fun h =>
              h ++ [⟨.write (a.base + 64 * i.val) (zeros 5 ++ [R.rev + 1] ++ zeros 58), .nothing⟩] }))
    ∧ (∀ i s R, R = s.log.recs.get i → mirror i s = { s with
        log := { s.log with recs := s.log.recs.set i { R with rev := R.rev + 1 } }
        ins := match ap .log s with
          | none => s.ins
          | some a => { s.ins with holds := s.ins.holds.modify 0 fun h =>
              h ++ [⟨.write (a.base + 64 * i.val) (clipRecord { R with rev := R.rev + 1 }), .nothing⟩] } })
    ∧ ∀ s (n : Fin 4) k g tc p o (closed : Clip → Prop), LogOk s →
      (∀ R, closed R ↔ R.source = n ∧ (R.state = .closed ∨ R.state = .sending ∨ R.state = .sent)) →
      (s.log.opens.get n = none → (∀ i, ¬closed (s.log.recs.get i)) →
        markArrival .label n k g tc p o s = (raise .orphanLabel 0 [b1 n.val, b2 k.toNat, o.item] s, .orphanLabel))
      ∧ ∀ i R, R = s.log.recs.get i →
        (R.state = .opened ∧ R.source = n) ∨ (s.log.opens.get n = none ∧ closed R ∧ ∃ y, R.stamp = some y
          ∧ ∀ j, j ≠ i → closed (s.log.recs.get j) → ∃ z, (s.log.recs.get j).stamp = some z ∧ earlier y z = false
            ∧ (j < i → earlier z y = true)) →
        (k ∈ R.labels → markArrival .label n k g tc p o s = (s, .present R.num))
        ∧ (k ∉ R.labels → 6 ≤ R.labels.length → markArrival .label n k g tc p o s = (mirror i { s with log := { s.log with
            recs := s.log.recs.set i { R with labelsDropped := min (R.labelsDropped + 1) 65535 } } }, .labelDropped R.num))
        ∧ (k ∉ R.labels → R.labels.length < 6 → ∀ X w, X = { R with labels := R.labels ++ [k] } →
          w = mirror i { s with log := { s.log with recs := s.log.recs.set i X } } →
          markArrival .label n k g tc p o s = ((effectiveRoute w).foldl (fun y q =>
            offerTag (.tag R.source s.clock.frame (timecode s) R.num .label (tagBody X .label)) q y) w, .done R.num))

/-- With the command at the head of the queue. SEND_CLIP of a CLOSED or SENT clip with its range resolved to a path
that is not OFF with room in the queue: the clip is SENDING with its present state as prior and mirrored, its
entry last in the queue, and the detail is its position; behind another entry nothing else changes; into an empty
queue it becomes active at once (TransfersReadOfferAndAdvance says how), and when the first unit of its range is
retained and selected, the cursor is that unit and the remaining count the range's length. The checks before give
their results in order. ABORT_SEND of a queued clip: it leaves the queue for its prior state and is mirrored,
nothing else changes, detail 0. Of the active one, whatever is queued behind it, detail 1: an offer it is PAUSED
on is withdrawn from the path, its read entries leave the engine's hold and its buffer is empty (letGoOf); the
clip has its prior state again, with its sends count as it was, and is mirrored; TRANSFER_ENDED is raised with
ABORTED, the path and the placed and remaining counts (endedTo); the entry leaves and the next one becomes active
(nextActive). With the clip log consistent: with nothing left the engine is idle (log 27, the model's choice), and
when the next clip's first unit is retained and selected, it is read from there with counts 0 and the range's
length remaining (NextStarts). (R165, R166, R169) -/
def Obligations.ClipsAreQueuedAndAborted : Prop :=
  (∀ s c, AtHead c s → c.code = 22 →
    (1 < c.word 1 → exec .sendClip s = .next (answered c (.refused .badField 1) s))
    ∧ ∀ p : Fin 2, c.word 1 = p.val →
      (findClip (c.word 0) s = none → exec .sendClip s = .next (answered c (.refused .notFound 1) s))
      ∧ ∀ i R, findClip (c.word 0) s = some i → R = s.log.recs.get i →
        (R.logOnly = true → exec .sendClip s = .next (answered c (.refused .noData 0) s))
        ∧ (R.logOnly = false → R.state ≠ .closed → R.state ≠ .sent →
            exec .sendClip s = .next (answered c (.refused .state 1) s))
        ∧ (R.logOnly = false → R.state = .closed ∨ R.state = .sent →
          (R.endPending = true ∨ R.firstPending = true → exec .sendClip s = .next (answered c (.refused .state 2) s))
          ∧ (R.endPending = false → R.firstPending = false →
            ((s.home.paths.get p).state = .off → exec .sendClip s = .next (answered c (.refused .state 3) s))
            ∧ ((s.home.paths.get p).state ≠ .off →
              (8 ≤ s.xfer.queue.length → exec .sendClip s = .next (answered c (.refused .full 0) s))
              ∧ (s.xfer.queue.length < 8 → s.xfer.queue ≠ [] →
                exec .sendClip s = .next (answered c (.done s.xfer.queue.length) (mirror i { s with
                  log := { s.log with recs := s.log.recs.set i { R with state := .sending, prior := some R.state } }
                  xfer := { s.xfer with queue := s.xfer.queue ++ [⟨R.num, p⟩] } })))
              ∧ (s.xfer.queue = [] →
                exec .sendClip s = .next (answered c (.done 0) (nextActive [⟨R.num, p⟩] (mirror i { s with
                  log := { s.log with recs := s.log.recs.set i { R with state := .sending, prior := some R.state } } }))))
              ∧ (s.xfer.queue = [] → ∀ f l e u, NumbersOk s → R.first = some f → R.last = some l →
                l.1 - f.1 + 1 ≠ 0 → retainedOf f.1 s = some (e, u) → R.selects u = true →
                ∃ t, exec .sendClip s = .next (answered c (.done 0) t)
                  ∧ t.log = { s.log with recs := (s.log.recs.set i
                        { R with state := .sending, prior := some R.state, rev := R.rev + 1 }) }
                  ∧ t.xfer.queue = [⟨R.num, p⟩] ∧ t.xfer.cursor = f.1 ∧ t.xfer.remaining = (l.1 - f.1 + 1).toNat
                  ∧ t.xfer.paused = false ∧ t.xfer.issued = false ∧ t.xfer.buffer = [] ∧ t.xfer.placed = 0
                  ∧ t.xfer.skipped = 0 ∧ t.xfer.oversize = 0 ∧ t.home = s.home ∧ t.store = s.store)))))
    ∧ ∀ s c, AtHead c s → c.code = 23 →
      (findClip (c.word 0) s = none → exec .abortSend s = .next (answered c (.refused .notFound 1) s))
      ∧ ∀ i R, findClip (c.word 0) s = some i → R = s.log.recs.get i →
        (R.state ≠ .sending → exec .abortSend s = .next (answered c (.refused .state 1) s))
        ∧ (R.state = .sending → ∀ e rest k, s.xfer.queue = e :: rest → R.prior = some k →
          (e.clip ≠ c.word 0 → exec .abortSend s = .next (answered c (.done 0) (mirror i { s with
            log := { s.log with recs := s.log.recs.set i { R with state := k, prior := none } }
            xfer := { s.xfer with queue := s.xfer.queue.filter fun x => decide (x.clip ≠ c.word 0) } })))
          ∧ (e.clip = c.word 0 → ∀ v, v = endedTo 0 e s.xfer.placed.toNat s.xfer.remaining i (letGoOf e s) →
            exec .abortSend s = .next (answered c (.done 1) (nextActive rest v))
            ∧ v.log = { s.log with recs := s.log.recs.set i { R with state := k, prior := none, rev := R.rev + 1 } }
            ∧ v.ins.holds.get 5 = [] ∧ (s.xfer.paused = true → (v.home.paths.get e.path).heldOffer = none)
            ∧ (LogOk s → NextStarts rest s v)))

/-- With the command at the head of the queue. SET_NOTICES: a mode above 1 is BAD_FIELD 1 and a mask with bit 0 or 31
BAD_FIELD 2; else the mode is the one named, the mask the named kinds with kinds 1, 12, 17 and 22, and ATTN is
high exactly when an unreleased notice has a kind in it. A command of a code above 25 is refused UNKNOWN. Nothing
else changes. (R175, R177, R180) -/
def Obligations.SetNoticesAndUnknownCommands : Prop :=
  (∀ s c, AtHead c s → c.code = 24 →
    (1 < c.word 0 → exec .setNotices s = .next (answered c (.refused .badField 1) s))
    ∧ (c.word 0 ≤ 1 → (c.word 1).testBit 0 = true ∨ (c.word 1).testBit 31 = true →
        exec .setNotices s = .next (answered c (.refused .badField 2) s))
    ∧ (c.word 0 ≤ 1 → (c.word 1).testBit 0 = false → (c.word 1).testBit 31 = false →
        ∃ m : BitVec 32, (∀ k, m.getLsbD k = (decide (k < 32) && ((c.word 1).testBit k || k == 1 || k == 12 || k == 17 || k == 22)))
          ∧ exec .setNotices s = .next (answered c (.done 0) { s with ctl := { s.ctl with
              mode := if c.word 0 = 0 then .read else .write
              mask := m
              attn := s.ctl.unreleased.any fun k => m.getLsbD k.num } })))
    ∧ ∀ s c, AtHead c s → 25 < c.code → exec .unknownCommand s = .next (answered c (.refused .unknown 0) s)

/-- With the command at the head of the queue the result is DONE with the clear count, risen by one. Send queue and
cue table are empty. An enabled store is RUNNING with nothing retained, head and sequence 0, its epoch risen, and
its hold one header write; an OFF one stands. An enabled path is RUNNING with empty counters and lists, its epoch
risen, and its hold one header write of published 0; an OFF one keeps state and counters. Every lane has F 0 and q
its q_floor, and waits if enabled. Every sound input is empty, not silent, and seeks if enabled; gains are their
targets, arms set, marks clear, no unit open, the monitor position kept. With the clip log consistent, each
SENDING clip, and with an enabled store each OPEN, CLOSED or SENT one with its first unit resolved, is LOST with
its marks and tally gone, and each other FIRST_PENDING one is LOG_ONLY; every other record stands, a pointer is
cleared exactly where its clip is LOST, and the numbers stand. Map, guards, clock, selector, pins, port, DRAM,
insert queue, commands, loader, mode, mask and the released count are kept; the notices raised join the unreleased
ones, in this order and no others: TRANSFER_ENDED CLEARED and CLIP_LOST of each transfer (allEnded; idle: log 27,
the model's choice), CLIP_LOST of the others, oldest first unit first (log 46, the model's reading), then the
LOG_ONLY ones in index order (logs 50 and 16, the model's choice; StoreClipsLost), a BLOCKED store's
STORE_RESUMED, and path A before B (log 47, the model's choice) a STALLED path's RESUME of reason CLEARED with 0
cells in use (log 22, the model's reading), with RESTORE of set {A} for path A under A_THEN_B; with nothing to
report the counts stand. The header record stands last in the control block's hold while COMMANDS is SET, behind
what the hold had and these notices' and mirrors' writes alone (NoticeWrite, MirrorWrite); with the clip log
consistent and LOG SET, each changed record is written there once, as it then stands, and no other. (R182, R115,
R130, R68, R84, R88, R93, R148, R150, R162, R170) -/
def Obligations.ClearMediaEmptiesTheMedia : Prop :=
  ∀ s c, AtHead c s → c.code = 25 → ∃ t, exec .clearMedia s = .next (answered c (.done (s.ctl.clears + 1).toNat) t)
    ∧ t.ctl.clears = s.ctl.clears + 1 ∧ t.xfer.queue = [] ∧ t.cues = []
    ∧ t.store = (if s.store.state = .off then s.store
        else { s.store with
          state := .running, head := 0, nextSeq := 0, retained := [], index := Table.fill 4 []
          openMark := Table.fill 4 false, gapRuns := Table.fill 5 0, epoch := s.store.epoch + 1 })
    ∧ (∀ p, (s.home.paths.get p).state ≠ .off → t.home.paths.get p = { s.home.paths.get p with
        state := .running, units := [], placed := 0, published := 0, consumed := 0, nextSeq := 0, arm := true
        stall := 0, tags := [], heldOffer := none, shedRuns := Table.fill 5 0, epoch := (s.home.paths.get p).epoch + 1 })
    ∧ (∀ p, (s.home.paths.get p).state = .off →
        t.home.paths.get p = { s.home.paths.get p with heldOffer := (t.home.paths.get p).heldOffer })
    ∧ (∀ l, t.lanes.get l =
        let L := s.lanes.get l
        { L with fullness := 0, q := L.qFloor, intake := if L.intake = .disabled then .disabled else .waiting })
    ∧ (∀ i, t.snd.inputs.get i =
        let X := s.snd.inputs.get i
        { X with slot := List.replicate X.channels 0, fresh := false, invalid := false, silent := false, starve := 0
                 intake := if X.intake = .disabled then .disabled else .seeking })
    ∧ (∀ k, t.snd.taps.get k = { s.snd.taps.get k with gain := (s.snd.taps.get k).target })
    ∧ t.snd.acc = none ∧ t.snd.restart = false
    ∧ t.aps = s.aps ∧ t.clock = s.clock ∧ t.sel = s.sel ∧ t.pins = s.pins ∧ t.port = s.port ∧ t.dram = s.dram
    ∧ t.home.route = s.home.route
    ∧ (∀ b, t.snd.buses.get b = { s.snd.buses.get b with arm := true, satMark := false }) ∧ t.snd.monPos = s.snd.monPos
    ∧ t.ins.queue = s.ins.queue ∧ t.ins.turn = s.ins.turn ∧ t.ins.holds.get 4 = s.ins.holds.get 4
    ∧ t.ins.holds.get 5 = (if s.xfer.queue = [] then s.ins.holds.get 5 else [])
    ∧ t.ins.holds.get 3 = (if s.store.state = .off then s.ins.holds.get 3
        else [⟨.write (apBase .store s) (storeHeader t.store (storeCells s)), .nothing⟩])
    ∧ (∀ p, t.ins.holds.get (byPath p) = if (s.home.paths.get p).state = .off then s.ins.holds.get (byPath p)
        else [⟨.write (apBase (.path p) s) (ringHeader 0 (pathCells p s) ((s.home.paths.get p).epoch + 1)), .nothing⟩])
    ∧ (∃ es, t.ins.holds.get 0 = s.ins.holds.get 0 ++ es ++ (match ap .commands s with
          | none => []
          | some a => [⟨.write a.base (headerRecord t.ctl), .nothing⟩])
        ∧ (ap .notices s = none → ap .log s = none → es = []) ∧ (∀ x ∈ es, NoticeWrite s x ∨ MirrorWrite s x)
        ∧ (LogOk s → ∀ z, ap .log s = some z → ∀ j, es.countP (fun x => decide (x =
            ⟨.write (z.base + 64 * j.val) (clipRecord (t.log.recs.get j)), .nothing⟩))
          = if t.log.recs.get j = s.log.recs.get j then 0 else 1))
    ∧ t.ctl = { s.ctl with
        clears := s.ctl.clears + 1, written := t.ctl.written, lostBefore := t.ctl.lostBefore
        lostTotal := t.ctl.lostTotal, unreleased := t.ctl.unreleased, attn := t.ctl.attn }
    ∧ (∃ new : List NoticeKind, t.ctl.unreleased = s.ctl.unreleased ++ new
        ∧ t.ctl.written = s.ctl.written + new.length
        ∧ ∀ k ∈ new, k = .transferEnded ∨ k = .clipLost ∨ k = .storeResumed ∨ k = .resume ∨ k = .restore)
    ∧ (∀ idx : Send → Fin 256, (s.xfer.queue.map (·.clip)).Nodup →
        (∀ x ∈ s.xfer.queue, findClip x.clip s = some (idx x)) → ∃ u v w x : State,
        (s.store.state = .off → u = allEnded 3 idx s) ∧ (s.store.state ≠ .off → StoreClipsLost (allEnded 3 idx s) u)
        ∧ (∀ b, s.store.state = .blocked b → v = raise .storeResumed 0 [b2 b, b4 s.store.gaps.toNat] u)
        ∧ ((∀ b, s.store.state ≠ .blocked b) → v = u)
        ∧ (∀ P y, P = s.home.paths.get 0 → y = raise .resume 0 [b1 1, b4 0, b1 P.stallAt] v →
          w = if P.state ≠ .stalled then v else if s.home.route = .aThenB then raise .restore 0 [b1 1] y else y)
        ∧ (∀ P, P = s.home.paths.get 1 →
          x = if P.state ≠ .stalled then w else raise .resume 1 [b1 1, b4 0, b1 P.stallAt] w)
        ∧ t.log = x.log ∧ t.ctl = { x.ctl with clears := s.ctl.clears + 1 }
        ∧ t.ins.holds.get 0 = x.ins.holds.get 0 ++ (match ap .commands s with
          | none => []
          | some a => [⟨.write a.base (headerRecord t.ctl), .nothing⟩]))
    ∧ (∀ lost : Clip → Prop, (∀ R, lost R ↔ R.state = .sending ∨ (s.store.state ≠ .off ∧ R.first.isSome = true
          ∧ (R.state = .opened ∨ R.state = .closed ∨ R.state = .sent))) →
        (s.xfer.queue = [] → (∀ b, s.store.state ≠ .blocked b) → (∀ i, ¬lost (s.log.recs.get i)) →
          (∀ p, (s.home.paths.get p).state ≠ .stalled) → t.ctl = { s.ctl with clears := s.ctl.clears + 1 })
        ∧ (LogOk s → t.log = { s.log with recs := t.log.recs, opens := t.log.opens }
          ∧ (∀ i R, R = s.log.recs.get i →
            (lost R → t.log.recs.get i = { R with
              state := .lost, prior := none, firstPending := false, endPending := false, tally := 0, rev := R.rev + 1 })
            ∧ (¬lost R → s.store.state ≠ .off → R.firstPending = true → t.log.recs.get i = { R with
              firstPending := false, endPending := false, logOnly := true, rev := R.rev + 1 })
            ∧ (¬lost R → s.store.state = .off ∨ R.firstPending = false → t.log.recs.get i = R))
          ∧ ∀ src,
            ((∃ i R, R = s.log.recs.get i ∧ lost R ∧ R.state = .opened ∧ R.source = src) → t.log.opens.get src = none)
            ∧ ((∀ i R, R = s.log.recs.get i → lost R → R.state = .opened → R.source ≠ src) →
              t.log.opens.get src = s.log.opens.get src)))

/-- For every predictor, quantized difference and q, the reconstruction lies in 0 to 1023. Every Rice code has at
least 1 and at most 34 bits, whatever the parameter up to 7 and the mapped count; the code of count 0 with
parameter 0 is one zero bit; a code that is not an escape has at most 30 bits and an escape has exactly 34. A row
of W samples, whatever they are and whatever q and kbase up to 7, is coded in at least W and at most 34 × W bits.
(R45) -/
def Obligations.RowsAreCodedWithinBounds : Prop :=
  (∀ p m q, 0 ≤ reconstruct p m q ∧ reconstruct p m q ≤ 1023)
    ∧ (∀ k u, k ≤ 7 → 1 ≤ (riceCode k u).length ∧ (riceCode k u).length ≤ 34)
    ∧ riceCode 0 0 = [false]
    ∧ (∀ k u, k ≤ 7 → u / 2 ^ k ≤ 22 → (riceCode k u).length ≤ 30)
    ∧ riceCode 7 (22 * 2 ^ 7) = List.replicate 22 true ++ List.replicate 8 false
    ∧ (∀ k u, 22 < u / 2 ^ k → (riceCode k u).length = 34)
    ∧ ∀ q kbase xs, kbase ≤ 7 → xs.length ≤ (codeRow q kbase xs).length ∧ (codeRow q kbase xs).length ≤ 34 * xs.length

/-- A complete row of lane l is coded with the lane's q and kbase as they stand, its rows this frame rise by one, its
cost is its coded bits rounded up to whole 32-bit words, the rate controller is charged, and then the unit of its
frame number, timecode, row, q, Rice parameter, bit count and padded payload is offered to the store, when the
lane records and the store is not OFF, and then, when the lane is the programme lane, as a live unit to each path
of the effective route set as it stands (the order is log 32, the model's reading). The charge of a cost C sets F
to F + C − T held within −B to B and q to q_floor + floor(max(F, 0) ÷ S) with the new F, held within q_floor to 5;
when l is the programme lane and a path of the effective route set has more cells in use than its high mark, q is
one more, at most 5. The charge changes nothing else. StoreOffersStoreOrRefuse and UnitsArePlacedShedOrHeld say
what the offers do. (R40, R46, R48, R49, R53, R54, R55) -/
def Obligations.RowsAreCountedChargedAndOffered : Prop :=
  (∀ s l (c : Nat) L f q, L = s.lanes.get l → f = max (-(L.bound : Int)) (min (L.fullness + (c : Int) - (L.target : Int)) L.bound) →
    q = max L.qFloor (min (L.qFloor + f.toNat / L.span) 5) →
    ((s.sel.programme = some l ∧ ∃ p ∈ effectiveRoute s,
        (s.home.paths.get p).high < (s.home.paths.get p).placed - (s.home.paths.get p).consumed) →
      chargeRow l c s = { s with lanes := s.lanes.set l { L with fullness := f, q := min (q + 1) 5 } })
    ∧ (¬(s.sel.programme = some l ∧ ∃ p ∈ effectiveRoute s,
        (s.home.paths.get p).high < (s.home.paths.get p).placed - (s.home.paths.get p).consumed) →
      chargeRow l c s = { s with lanes := s.lanes.set l { L with fullness := f, q := q } }))
    ∧ (∀ s l j row L bits u w x, L = s.lanes.get l → bits = codeRow L.q L.kbase (samplesOf row) →
      u = MUnit.row l L.frameNo L.frameTc j L.q (L.kbase - L.q) bits.length (payloadOf bits) →
      w = chargeRow l (32 * ((bits.length + 31) / 32))
        { s with lanes := s.lanes.set l { L with rowsThis := L.rowsThis + 1 } } →
      x = (if L.record = true ∧ s.store.state ≠ .off then offerStore (some l) L.frameNo u w else w) →
      rowComplete l j row s = if s.sel.programme = some l then
        (effectiveRoute x).foldl (fun y p => offerLive ⟨l.val, by omega⟩ u p y) x else x)

/-- The sum of a bus is the sum, over its enabled taps whose input is enabled, not silent and has the channel, of the
slot's value times the gain; its output is 0 when muted, else that sum plus 16 384 over 32 768, rounded down, held
within −8 388 608 to 8 388 607. Every bus output lies in −8 388 608 to 8 388 607, whatever the taps, gains and
slots. A tap that is enabled, with a step of at least 1, has after k ramp steps a gain between its starting gain
and its target, and it is the target exactly when k is at least the distance divided by the step, rounded up. A
ramp step changes nothing of a tap but its gain. (R82, R83, R85, R86) -/
def Obligations.OutputsSaturateAndRampsLand : Prop :=
  (∀ b d, busSum b d = ∑ k : Fin 128,
      (let T := d.taps.get k
      let X := d.inputs.get T.input
      if T.enabled = true ∧ T.bus = b ∧ X.enabled = true ∧ X.silent = false ∧ T.channel.val < X.channels then
        X.slot.getD T.channel.val 0 * (T.gain : Int) else 0))
    ∧ (∀ b d, busOutput b d = if (d.buses.get b).mute = true then 0
        else max (-8388608) (min ((busSum b d + 16384) / 32768) 8388607))
    ∧ (∀ b d, -8388608 ≤ busOutput b d ∧ busOutput b d ≤ 8388607)
    ∧ ∀ (T : Tap) (k : Nat), T.enabled = true → 1 ≤ T.step →
      min T.gain T.target ≤ (Tap.stepped^[k] T).gain ∧ (Tap.stepped^[k] T).gain ≤ max T.gain T.target
        ∧ ((Tap.stepped^[k] T).gain = T.target ↔
            ((max T.gain T.target - min T.gain T.target) + T.step - 1) / T.step ≤ k)
        ∧ Tap.stepped^[k] T = { T with gain := (Tap.stepped^[k] T).gain }
end

