-- ==== Sys2Proof/Laws/State.lean ====
section
/-! SUPPORT. What each change of one block does to each field of the state: one lemma per field per update. -/

namespace Sys2Proof.Machine.State

variable (s : State)

@[simp] theorem modPort_pending (f : Port → Port) : (s.modPort f).pending = s.pending := rfl
@[simp] theorem modPort_dram (f : Port → Port) : (s.modPort f).dram = s.dram := rfl
@[simp] theorem modPort_epIn (f : Port → Port) : (s.modPort f).epIn = s.epIn := rfl
@[simp] theorem modPort_port (f : Port → Port) : (s.modPort f).port = f s.port := rfl
@[simp] theorem modPort_ins (f : Port → Port) : (s.modPort f).ins = s.ins := rfl
@[simp] theorem modPort_aps (f : Port → Port) : (s.modPort f).aps = s.aps := rfl
@[simp] theorem modPort_clock (f : Port → Port) : (s.modPort f).clock = s.clock := rfl
@[simp] theorem modPort_lanes (f : Port → Port) : (s.modPort f).lanes = s.lanes := rfl
@[simp] theorem modPort_sel (f : Port → Port) : (s.modPort f).sel = s.sel := rfl
@[simp] theorem modPort_snd (f : Port → Port) : (s.modPort f).snd = s.snd := rfl
@[simp] theorem modPort_home (f : Port → Port) : (s.modPort f).home = s.home := rfl
@[simp] theorem modPort_store (f : Port → Port) : (s.modPort f).store = s.store := rfl
@[simp] theorem modPort_pins (f : Port → Port) : (s.modPort f).pins = s.pins := rfl
@[simp] theorem modPort_log (f : Port → Port) : (s.modPort f).log = s.log := rfl
@[simp] theorem modPort_cues (f : Port → Port) : (s.modPort f).cues = s.cues := rfl
@[simp] theorem modPort_xfer (f : Port → Port) : (s.modPort f).xfer = s.xfer := rfl
@[simp] theorem modPort_ctl (f : Port → Port) : (s.modPort f).ctl = s.ctl := rfl

@[simp] theorem modIns_pending (f : InsertPath → InsertPath) : (s.modIns f).pending = s.pending := rfl
@[simp] theorem modIns_dram (f : InsertPath → InsertPath) : (s.modIns f).dram = s.dram := rfl
@[simp] theorem modIns_epIn (f : InsertPath → InsertPath) : (s.modIns f).epIn = s.epIn := rfl
@[simp] theorem modIns_port (f : InsertPath → InsertPath) : (s.modIns f).port = s.port := rfl
@[simp] theorem modIns_ins (f : InsertPath → InsertPath) : (s.modIns f).ins = f s.ins := rfl
@[simp] theorem modIns_aps (f : InsertPath → InsertPath) : (s.modIns f).aps = s.aps := rfl
@[simp] theorem modIns_clock (f : InsertPath → InsertPath) : (s.modIns f).clock = s.clock := rfl
@[simp] theorem modIns_lanes (f : InsertPath → InsertPath) : (s.modIns f).lanes = s.lanes := rfl
@[simp] theorem modIns_sel (f : InsertPath → InsertPath) : (s.modIns f).sel = s.sel := rfl
@[simp] theorem modIns_snd (f : InsertPath → InsertPath) : (s.modIns f).snd = s.snd := rfl
@[simp] theorem modIns_home (f : InsertPath → InsertPath) : (s.modIns f).home = s.home := rfl
@[simp] theorem modIns_store (f : InsertPath → InsertPath) : (s.modIns f).store = s.store := rfl
@[simp] theorem modIns_pins (f : InsertPath → InsertPath) : (s.modIns f).pins = s.pins := rfl
@[simp] theorem modIns_log (f : InsertPath → InsertPath) : (s.modIns f).log = s.log := rfl
@[simp] theorem modIns_cues (f : InsertPath → InsertPath) : (s.modIns f).cues = s.cues := rfl
@[simp] theorem modIns_xfer (f : InsertPath → InsertPath) : (s.modIns f).xfer = s.xfer := rfl
@[simp] theorem modIns_ctl (f : InsertPath → InsertPath) : (s.modIns f).ctl = s.ctl := rfl

@[simp] theorem modAps_pending (f : Apertures → Apertures) : (s.modAps f).pending = s.pending := rfl
@[simp] theorem modAps_dram (f : Apertures → Apertures) : (s.modAps f).dram = s.dram := rfl
@[simp] theorem modAps_epIn (f : Apertures → Apertures) : (s.modAps f).epIn = s.epIn := rfl
@[simp] theorem modAps_port (f : Apertures → Apertures) : (s.modAps f).port = s.port := rfl
@[simp] theorem modAps_ins (f : Apertures → Apertures) : (s.modAps f).ins = s.ins := rfl
@[simp] theorem modAps_aps (f : Apertures → Apertures) : (s.modAps f).aps = f s.aps := rfl
@[simp] theorem modAps_clock (f : Apertures → Apertures) : (s.modAps f).clock = s.clock := rfl
@[simp] theorem modAps_lanes (f : Apertures → Apertures) : (s.modAps f).lanes = s.lanes := rfl
@[simp] theorem modAps_sel (f : Apertures → Apertures) : (s.modAps f).sel = s.sel := rfl
@[simp] theorem modAps_snd (f : Apertures → Apertures) : (s.modAps f).snd = s.snd := rfl
@[simp] theorem modAps_home (f : Apertures → Apertures) : (s.modAps f).home = s.home := rfl
@[simp] theorem modAps_store (f : Apertures → Apertures) : (s.modAps f).store = s.store := rfl
@[simp] theorem modAps_pins (f : Apertures → Apertures) : (s.modAps f).pins = s.pins := rfl
@[simp] theorem modAps_log (f : Apertures → Apertures) : (s.modAps f).log = s.log := rfl
@[simp] theorem modAps_cues (f : Apertures → Apertures) : (s.modAps f).cues = s.cues := rfl
@[simp] theorem modAps_xfer (f : Apertures → Apertures) : (s.modAps f).xfer = s.xfer := rfl
@[simp] theorem modAps_ctl (f : Apertures → Apertures) : (s.modAps f).ctl = s.ctl := rfl

@[simp] theorem modClock_pending (f : Clock → Clock) : (s.modClock f).pending = s.pending := rfl
@[simp] theorem modClock_dram (f : Clock → Clock) : (s.modClock f).dram = s.dram := rfl
@[simp] theorem modClock_epIn (f : Clock → Clock) : (s.modClock f).epIn = s.epIn := rfl
@[simp] theorem modClock_port (f : Clock → Clock) : (s.modClock f).port = s.port := rfl
@[simp] theorem modClock_ins (f : Clock → Clock) : (s.modClock f).ins = s.ins := rfl
@[simp] theorem modClock_aps (f : Clock → Clock) : (s.modClock f).aps = s.aps := rfl
@[simp] theorem modClock_clock (f : Clock → Clock) : (s.modClock f).clock = f s.clock := rfl
@[simp] theorem modClock_lanes (f : Clock → Clock) : (s.modClock f).lanes = s.lanes := rfl
@[simp] theorem modClock_sel (f : Clock → Clock) : (s.modClock f).sel = s.sel := rfl
@[simp] theorem modClock_snd (f : Clock → Clock) : (s.modClock f).snd = s.snd := rfl
@[simp] theorem modClock_home (f : Clock → Clock) : (s.modClock f).home = s.home := rfl
@[simp] theorem modClock_store (f : Clock → Clock) : (s.modClock f).store = s.store := rfl
@[simp] theorem modClock_pins (f : Clock → Clock) : (s.modClock f).pins = s.pins := rfl
@[simp] theorem modClock_log (f : Clock → Clock) : (s.modClock f).log = s.log := rfl
@[simp] theorem modClock_cues (f : Clock → Clock) : (s.modClock f).cues = s.cues := rfl
@[simp] theorem modClock_xfer (f : Clock → Clock) : (s.modClock f).xfer = s.xfer := rfl
@[simp] theorem modClock_ctl (f : Clock → Clock) : (s.modClock f).ctl = s.ctl := rfl

@[simp] theorem modLane_pending (l : Fin 4) (f : Lane → Lane) : (s.modLane l f).pending = s.pending := rfl
@[simp] theorem modLane_dram (l : Fin 4) (f : Lane → Lane) : (s.modLane l f).dram = s.dram := rfl
@[simp] theorem modLane_epIn (l : Fin 4) (f : Lane → Lane) : (s.modLane l f).epIn = s.epIn := rfl
@[simp] theorem modLane_port (l : Fin 4) (f : Lane → Lane) : (s.modLane l f).port = s.port := rfl
@[simp] theorem modLane_ins (l : Fin 4) (f : Lane → Lane) : (s.modLane l f).ins = s.ins := rfl
@[simp] theorem modLane_aps (l : Fin 4) (f : Lane → Lane) : (s.modLane l f).aps = s.aps := rfl
@[simp] theorem modLane_clock (l : Fin 4) (f : Lane → Lane) : (s.modLane l f).clock = s.clock := rfl
@[simp] theorem modLane_lanes (l : Fin 4) (f : Lane → Lane) : (s.modLane l f).lanes = s.lanes.modify l f := rfl
@[simp] theorem modLane_sel (l : Fin 4) (f : Lane → Lane) : (s.modLane l f).sel = s.sel := rfl
@[simp] theorem modLane_snd (l : Fin 4) (f : Lane → Lane) : (s.modLane l f).snd = s.snd := rfl
@[simp] theorem modLane_home (l : Fin 4) (f : Lane → Lane) : (s.modLane l f).home = s.home := rfl
@[simp] theorem modLane_store (l : Fin 4) (f : Lane → Lane) : (s.modLane l f).store = s.store := rfl
@[simp] theorem modLane_pins (l : Fin 4) (f : Lane → Lane) : (s.modLane l f).pins = s.pins := rfl
@[simp] theorem modLane_log (l : Fin 4) (f : Lane → Lane) : (s.modLane l f).log = s.log := rfl
@[simp] theorem modLane_cues (l : Fin 4) (f : Lane → Lane) : (s.modLane l f).cues = s.cues := rfl
@[simp] theorem modLane_xfer (l : Fin 4) (f : Lane → Lane) : (s.modLane l f).xfer = s.xfer := rfl
@[simp] theorem modLane_ctl (l : Fin 4) (f : Lane → Lane) : (s.modLane l f).ctl = s.ctl := rfl

@[simp] theorem modLanes_pending (f : Lane → Lane) : (s.modLanes f).pending = s.pending := rfl
@[simp] theorem modLanes_dram (f : Lane → Lane) : (s.modLanes f).dram = s.dram := rfl
@[simp] theorem modLanes_epIn (f : Lane → Lane) : (s.modLanes f).epIn = s.epIn := rfl
@[simp] theorem modLanes_port (f : Lane → Lane) : (s.modLanes f).port = s.port := rfl
@[simp] theorem modLanes_ins (f : Lane → Lane) : (s.modLanes f).ins = s.ins := rfl
@[simp] theorem modLanes_aps (f : Lane → Lane) : (s.modLanes f).aps = s.aps := rfl
@[simp] theorem modLanes_clock (f : Lane → Lane) : (s.modLanes f).clock = s.clock := rfl
@[simp] theorem modLanes_lanes (f : Lane → Lane) : (s.modLanes f).lanes = s.lanes.map f := rfl
@[simp] theorem modLanes_sel (f : Lane → Lane) : (s.modLanes f).sel = s.sel := rfl
@[simp] theorem modLanes_snd (f : Lane → Lane) : (s.modLanes f).snd = s.snd := rfl
@[simp] theorem modLanes_home (f : Lane → Lane) : (s.modLanes f).home = s.home := rfl
@[simp] theorem modLanes_store (f : Lane → Lane) : (s.modLanes f).store = s.store := rfl
@[simp] theorem modLanes_pins (f : Lane → Lane) : (s.modLanes f).pins = s.pins := rfl
@[simp] theorem modLanes_log (f : Lane → Lane) : (s.modLanes f).log = s.log := rfl
@[simp] theorem modLanes_cues (f : Lane → Lane) : (s.modLanes f).cues = s.cues := rfl
@[simp] theorem modLanes_xfer (f : Lane → Lane) : (s.modLanes f).xfer = s.xfer := rfl
@[simp] theorem modLanes_ctl (f : Lane → Lane) : (s.modLanes f).ctl = s.ctl := rfl

@[simp] theorem modSel_pending (f : Selector → Selector) : (s.modSel f).pending = s.pending := rfl
@[simp] theorem modSel_dram (f : Selector → Selector) : (s.modSel f).dram = s.dram := rfl
@[simp] theorem modSel_epIn (f : Selector → Selector) : (s.modSel f).epIn = s.epIn := rfl
@[simp] theorem modSel_port (f : Selector → Selector) : (s.modSel f).port = s.port := rfl
@[simp] theorem modSel_ins (f : Selector → Selector) : (s.modSel f).ins = s.ins := rfl
@[simp] theorem modSel_aps (f : Selector → Selector) : (s.modSel f).aps = s.aps := rfl
@[simp] theorem modSel_clock (f : Selector → Selector) : (s.modSel f).clock = s.clock := rfl
@[simp] theorem modSel_lanes (f : Selector → Selector) : (s.modSel f).lanes = s.lanes := rfl
@[simp] theorem modSel_sel (f : Selector → Selector) : (s.modSel f).sel = f s.sel := rfl
@[simp] theorem modSel_snd (f : Selector → Selector) : (s.modSel f).snd = s.snd := rfl
@[simp] theorem modSel_home (f : Selector → Selector) : (s.modSel f).home = s.home := rfl
@[simp] theorem modSel_store (f : Selector → Selector) : (s.modSel f).store = s.store := rfl
@[simp] theorem modSel_pins (f : Selector → Selector) : (s.modSel f).pins = s.pins := rfl
@[simp] theorem modSel_log (f : Selector → Selector) : (s.modSel f).log = s.log := rfl
@[simp] theorem modSel_cues (f : Selector → Selector) : (s.modSel f).cues = s.cues := rfl
@[simp] theorem modSel_xfer (f : Selector → Selector) : (s.modSel f).xfer = s.xfer := rfl
@[simp] theorem modSel_ctl (f : Selector → Selector) : (s.modSel f).ctl = s.ctl := rfl

@[simp] theorem modSnd_pending (f : Sound → Sound) : (s.modSnd f).pending = s.pending := rfl
@[simp] theorem modSnd_dram (f : Sound → Sound) : (s.modSnd f).dram = s.dram := rfl
@[simp] theorem modSnd_epIn (f : Sound → Sound) : (s.modSnd f).epIn = s.epIn := rfl
@[simp] theorem modSnd_port (f : Sound → Sound) : (s.modSnd f).port = s.port := rfl
@[simp] theorem modSnd_ins (f : Sound → Sound) : (s.modSnd f).ins = s.ins := rfl
@[simp] theorem modSnd_aps (f : Sound → Sound) : (s.modSnd f).aps = s.aps := rfl
@[simp] theorem modSnd_clock (f : Sound → Sound) : (s.modSnd f).clock = s.clock := rfl
@[simp] theorem modSnd_lanes (f : Sound → Sound) : (s.modSnd f).lanes = s.lanes := rfl
@[simp] theorem modSnd_sel (f : Sound → Sound) : (s.modSnd f).sel = s.sel := rfl
@[simp] theorem modSnd_snd (f : Sound → Sound) : (s.modSnd f).snd = f s.snd := rfl
@[simp] theorem modSnd_home (f : Sound → Sound) : (s.modSnd f).home = s.home := rfl
@[simp] theorem modSnd_store (f : Sound → Sound) : (s.modSnd f).store = s.store := rfl
@[simp] theorem modSnd_pins (f : Sound → Sound) : (s.modSnd f).pins = s.pins := rfl
@[simp] theorem modSnd_log (f : Sound → Sound) : (s.modSnd f).log = s.log := rfl
@[simp] theorem modSnd_cues (f : Sound → Sound) : (s.modSnd f).cues = s.cues := rfl
@[simp] theorem modSnd_xfer (f : Sound → Sound) : (s.modSnd f).xfer = s.xfer := rfl
@[simp] theorem modSnd_ctl (f : Sound → Sound) : (s.modSnd f).ctl = s.ctl := rfl

@[simp] theorem modPath_pending (p : Fin 2) (f : HomePath → HomePath) : (s.modPath p f).pending = s.pending := rfl
@[simp] theorem modPath_dram (p : Fin 2) (f : HomePath → HomePath) : (s.modPath p f).dram = s.dram := rfl
@[simp] theorem modPath_epIn (p : Fin 2) (f : HomePath → HomePath) : (s.modPath p f).epIn = s.epIn := rfl
@[simp] theorem modPath_port (p : Fin 2) (f : HomePath → HomePath) : (s.modPath p f).port = s.port := rfl
@[simp] theorem modPath_ins (p : Fin 2) (f : HomePath → HomePath) : (s.modPath p f).ins = s.ins := rfl
@[simp] theorem modPath_aps (p : Fin 2) (f : HomePath → HomePath) : (s.modPath p f).aps = s.aps := rfl
@[simp] theorem modPath_clock (p : Fin 2) (f : HomePath → HomePath) : (s.modPath p f).clock = s.clock := rfl
@[simp] theorem modPath_lanes (p : Fin 2) (f : HomePath → HomePath) : (s.modPath p f).lanes = s.lanes := rfl
@[simp] theorem modPath_sel (p : Fin 2) (f : HomePath → HomePath) : (s.modPath p f).sel = s.sel := rfl
@[simp] theorem modPath_snd (p : Fin 2) (f : HomePath → HomePath) : (s.modPath p f).snd = s.snd := rfl
@[simp] theorem modPath_home (p : Fin 2) (f : HomePath → HomePath) : (s.modPath p f).home = { s.home with paths := s.home.paths.modify p f } := rfl
@[simp] theorem modPath_store (p : Fin 2) (f : HomePath → HomePath) : (s.modPath p f).store = s.store := rfl
@[simp] theorem modPath_pins (p : Fin 2) (f : HomePath → HomePath) : (s.modPath p f).pins = s.pins := rfl
@[simp] theorem modPath_log (p : Fin 2) (f : HomePath → HomePath) : (s.modPath p f).log = s.log := rfl
@[simp] theorem modPath_cues (p : Fin 2) (f : HomePath → HomePath) : (s.modPath p f).cues = s.cues := rfl
@[simp] theorem modPath_xfer (p : Fin 2) (f : HomePath → HomePath) : (s.modPath p f).xfer = s.xfer := rfl
@[simp] theorem modPath_ctl (p : Fin 2) (f : HomePath → HomePath) : (s.modPath p f).ctl = s.ctl := rfl

@[simp] theorem modHome_pending (f : Home → Home) : (s.modHome f).pending = s.pending := rfl
@[simp] theorem modHome_dram (f : Home → Home) : (s.modHome f).dram = s.dram := rfl
@[simp] theorem modHome_epIn (f : Home → Home) : (s.modHome f).epIn = s.epIn := rfl
@[simp] theorem modHome_port (f : Home → Home) : (s.modHome f).port = s.port := rfl
@[simp] theorem modHome_ins (f : Home → Home) : (s.modHome f).ins = s.ins := rfl
@[simp] theorem modHome_aps (f : Home → Home) : (s.modHome f).aps = s.aps := rfl
@[simp] theorem modHome_clock (f : Home → Home) : (s.modHome f).clock = s.clock := rfl
@[simp] theorem modHome_lanes (f : Home → Home) : (s.modHome f).lanes = s.lanes := rfl
@[simp] theorem modHome_sel (f : Home → Home) : (s.modHome f).sel = s.sel := rfl
@[simp] theorem modHome_snd (f : Home → Home) : (s.modHome f).snd = s.snd := rfl
@[simp] theorem modHome_home (f : Home → Home) : (s.modHome f).home = f s.home := rfl
@[simp] theorem modHome_store (f : Home → Home) : (s.modHome f).store = s.store := rfl
@[simp] theorem modHome_pins (f : Home → Home) : (s.modHome f).pins = s.pins := rfl
@[simp] theorem modHome_log (f : Home → Home) : (s.modHome f).log = s.log := rfl
@[simp] theorem modHome_cues (f : Home → Home) : (s.modHome f).cues = s.cues := rfl
@[simp] theorem modHome_xfer (f : Home → Home) : (s.modHome f).xfer = s.xfer := rfl
@[simp] theorem modHome_ctl (f : Home → Home) : (s.modHome f).ctl = s.ctl := rfl

@[simp] theorem modStore_pending (f : Store → Store) : (s.modStore f).pending = s.pending := rfl
@[simp] theorem modStore_dram (f : Store → Store) : (s.modStore f).dram = s.dram := rfl
@[simp] theorem modStore_epIn (f : Store → Store) : (s.modStore f).epIn = s.epIn := rfl
@[simp] theorem modStore_port (f : Store → Store) : (s.modStore f).port = s.port := rfl
@[simp] theorem modStore_ins (f : Store → Store) : (s.modStore f).ins = s.ins := rfl
@[simp] theorem modStore_aps (f : Store → Store) : (s.modStore f).aps = s.aps := rfl
@[simp] theorem modStore_clock (f : Store → Store) : (s.modStore f).clock = s.clock := rfl
@[simp] theorem modStore_lanes (f : Store → Store) : (s.modStore f).lanes = s.lanes := rfl
@[simp] theorem modStore_sel (f : Store → Store) : (s.modStore f).sel = s.sel := rfl
@[simp] theorem modStore_snd (f : Store → Store) : (s.modStore f).snd = s.snd := rfl
@[simp] theorem modStore_home (f : Store → Store) : (s.modStore f).home = s.home := rfl
@[simp] theorem modStore_store (f : Store → Store) : (s.modStore f).store = f s.store := rfl
@[simp] theorem modStore_pins (f : Store → Store) : (s.modStore f).pins = s.pins := rfl
@[simp] theorem modStore_log (f : Store → Store) : (s.modStore f).log = s.log := rfl
@[simp] theorem modStore_cues (f : Store → Store) : (s.modStore f).cues = s.cues := rfl
@[simp] theorem modStore_xfer (f : Store → Store) : (s.modStore f).xfer = s.xfer := rfl
@[simp] theorem modStore_ctl (f : Store → Store) : (s.modStore f).ctl = s.ctl := rfl

@[simp] theorem modPin_pending (p : Fin 12) (f : Pin → Pin) : (s.modPin p f).pending = s.pending := rfl
@[simp] theorem modPin_dram (p : Fin 12) (f : Pin → Pin) : (s.modPin p f).dram = s.dram := rfl
@[simp] theorem modPin_epIn (p : Fin 12) (f : Pin → Pin) : (s.modPin p f).epIn = s.epIn := rfl
@[simp] theorem modPin_port (p : Fin 12) (f : Pin → Pin) : (s.modPin p f).port = s.port := rfl
@[simp] theorem modPin_ins (p : Fin 12) (f : Pin → Pin) : (s.modPin p f).ins = s.ins := rfl
@[simp] theorem modPin_aps (p : Fin 12) (f : Pin → Pin) : (s.modPin p f).aps = s.aps := rfl
@[simp] theorem modPin_clock (p : Fin 12) (f : Pin → Pin) : (s.modPin p f).clock = s.clock := rfl
@[simp] theorem modPin_lanes (p : Fin 12) (f : Pin → Pin) : (s.modPin p f).lanes = s.lanes := rfl
@[simp] theorem modPin_sel (p : Fin 12) (f : Pin → Pin) : (s.modPin p f).sel = s.sel := rfl
@[simp] theorem modPin_snd (p : Fin 12) (f : Pin → Pin) : (s.modPin p f).snd = s.snd := rfl
@[simp] theorem modPin_home (p : Fin 12) (f : Pin → Pin) : (s.modPin p f).home = s.home := rfl
@[simp] theorem modPin_store (p : Fin 12) (f : Pin → Pin) : (s.modPin p f).store = s.store := rfl
@[simp] theorem modPin_pins (p : Fin 12) (f : Pin → Pin) : (s.modPin p f).pins = s.pins.modify p f := rfl
@[simp] theorem modPin_log (p : Fin 12) (f : Pin → Pin) : (s.modPin p f).log = s.log := rfl
@[simp] theorem modPin_cues (p : Fin 12) (f : Pin → Pin) : (s.modPin p f).cues = s.cues := rfl
@[simp] theorem modPin_xfer (p : Fin 12) (f : Pin → Pin) : (s.modPin p f).xfer = s.xfer := rfl
@[simp] theorem modPin_ctl (p : Fin 12) (f : Pin → Pin) : (s.modPin p f).ctl = s.ctl := rfl

@[simp] theorem modPins_pending (f : Pin → Pin) : (s.modPins f).pending = s.pending := rfl
@[simp] theorem modPins_dram (f : Pin → Pin) : (s.modPins f).dram = s.dram := rfl
@[simp] theorem modPins_epIn (f : Pin → Pin) : (s.modPins f).epIn = s.epIn := rfl
@[simp] theorem modPins_port (f : Pin → Pin) : (s.modPins f).port = s.port := rfl
@[simp] theorem modPins_ins (f : Pin → Pin) : (s.modPins f).ins = s.ins := rfl
@[simp] theorem modPins_aps (f : Pin → Pin) : (s.modPins f).aps = s.aps := rfl
@[simp] theorem modPins_clock (f : Pin → Pin) : (s.modPins f).clock = s.clock := rfl
@[simp] theorem modPins_lanes (f : Pin → Pin) : (s.modPins f).lanes = s.lanes := rfl
@[simp] theorem modPins_sel (f : Pin → Pin) : (s.modPins f).sel = s.sel := rfl
@[simp] theorem modPins_snd (f : Pin → Pin) : (s.modPins f).snd = s.snd := rfl
@[simp] theorem modPins_home (f : Pin → Pin) : (s.modPins f).home = s.home := rfl
@[simp] theorem modPins_store (f : Pin → Pin) : (s.modPins f).store = s.store := rfl
@[simp] theorem modPins_pins (f : Pin → Pin) : (s.modPins f).pins = s.pins.map f := rfl
@[simp] theorem modPins_log (f : Pin → Pin) : (s.modPins f).log = s.log := rfl
@[simp] theorem modPins_cues (f : Pin → Pin) : (s.modPins f).cues = s.cues := rfl
@[simp] theorem modPins_xfer (f : Pin → Pin) : (s.modPins f).xfer = s.xfer := rfl
@[simp] theorem modPins_ctl (f : Pin → Pin) : (s.modPins f).ctl = s.ctl := rfl

@[simp] theorem modLog_pending (f : ClipLog → ClipLog) : (s.modLog f).pending = s.pending := rfl
@[simp] theorem modLog_dram (f : ClipLog → ClipLog) : (s.modLog f).dram = s.dram := rfl
@[simp] theorem modLog_epIn (f : ClipLog → ClipLog) : (s.modLog f).epIn = s.epIn := rfl
@[simp] theorem modLog_port (f : ClipLog → ClipLog) : (s.modLog f).port = s.port := rfl
@[simp] theorem modLog_ins (f : ClipLog → ClipLog) : (s.modLog f).ins = s.ins := rfl
@[simp] theorem modLog_aps (f : ClipLog → ClipLog) : (s.modLog f).aps = s.aps := rfl
@[simp] theorem modLog_clock (f : ClipLog → ClipLog) : (s.modLog f).clock = s.clock := rfl
@[simp] theorem modLog_lanes (f : ClipLog → ClipLog) : (s.modLog f).lanes = s.lanes := rfl
@[simp] theorem modLog_sel (f : ClipLog → ClipLog) : (s.modLog f).sel = s.sel := rfl
@[simp] theorem modLog_snd (f : ClipLog → ClipLog) : (s.modLog f).snd = s.snd := rfl
@[simp] theorem modLog_home (f : ClipLog → ClipLog) : (s.modLog f).home = s.home := rfl
@[simp] theorem modLog_store (f : ClipLog → ClipLog) : (s.modLog f).store = s.store := rfl
@[simp] theorem modLog_pins (f : ClipLog → ClipLog) : (s.modLog f).pins = s.pins := rfl
@[simp] theorem modLog_log (f : ClipLog → ClipLog) : (s.modLog f).log = f s.log := rfl
@[simp] theorem modLog_cues (f : ClipLog → ClipLog) : (s.modLog f).cues = s.cues := rfl
@[simp] theorem modLog_xfer (f : ClipLog → ClipLog) : (s.modLog f).xfer = s.xfer := rfl
@[simp] theorem modLog_ctl (f : ClipLog → ClipLog) : (s.modLog f).ctl = s.ctl := rfl

@[simp] theorem modCues_pending (f : List Cue → List Cue) : (s.modCues f).pending = s.pending := rfl
@[simp] theorem modCues_dram (f : List Cue → List Cue) : (s.modCues f).dram = s.dram := rfl
@[simp] theorem modCues_epIn (f : List Cue → List Cue) : (s.modCues f).epIn = s.epIn := rfl
@[simp] theorem modCues_port (f : List Cue → List Cue) : (s.modCues f).port = s.port := rfl
@[simp] theorem modCues_ins (f : List Cue → List Cue) : (s.modCues f).ins = s.ins := rfl
@[simp] theorem modCues_aps (f : List Cue → List Cue) : (s.modCues f).aps = s.aps := rfl
@[simp] theorem modCues_clock (f : List Cue → List Cue) : (s.modCues f).clock = s.clock := rfl
@[simp] theorem modCues_lanes (f : List Cue → List Cue) : (s.modCues f).lanes = s.lanes := rfl
@[simp] theorem modCues_sel (f : List Cue → List Cue) : (s.modCues f).sel = s.sel := rfl
@[simp] theorem modCues_snd (f : List Cue → List Cue) : (s.modCues f).snd = s.snd := rfl
@[simp] theorem modCues_home (f : List Cue → List Cue) : (s.modCues f).home = s.home := rfl
@[simp] theorem modCues_store (f : List Cue → List Cue) : (s.modCues f).store = s.store := rfl
@[simp] theorem modCues_pins (f : List Cue → List Cue) : (s.modCues f).pins = s.pins := rfl
@[simp] theorem modCues_log (f : List Cue → List Cue) : (s.modCues f).log = s.log := rfl
@[simp] theorem modCues_cues (f : List Cue → List Cue) : (s.modCues f).cues = f s.cues := rfl
@[simp] theorem modCues_xfer (f : List Cue → List Cue) : (s.modCues f).xfer = s.xfer := rfl
@[simp] theorem modCues_ctl (f : List Cue → List Cue) : (s.modCues f).ctl = s.ctl := rfl

@[simp] theorem modXfer_pending (f : Transfer → Transfer) : (s.modXfer f).pending = s.pending := rfl
@[simp] theorem modXfer_dram (f : Transfer → Transfer) : (s.modXfer f).dram = s.dram := rfl
@[simp] theorem modXfer_epIn (f : Transfer → Transfer) : (s.modXfer f).epIn = s.epIn := rfl
@[simp] theorem modXfer_port (f : Transfer → Transfer) : (s.modXfer f).port = s.port := rfl
@[simp] theorem modXfer_ins (f : Transfer → Transfer) : (s.modXfer f).ins = s.ins := rfl
@[simp] theorem modXfer_aps (f : Transfer → Transfer) : (s.modXfer f).aps = s.aps := rfl
@[simp] theorem modXfer_clock (f : Transfer → Transfer) : (s.modXfer f).clock = s.clock := rfl
@[simp] theorem modXfer_lanes (f : Transfer → Transfer) : (s.modXfer f).lanes = s.lanes := rfl
@[simp] theorem modXfer_sel (f : Transfer → Transfer) : (s.modXfer f).sel = s.sel := rfl
@[simp] theorem modXfer_snd (f : Transfer → Transfer) : (s.modXfer f).snd = s.snd := rfl
@[simp] theorem modXfer_home (f : Transfer → Transfer) : (s.modXfer f).home = s.home := rfl
@[simp] theorem modXfer_store (f : Transfer → Transfer) : (s.modXfer f).store = s.store := rfl
@[simp] theorem modXfer_pins (f : Transfer → Transfer) : (s.modXfer f).pins = s.pins := rfl
@[simp] theorem modXfer_log (f : Transfer → Transfer) : (s.modXfer f).log = s.log := rfl
@[simp] theorem modXfer_cues (f : Transfer → Transfer) : (s.modXfer f).cues = s.cues := rfl
@[simp] theorem modXfer_xfer (f : Transfer → Transfer) : (s.modXfer f).xfer = f s.xfer := rfl
@[simp] theorem modXfer_ctl (f : Transfer → Transfer) : (s.modXfer f).ctl = s.ctl := rfl

@[simp] theorem modCtl_pending (f : Control → Control) : (s.modCtl f).pending = s.pending := rfl
@[simp] theorem modCtl_dram (f : Control → Control) : (s.modCtl f).dram = s.dram := rfl
@[simp] theorem modCtl_epIn (f : Control → Control) : (s.modCtl f).epIn = s.epIn := rfl
@[simp] theorem modCtl_port (f : Control → Control) : (s.modCtl f).port = s.port := rfl
@[simp] theorem modCtl_ins (f : Control → Control) : (s.modCtl f).ins = s.ins := rfl
@[simp] theorem modCtl_aps (f : Control → Control) : (s.modCtl f).aps = s.aps := rfl
@[simp] theorem modCtl_clock (f : Control → Control) : (s.modCtl f).clock = s.clock := rfl
@[simp] theorem modCtl_lanes (f : Control → Control) : (s.modCtl f).lanes = s.lanes := rfl
@[simp] theorem modCtl_sel (f : Control → Control) : (s.modCtl f).sel = s.sel := rfl
@[simp] theorem modCtl_snd (f : Control → Control) : (s.modCtl f).snd = s.snd := rfl
@[simp] theorem modCtl_home (f : Control → Control) : (s.modCtl f).home = s.home := rfl
@[simp] theorem modCtl_store (f : Control → Control) : (s.modCtl f).store = s.store := rfl
@[simp] theorem modCtl_pins (f : Control → Control) : (s.modCtl f).pins = s.pins := rfl
@[simp] theorem modCtl_log (f : Control → Control) : (s.modCtl f).log = s.log := rfl
@[simp] theorem modCtl_cues (f : Control → Control) : (s.modCtl f).cues = s.cues := rfl
@[simp] theorem modCtl_xfer (f : Control → Control) : (s.modCtl f).xfer = s.xfer := rfl
@[simp] theorem modCtl_ctl (f : Control → Control) : (s.modCtl f).ctl = f s.ctl := rfl

@[simp] theorem modDram_pending (f : Memory → Memory) : (s.modDram f).pending = s.pending := rfl
@[simp] theorem modDram_dram (f : Memory → Memory) : (s.modDram f).dram = f s.dram := rfl
@[simp] theorem modDram_epIn (f : Memory → Memory) : (s.modDram f).epIn = s.epIn := rfl
@[simp] theorem modDram_port (f : Memory → Memory) : (s.modDram f).port = s.port := rfl
@[simp] theorem modDram_ins (f : Memory → Memory) : (s.modDram f).ins = s.ins := rfl
@[simp] theorem modDram_aps (f : Memory → Memory) : (s.modDram f).aps = s.aps := rfl
@[simp] theorem modDram_clock (f : Memory → Memory) : (s.modDram f).clock = s.clock := rfl
@[simp] theorem modDram_lanes (f : Memory → Memory) : (s.modDram f).lanes = s.lanes := rfl
@[simp] theorem modDram_sel (f : Memory → Memory) : (s.modDram f).sel = s.sel := rfl
@[simp] theorem modDram_snd (f : Memory → Memory) : (s.modDram f).snd = s.snd := rfl
@[simp] theorem modDram_home (f : Memory → Memory) : (s.modDram f).home = s.home := rfl
@[simp] theorem modDram_store (f : Memory → Memory) : (s.modDram f).store = s.store := rfl
@[simp] theorem modDram_pins (f : Memory → Memory) : (s.modDram f).pins = s.pins := rfl
@[simp] theorem modDram_log (f : Memory → Memory) : (s.modDram f).log = s.log := rfl
@[simp] theorem modDram_cues (f : Memory → Memory) : (s.modDram f).cues = s.cues := rfl
@[simp] theorem modDram_xfer (f : Memory → Memory) : (s.modDram f).xfer = s.xfer := rfl
@[simp] theorem modDram_ctl (f : Memory → Memory) : (s.modDram f).ctl = s.ctl := rfl

@[simp] theorem setLevels_pending (b : BitVec 12) : (s.setLevels b).pending = s.pending := rfl
@[simp] theorem setLevels_dram (b : BitVec 12) : (s.setLevels b).dram = s.dram := rfl
@[simp] theorem setLevels_epIn (b : BitVec 12) : (s.setLevels b).epIn = b := rfl
@[simp] theorem setLevels_port (b : BitVec 12) : (s.setLevels b).port = s.port := rfl
@[simp] theorem setLevels_ins (b : BitVec 12) : (s.setLevels b).ins = s.ins := rfl
@[simp] theorem setLevels_aps (b : BitVec 12) : (s.setLevels b).aps = s.aps := rfl
@[simp] theorem setLevels_clock (b : BitVec 12) : (s.setLevels b).clock = s.clock := rfl
@[simp] theorem setLevels_lanes (b : BitVec 12) : (s.setLevels b).lanes = s.lanes := rfl
@[simp] theorem setLevels_sel (b : BitVec 12) : (s.setLevels b).sel = s.sel := rfl
@[simp] theorem setLevels_snd (b : BitVec 12) : (s.setLevels b).snd = s.snd := rfl
@[simp] theorem setLevels_home (b : BitVec 12) : (s.setLevels b).home = s.home := rfl
@[simp] theorem setLevels_store (b : BitVec 12) : (s.setLevels b).store = s.store := rfl
@[simp] theorem setLevels_pins (b : BitVec 12) : (s.setLevels b).pins = s.pins := rfl
@[simp] theorem setLevels_log (b : BitVec 12) : (s.setLevels b).log = s.log := rfl
@[simp] theorem setLevels_cues (b : BitVec 12) : (s.setLevels b).cues = s.cues := rfl
@[simp] theorem setLevels_xfer (b : BitVec 12) : (s.setLevels b).xfer = s.xfer := rfl
@[simp] theorem setLevels_ctl (b : BitVec 12) : (s.setLevels b).ctl = s.ctl := rfl

@[simp] theorem modRec_pending (i : Fin 256) (f : Clip → Clip) : (s.modRec i f).pending = s.pending := rfl
@[simp] theorem modRec_dram (i : Fin 256) (f : Clip → Clip) : (s.modRec i f).dram = s.dram := rfl
@[simp] theorem modRec_epIn (i : Fin 256) (f : Clip → Clip) : (s.modRec i f).epIn = s.epIn := rfl
@[simp] theorem modRec_port (i : Fin 256) (f : Clip → Clip) : (s.modRec i f).port = s.port := rfl
@[simp] theorem modRec_ins (i : Fin 256) (f : Clip → Clip) : (s.modRec i f).ins = s.ins := rfl
@[simp] theorem modRec_aps (i : Fin 256) (f : Clip → Clip) : (s.modRec i f).aps = s.aps := rfl
@[simp] theorem modRec_clock (i : Fin 256) (f : Clip → Clip) : (s.modRec i f).clock = s.clock := rfl
@[simp] theorem modRec_lanes (i : Fin 256) (f : Clip → Clip) : (s.modRec i f).lanes = s.lanes := rfl
@[simp] theorem modRec_sel (i : Fin 256) (f : Clip → Clip) : (s.modRec i f).sel = s.sel := rfl
@[simp] theorem modRec_snd (i : Fin 256) (f : Clip → Clip) : (s.modRec i f).snd = s.snd := rfl
@[simp] theorem modRec_home (i : Fin 256) (f : Clip → Clip) : (s.modRec i f).home = s.home := rfl
@[simp] theorem modRec_store (i : Fin 256) (f : Clip → Clip) : (s.modRec i f).store = s.store := rfl
@[simp] theorem modRec_pins (i : Fin 256) (f : Clip → Clip) : (s.modRec i f).pins = s.pins := rfl
@[simp] theorem modRec_log (i : Fin 256) (f : Clip → Clip) : (s.modRec i f).log = { s.log with recs := s.log.recs.modify i f } := rfl
@[simp] theorem modRec_cues (i : Fin 256) (f : Clip → Clip) : (s.modRec i f).cues = s.cues := rfl
@[simp] theorem modRec_xfer (i : Fin 256) (f : Clip → Clip) : (s.modRec i f).xfer = s.xfer := rfl
@[simp] theorem modRec_ctl (i : Fin 256) (f : Clip → Clip) : (s.modRec i f).ctl = s.ctl := rfl

@[simp] theorem modInput_pending (i : Fin 4) (f : SoundInput → SoundInput) : (s.modInput i f).pending = s.pending := rfl
@[simp] theorem modInput_dram (i : Fin 4) (f : SoundInput → SoundInput) : (s.modInput i f).dram = s.dram := rfl
@[simp] theorem modInput_epIn (i : Fin 4) (f : SoundInput → SoundInput) : (s.modInput i f).epIn = s.epIn := rfl
@[simp] theorem modInput_port (i : Fin 4) (f : SoundInput → SoundInput) : (s.modInput i f).port = s.port := rfl
@[simp] theorem modInput_ins (i : Fin 4) (f : SoundInput → SoundInput) : (s.modInput i f).ins = s.ins := rfl
@[simp] theorem modInput_aps (i : Fin 4) (f : SoundInput → SoundInput) : (s.modInput i f).aps = s.aps := rfl
@[simp] theorem modInput_clock (i : Fin 4) (f : SoundInput → SoundInput) : (s.modInput i f).clock = s.clock := rfl
@[simp] theorem modInput_lanes (i : Fin 4) (f : SoundInput → SoundInput) : (s.modInput i f).lanes = s.lanes := rfl
@[simp] theorem modInput_sel (i : Fin 4) (f : SoundInput → SoundInput) : (s.modInput i f).sel = s.sel := rfl
@[simp] theorem modInput_snd (i : Fin 4) (f : SoundInput → SoundInput) : (s.modInput i f).snd = { s.snd with inputs := s.snd.inputs.modify i f } := rfl
@[simp] theorem modInput_home (i : Fin 4) (f : SoundInput → SoundInput) : (s.modInput i f).home = s.home := rfl
@[simp] theorem modInput_store (i : Fin 4) (f : SoundInput → SoundInput) : (s.modInput i f).store = s.store := rfl
@[simp] theorem modInput_pins (i : Fin 4) (f : SoundInput → SoundInput) : (s.modInput i f).pins = s.pins := rfl
@[simp] theorem modInput_log (i : Fin 4) (f : SoundInput → SoundInput) : (s.modInput i f).log = s.log := rfl
@[simp] theorem modInput_cues (i : Fin 4) (f : SoundInput → SoundInput) : (s.modInput i f).cues = s.cues := rfl
@[simp] theorem modInput_xfer (i : Fin 4) (f : SoundInput → SoundInput) : (s.modInput i f).xfer = s.xfer := rfl
@[simp] theorem modInput_ctl (i : Fin 4) (f : SoundInput → SoundInput) : (s.modInput i f).ctl = s.ctl := rfl

@[simp] theorem modBus_pending (b : Fin 8) (f : Bus → Bus) : (s.modBus b f).pending = s.pending := rfl
@[simp] theorem modBus_dram (b : Fin 8) (f : Bus → Bus) : (s.modBus b f).dram = s.dram := rfl
@[simp] theorem modBus_epIn (b : Fin 8) (f : Bus → Bus) : (s.modBus b f).epIn = s.epIn := rfl
@[simp] theorem modBus_port (b : Fin 8) (f : Bus → Bus) : (s.modBus b f).port = s.port := rfl
@[simp] theorem modBus_ins (b : Fin 8) (f : Bus → Bus) : (s.modBus b f).ins = s.ins := rfl
@[simp] theorem modBus_aps (b : Fin 8) (f : Bus → Bus) : (s.modBus b f).aps = s.aps := rfl
@[simp] theorem modBus_clock (b : Fin 8) (f : Bus → Bus) : (s.modBus b f).clock = s.clock := rfl
@[simp] theorem modBus_lanes (b : Fin 8) (f : Bus → Bus) : (s.modBus b f).lanes = s.lanes := rfl
@[simp] theorem modBus_sel (b : Fin 8) (f : Bus → Bus) : (s.modBus b f).sel = s.sel := rfl
@[simp] theorem modBus_snd (b : Fin 8) (f : Bus → Bus) : (s.modBus b f).snd = { s.snd with buses := s.snd.buses.modify b f } := rfl
@[simp] theorem modBus_home (b : Fin 8) (f : Bus → Bus) : (s.modBus b f).home = s.home := rfl
@[simp] theorem modBus_store (b : Fin 8) (f : Bus → Bus) : (s.modBus b f).store = s.store := rfl
@[simp] theorem modBus_pins (b : Fin 8) (f : Bus → Bus) : (s.modBus b f).pins = s.pins := rfl
@[simp] theorem modBus_log (b : Fin 8) (f : Bus → Bus) : (s.modBus b f).log = s.log := rfl
@[simp] theorem modBus_cues (b : Fin 8) (f : Bus → Bus) : (s.modBus b f).cues = s.cues := rfl
@[simp] theorem modBus_xfer (b : Fin 8) (f : Bus → Bus) : (s.modBus b f).xfer = s.xfer := rfl
@[simp] theorem modBus_ctl (b : Fin 8) (f : Bus → Bus) : (s.modBus b f).ctl = s.ctl := rfl

end Sys2Proof.Machine.State
end

