-- ==== Sys2Proof/Laws/Frames.lean ====
section
/-! SUPPORT. Frames: for each shared operation, the fields of the state it leaves as they were. A frame is one conjunction,
which simp uses field by field. -/

namespace Sys2Proof.Machine

variable (s : State)

/-! ## Repetition -/

theorem forEach_keeps {α β : Type} (P : State → β) (f : α → State → State) (h : ∀ i t, P (f i t) = P t) (l : List α)
    (s : State) : P (forEach l f s) = P s := by
  induction l generalizing s with
  | nil => rfl
  | cons a l ih => exact (ih (f a s)).trans (h a s)

@[simp] theorem forEach_pending {α : Type} {f : α → State → State} (h : ∀ i t, (f i t).pending = t.pending) (l : List α) :
    (forEach l f s).pending = s.pending := forEach_keeps (·.pending) f h l s
@[simp] theorem forEach_dram {α : Type} {f : α → State → State} (h : ∀ i t, (f i t).dram = t.dram) (l : List α) :
    (forEach l f s).dram = s.dram := forEach_keeps (·.dram) f h l s
@[simp] theorem forEach_epIn {α : Type} {f : α → State → State} (h : ∀ i t, (f i t).epIn = t.epIn) (l : List α) :
    (forEach l f s).epIn = s.epIn := forEach_keeps (·.epIn) f h l s
@[simp] theorem forEach_port {α : Type} {f : α → State → State} (h : ∀ i t, (f i t).port = t.port) (l : List α) :
    (forEach l f s).port = s.port := forEach_keeps (·.port) f h l s
@[simp] theorem forEach_ins {α : Type} {f : α → State → State} (h : ∀ i t, (f i t).ins = t.ins) (l : List α) :
    (forEach l f s).ins = s.ins := forEach_keeps (·.ins) f h l s
@[simp] theorem forEach_aps {α : Type} {f : α → State → State} (h : ∀ i t, (f i t).aps = t.aps) (l : List α) :
    (forEach l f s).aps = s.aps := forEach_keeps (·.aps) f h l s
@[simp] theorem forEach_clock {α : Type} {f : α → State → State} (h : ∀ i t, (f i t).clock = t.clock) (l : List α) :
    (forEach l f s).clock = s.clock := forEach_keeps (·.clock) f h l s
@[simp] theorem forEach_lanes {α : Type} {f : α → State → State} (h : ∀ i t, (f i t).lanes = t.lanes) (l : List α) :
    (forEach l f s).lanes = s.lanes := forEach_keeps (·.lanes) f h l s
@[simp] theorem forEach_sel {α : Type} {f : α → State → State} (h : ∀ i t, (f i t).sel = t.sel) (l : List α) :
    (forEach l f s).sel = s.sel := forEach_keeps (·.sel) f h l s
@[simp] theorem forEach_snd {α : Type} {f : α → State → State} (h : ∀ i t, (f i t).snd = t.snd) (l : List α) :
    (forEach l f s).snd = s.snd := forEach_keeps (·.snd) f h l s
@[simp] theorem forEach_home {α : Type} {f : α → State → State} (h : ∀ i t, (f i t).home = t.home) (l : List α) :
    (forEach l f s).home = s.home := forEach_keeps (·.home) f h l s
@[simp] theorem forEach_store {α : Type} {f : α → State → State} (h : ∀ i t, (f i t).store = t.store) (l : List α) :
    (forEach l f s).store = s.store := forEach_keeps (·.store) f h l s
@[simp] theorem forEach_pins {α : Type} {f : α → State → State} (h : ∀ i t, (f i t).pins = t.pins) (l : List α) :
    (forEach l f s).pins = s.pins := forEach_keeps (·.pins) f h l s
@[simp] theorem forEach_log {α : Type} {f : α → State → State} (h : ∀ i t, (f i t).log = t.log) (l : List α) :
    (forEach l f s).log = s.log := forEach_keeps (·.log) f h l s
@[simp] theorem forEach_cues {α : Type} {f : α → State → State} (h : ∀ i t, (f i t).cues = t.cues) (l : List α) :
    (forEach l f s).cues = s.cues := forEach_keeps (·.cues) f h l s
@[simp] theorem forEach_xfer {α : Type} {f : α → State → State} (h : ∀ i t, (f i t).xfer = t.xfer) (l : List α) :
    (forEach l f s).xfer = s.xfer := forEach_keeps (·.xfer) f h l s
@[simp] theorem forEach_ctl {α : Type} {f : α → State → State} (h : ∀ i t, (f i t).ctl = t.ctl) (l : List α) :
    (forEach l f s).ctl = s.ctl := forEach_keeps (·.ctl) f h l s

/-! ## Entries, notices, mirror writes (R12, R148, R178) -/

@[simp] theorem push_frame (b : Fin 6) (e : InsEntry) :
    (push b e s).pending = s.pending ∧ (push b e s).dram = s.dram ∧ (push b e s).epIn = s.epIn ∧
    (push b e s).port = s.port ∧ (push b e s).aps = s.aps ∧ (push b e s).clock = s.clock ∧
    (push b e s).lanes = s.lanes ∧ (push b e s).sel = s.sel ∧ (push b e s).snd = s.snd ∧ (push b e s).home = s.home ∧
    (push b e s).store = s.store ∧ (push b e s).pins = s.pins ∧ (push b e s).log = s.log ∧
    (push b e s).cues = s.cues ∧ (push b e s).xfer = s.xfer ∧ (push b e s).ctl = s.ctl := by
  simp [push]

@[simp] theorem pushAll_frame (b : Fin 6) (es : List InsEntry) :
    (pushAll b es s).pending = s.pending ∧ (pushAll b es s).dram = s.dram ∧ (pushAll b es s).epIn = s.epIn ∧
    (pushAll b es s).port = s.port ∧ (pushAll b es s).aps = s.aps ∧ (pushAll b es s).clock = s.clock ∧
    (pushAll b es s).lanes = s.lanes ∧ (pushAll b es s).sel = s.sel ∧ (pushAll b es s).snd = s.snd ∧
    (pushAll b es s).home = s.home ∧ (pushAll b es s).store = s.store ∧ (pushAll b es s).pins = s.pins ∧
    (pushAll b es s).log = s.log ∧ (pushAll b es s).cues = s.cues ∧ (pushAll b es s).xfer = s.xfer ∧
    (pushAll b es s).ctl = s.ctl := by
  simp [pushAll]

@[simp] theorem dropHold_frame (b : Fin 6) :
    (dropHold b s).pending = s.pending ∧ (dropHold b s).dram = s.dram ∧ (dropHold b s).epIn = s.epIn ∧
    (dropHold b s).port = s.port ∧ (dropHold b s).aps = s.aps ∧ (dropHold b s).clock = s.clock ∧
    (dropHold b s).lanes = s.lanes ∧ (dropHold b s).sel = s.sel ∧ (dropHold b s).snd = s.snd ∧
    (dropHold b s).home = s.home ∧ (dropHold b s).store = s.store ∧ (dropHold b s).pins = s.pins ∧
    (dropHold b s).log = s.log ∧ (dropHold b s).cues = s.cues ∧ (dropHold b s).xfer = s.xfer ∧
    (dropHold b s).ctl = s.ctl := by
  simp [dropHold]

@[simp] theorem raiseAt_frame (n : W32) (tc : Nat) (k : NoticeKind) (j : Nat) (d : List Item) :
    (raiseAt n tc k j d s).pending = s.pending ∧ (raiseAt n tc k j d s).dram = s.dram ∧
    (raiseAt n tc k j d s).epIn = s.epIn ∧ (raiseAt n tc k j d s).port = s.port ∧ (raiseAt n tc k j d s).aps = s.aps ∧
    (raiseAt n tc k j d s).clock = s.clock ∧ (raiseAt n tc k j d s).lanes = s.lanes ∧
    (raiseAt n tc k j d s).sel = s.sel ∧ (raiseAt n tc k j d s).snd = s.snd ∧ (raiseAt n tc k j d s).home = s.home ∧
    (raiseAt n tc k j d s).store = s.store ∧ (raiseAt n tc k j d s).pins = s.pins ∧
    (raiseAt n tc k j d s).log = s.log ∧ (raiseAt n tc k j d s).cues = s.cues ∧
    (raiseAt n tc k j d s).xfer = s.xfer := by
  simp only [raiseAt]
  (repeat' split) <;> simp

@[simp] theorem raise_frame (k : NoticeKind) (j : Nat) (d : List Item) :
    (raise k j d s).pending = s.pending ∧ (raise k j d s).dram = s.dram ∧ (raise k j d s).epIn = s.epIn ∧
    (raise k j d s).port = s.port ∧ (raise k j d s).aps = s.aps ∧ (raise k j d s).clock = s.clock ∧
    (raise k j d s).lanes = s.lanes ∧ (raise k j d s).sel = s.sel ∧ (raise k j d s).snd = s.snd ∧
    (raise k j d s).home = s.home ∧ (raise k j d s).store = s.store ∧ (raise k j d s).pins = s.pins ∧
    (raise k j d s).log = s.log ∧ (raise k j d s).cues = s.cues ∧ (raise k j d s).xfer = s.xfer := by
  simp [raise]

@[simp] theorem releaseTo_frame (v : Nat) :
    (releaseTo v s).pending = s.pending ∧ (releaseTo v s).dram = s.dram ∧ (releaseTo v s).epIn = s.epIn ∧
    (releaseTo v s).port = s.port ∧ (releaseTo v s).ins = s.ins ∧ (releaseTo v s).aps = s.aps ∧
    (releaseTo v s).clock = s.clock ∧ (releaseTo v s).lanes = s.lanes ∧ (releaseTo v s).sel = s.sel ∧
    (releaseTo v s).snd = s.snd ∧ (releaseTo v s).home = s.home ∧ (releaseTo v s).store = s.store ∧
    (releaseTo v s).pins = s.pins ∧ (releaseTo v s).log = s.log ∧ (releaseTo v s).cues = s.cues ∧
    (releaseTo v s).xfer = s.xfer := by
  simp [releaseTo]

@[simp] theorem writeRecord_frame (i : Fin 256) :
    (writeRecord i s).pending = s.pending ∧ (writeRecord i s).dram = s.dram ∧ (writeRecord i s).epIn = s.epIn ∧
    (writeRecord i s).port = s.port ∧ (writeRecord i s).aps = s.aps ∧ (writeRecord i s).clock = s.clock ∧
    (writeRecord i s).lanes = s.lanes ∧ (writeRecord i s).sel = s.sel ∧ (writeRecord i s).snd = s.snd ∧
    (writeRecord i s).home = s.home ∧ (writeRecord i s).store = s.store ∧ (writeRecord i s).pins = s.pins ∧
    (writeRecord i s).log = s.log ∧ (writeRecord i s).cues = s.cues ∧ (writeRecord i s).xfer = s.xfer ∧
    (writeRecord i s).ctl = s.ctl := by
  simp only [writeRecord]
  (repeat' split) <;> simp

@[simp] theorem mirror_frame (i : Fin 256) :
    (mirror i s).pending = s.pending ∧ (mirror i s).dram = s.dram ∧ (mirror i s).epIn = s.epIn ∧
    (mirror i s).port = s.port ∧ (mirror i s).aps = s.aps ∧ (mirror i s).clock = s.clock ∧
    (mirror i s).lanes = s.lanes ∧ (mirror i s).sel = s.sel ∧ (mirror i s).snd = s.snd ∧ (mirror i s).home = s.home ∧
    (mirror i s).store = s.store ∧ (mirror i s).pins = s.pins ∧ (mirror i s).cues = s.cues ∧
    (mirror i s).xfer = s.xfer ∧ (mirror i s).ctl = s.ctl := by
  simp [mirror]

@[simp] theorem changeRec_frame (i : Fin 256) (f : Clip → Clip) :
    (changeRec i f s).pending = s.pending ∧ (changeRec i f s).dram = s.dram ∧ (changeRec i f s).epIn = s.epIn ∧
    (changeRec i f s).port = s.port ∧ (changeRec i f s).aps = s.aps ∧ (changeRec i f s).clock = s.clock ∧
    (changeRec i f s).lanes = s.lanes ∧ (changeRec i f s).sel = s.sel ∧ (changeRec i f s).snd = s.snd ∧
    (changeRec i f s).home = s.home ∧ (changeRec i f s).store = s.store ∧ (changeRec i f s).pins = s.pins ∧
    (changeRec i f s).cues = s.cues ∧ (changeRec i f s).xfer = s.xfer ∧ (changeRec i f s).ctl = s.ctl := by
  simp [changeRec]

@[simp] theorem writeHeader_frame :
    (writeHeader s).pending = s.pending ∧ (writeHeader s).dram = s.dram ∧ (writeHeader s).epIn = s.epIn ∧
    (writeHeader s).port = s.port ∧ (writeHeader s).aps = s.aps ∧ (writeHeader s).clock = s.clock ∧
    (writeHeader s).lanes = s.lanes ∧ (writeHeader s).sel = s.sel ∧ (writeHeader s).snd = s.snd ∧
    (writeHeader s).home = s.home ∧ (writeHeader s).store = s.store ∧ (writeHeader s).pins = s.pins ∧
    (writeHeader s).log = s.log ∧ (writeHeader s).cues = s.cues ∧ (writeHeader s).xfer = s.xfer ∧
    (writeHeader s).ctl = s.ctl := by
  simp only [writeHeader]
  (repeat' split) <;> simp

/-! ## Home paths (R95 to R112) -/

@[simp] theorem ringHeaderWrite_frame (p : Fin 2) (v : Nat) (e : JoinEffect) :
    (ringHeaderWrite p v e s).pending = s.pending ∧ (ringHeaderWrite p v e s).dram = s.dram ∧
    (ringHeaderWrite p v e s).epIn = s.epIn ∧ (ringHeaderWrite p v e s).port = s.port ∧
    (ringHeaderWrite p v e s).aps = s.aps ∧ (ringHeaderWrite p v e s).clock = s.clock ∧
    (ringHeaderWrite p v e s).lanes = s.lanes ∧ (ringHeaderWrite p v e s).sel = s.sel ∧
    (ringHeaderWrite p v e s).snd = s.snd ∧ (ringHeaderWrite p v e s).home = s.home ∧
    (ringHeaderWrite p v e s).store = s.store ∧ (ringHeaderWrite p v e s).pins = s.pins ∧
    (ringHeaderWrite p v e s).log = s.log ∧ (ringHeaderWrite p v e s).cues = s.cues ∧
    (ringHeaderWrite p v e s).xfer = s.xfer ∧ (ringHeaderWrite p v e s).ctl = s.ctl := by
  simp [ringHeaderWrite]

@[simp] theorem padWrite_frame (p : Fin 2) (e : Nat) :
    (padWrite p e s).pending = s.pending ∧ (padWrite p e s).dram = s.dram ∧ (padWrite p e s).epIn = s.epIn ∧
    (padWrite p e s).port = s.port ∧ (padWrite p e s).aps = s.aps ∧ (padWrite p e s).clock = s.clock ∧
    (padWrite p e s).lanes = s.lanes ∧ (padWrite p e s).sel = s.sel ∧ (padWrite p e s).snd = s.snd ∧
    (padWrite p e s).home = s.home ∧ (padWrite p e s).store = s.store ∧ (padWrite p e s).pins = s.pins ∧
    (padWrite p e s).log = s.log ∧ (padWrite p e s).cues = s.cues ∧ (padWrite p e s).xfer = s.xfer ∧
    (padWrite p e s).ctl = s.ctl := by
  simp [padWrite]

@[simp] theorem padStep_frame (p : Fin 2) (f : Fit) :
    (padStep p f s).pending = s.pending ∧ (padStep p f s).dram = s.dram ∧ (padStep p f s).epIn = s.epIn ∧
    (padStep p f s).port = s.port ∧ (padStep p f s).aps = s.aps ∧ (padStep p f s).clock = s.clock ∧
    (padStep p f s).lanes = s.lanes ∧ (padStep p f s).sel = s.sel ∧ (padStep p f s).snd = s.snd ∧
    (padStep p f s).store = s.store ∧ (padStep p f s).pins = s.pins ∧ (padStep p f s).log = s.log ∧
    (padStep p f s).cues = s.cues ∧ (padStep p f s).xfer = s.xfer ∧ (padStep p f s).ctl = s.ctl := by
  cases f <;> simp [padStep]

@[simp] theorem dataStep_frame (p : Fin 2) (u : MUnit) (n : Nat) :
    (dataStep p u n s).pending = s.pending ∧ (dataStep p u n s).dram = s.dram ∧ (dataStep p u n s).epIn = s.epIn ∧
    (dataStep p u n s).port = s.port ∧ (dataStep p u n s).aps = s.aps ∧ (dataStep p u n s).clock = s.clock ∧
    (dataStep p u n s).lanes = s.lanes ∧ (dataStep p u n s).sel = s.sel ∧ (dataStep p u n s).snd = s.snd ∧
    (dataStep p u n s).store = s.store ∧ (dataStep p u n s).pins = s.pins ∧ (dataStep p u n s).log = s.log ∧
    (dataStep p u n s).cues = s.cues ∧ (dataStep p u n s).xfer = s.xfer ∧ (dataStep p u n s).ctl = s.ctl := by
  simp [dataStep]

@[simp] theorem publishStep_frame (p : Fin 2) :
    (publishStep p s).pending = s.pending ∧ (publishStep p s).dram = s.dram ∧ (publishStep p s).epIn = s.epIn ∧
    (publishStep p s).port = s.port ∧ (publishStep p s).aps = s.aps ∧ (publishStep p s).clock = s.clock ∧
    (publishStep p s).lanes = s.lanes ∧ (publishStep p s).sel = s.sel ∧ (publishStep p s).snd = s.snd ∧
    (publishStep p s).home = s.home ∧ (publishStep p s).store = s.store ∧ (publishStep p s).pins = s.pins ∧
    (publishStep p s).log = s.log ∧ (publishStep p s).cues = s.cues ∧ (publishStep p s).xfer = s.xfer ∧
    (publishStep p s).ctl = s.ctl := by
  simp [publishStep]

@[simp] theorem pressureTest_frame (p : Fin 2) (k : UnitKind) :
    (pressureTest p k s).pending = s.pending ∧ (pressureTest p k s).dram = s.dram ∧
    (pressureTest p k s).epIn = s.epIn ∧ (pressureTest p k s).port = s.port ∧ (pressureTest p k s).aps = s.aps ∧
    (pressureTest p k s).clock = s.clock ∧ (pressureTest p k s).lanes = s.lanes ∧ (pressureTest p k s).sel = s.sel ∧
    (pressureTest p k s).snd = s.snd ∧ (pressureTest p k s).store = s.store ∧ (pressureTest p k s).pins = s.pins ∧
    (pressureTest p k s).log = s.log ∧ (pressureTest p k s).cues = s.cues ∧ (pressureTest p k s).xfer = s.xfer := by
  simp only [pressureTest]
  (repeat' split) <;> simp

@[simp] theorem place_frame (p : Fin 2) (u : MUnit) (n : Nat) :
    (place p u n s).pending = s.pending ∧ (place p u n s).dram = s.dram ∧ (place p u n s).epIn = s.epIn ∧
    (place p u n s).port = s.port ∧ (place p u n s).aps = s.aps ∧ (place p u n s).clock = s.clock ∧
    (place p u n s).lanes = s.lanes ∧ (place p u n s).sel = s.sel ∧ (place p u n s).snd = s.snd ∧
    (place p u n s).store = s.store ∧ (place p u n s).pins = s.pins ∧ (place p u n s).log = s.log ∧
    (place p u n s).cues = s.cues ∧ (place p u n s).xfer = s.xfer := by
  simp [place]

@[simp] theorem offerLive_frame (src : Fin 5) (u : MUnit) (p : Fin 2) :
    (offerLive src u p s).pending = s.pending ∧ (offerLive src u p s).dram = s.dram ∧
    (offerLive src u p s).epIn = s.epIn ∧ (offerLive src u p s).port = s.port ∧ (offerLive src u p s).aps = s.aps ∧
    (offerLive src u p s).clock = s.clock ∧ (offerLive src u p s).lanes = s.lanes ∧
    (offerLive src u p s).sel = s.sel ∧ (offerLive src u p s).snd = s.snd ∧ (offerLive src u p s).store = s.store ∧
    (offerLive src u p s).pins = s.pins ∧ (offerLive src u p s).log = s.log ∧ (offerLive src u p s).cues = s.cues ∧
    (offerLive src u p s).xfer = s.xfer := by
  simp only [offerLive]
  (repeat' split) <;> simp

@[simp] theorem offerTag_frame (u : MUnit) (p : Fin 2) :
    (offerTag u p s).pending = s.pending ∧ (offerTag u p s).dram = s.dram ∧ (offerTag u p s).epIn = s.epIn ∧
    (offerTag u p s).port = s.port ∧ (offerTag u p s).aps = s.aps ∧ (offerTag u p s).clock = s.clock ∧
    (offerTag u p s).lanes = s.lanes ∧ (offerTag u p s).sel = s.sel ∧ (offerTag u p s).snd = s.snd ∧
    (offerTag u p s).store = s.store ∧ (offerTag u p s).pins = s.pins ∧ (offerTag u p s).log = s.log ∧
    (offerTag u p s).cues = s.cues ∧ (offerTag u p s).xfer = s.xfer := by
  simp only [offerTag]
  (repeat' split) <;> simp

@[simp] theorem offerReplay_frame (p : Fin 2) (u : MUnit) :
    (offerReplay p u s).pending = s.pending ∧ (offerReplay p u s).dram = s.dram ∧ (offerReplay p u s).epIn = s.epIn ∧
    (offerReplay p u s).port = s.port ∧ (offerReplay p u s).aps = s.aps ∧ (offerReplay p u s).clock = s.clock ∧
    (offerReplay p u s).lanes = s.lanes ∧ (offerReplay p u s).sel = s.sel ∧ (offerReplay p u s).snd = s.snd ∧
    (offerReplay p u s).store = s.store ∧ (offerReplay p u s).pins = s.pins ∧ (offerReplay p u s).log = s.log ∧
    (offerReplay p u s).cues = s.cues ∧ (offerReplay p u s).xfer = s.xfer := by
  simp only [offerReplay]
  (repeat' split) <;> simp

@[simp] theorem raiseResume_frame (p : Fin 2) (r : Nat) :
    (raiseResume p r s).pending = s.pending ∧ (raiseResume p r s).dram = s.dram ∧ (raiseResume p r s).epIn = s.epIn ∧
    (raiseResume p r s).port = s.port ∧ (raiseResume p r s).aps = s.aps ∧ (raiseResume p r s).clock = s.clock ∧
    (raiseResume p r s).lanes = s.lanes ∧ (raiseResume p r s).sel = s.sel ∧ (raiseResume p r s).snd = s.snd ∧
    (raiseResume p r s).home = s.home ∧ (raiseResume p r s).store = s.store ∧ (raiseResume p r s).pins = s.pins ∧
    (raiseResume p r s).log = s.log ∧ (raiseResume p r s).cues = s.cues ∧ (raiseResume p r s).xfer = s.xfer := by
  simp only [raiseResume]
  (repeat' split) <;> simp

@[simp] theorem stallTick_frame (p : Fin 2) :
    (stallTick p s).pending = s.pending ∧ (stallTick p s).dram = s.dram ∧ (stallTick p s).epIn = s.epIn ∧
    (stallTick p s).port = s.port ∧ (stallTick p s).aps = s.aps ∧ (stallTick p s).clock = s.clock ∧
    (stallTick p s).lanes = s.lanes ∧ (stallTick p s).sel = s.sel ∧ (stallTick p s).snd = s.snd ∧
    (stallTick p s).store = s.store ∧ (stallTick p s).pins = s.pins ∧ (stallTick p s).log = s.log ∧
    (stallTick p s).cues = s.cues ∧ (stallTick p s).xfer = s.xfer := by
  simp only [stallTick]
  (repeat' split) <;> simp

@[simp] theorem offerLiveRoute_frame (src : Fin 5) (u : MUnit) :
    (offerToRoute (offerLive src u) s).pending = s.pending ∧ (offerToRoute (offerLive src u) s).dram = s.dram ∧
    (offerToRoute (offerLive src u) s).epIn = s.epIn ∧ (offerToRoute (offerLive src u) s).port = s.port ∧
    (offerToRoute (offerLive src u) s).aps = s.aps ∧ (offerToRoute (offerLive src u) s).clock = s.clock ∧
    (offerToRoute (offerLive src u) s).lanes = s.lanes ∧ (offerToRoute (offerLive src u) s).sel = s.sel ∧
    (offerToRoute (offerLive src u) s).snd = s.snd ∧ (offerToRoute (offerLive src u) s).store = s.store ∧
    (offerToRoute (offerLive src u) s).pins = s.pins ∧ (offerToRoute (offerLive src u) s).log = s.log ∧
    (offerToRoute (offerLive src u) s).cues = s.cues ∧ (offerToRoute (offerLive src u) s).xfer = s.xfer := by
  simp [offerToRoute]

@[simp] theorem offerTagRoute_frame (u : MUnit) :
    (offerToRoute (offerTag u) s).pending = s.pending ∧ (offerToRoute (offerTag u) s).dram = s.dram ∧
    (offerToRoute (offerTag u) s).epIn = s.epIn ∧ (offerToRoute (offerTag u) s).port = s.port ∧
    (offerToRoute (offerTag u) s).aps = s.aps ∧ (offerToRoute (offerTag u) s).clock = s.clock ∧
    (offerToRoute (offerTag u) s).lanes = s.lanes ∧ (offerToRoute (offerTag u) s).sel = s.sel ∧
    (offerToRoute (offerTag u) s).snd = s.snd ∧ (offerToRoute (offerTag u) s).store = s.store ∧
    (offerToRoute (offerTag u) s).pins = s.pins ∧ (offerToRoute (offerTag u) s).log = s.log ∧
    (offerToRoute (offerTag u) s).cues = s.cues ∧ (offerToRoute (offerTag u) s).xfer = s.xfer := by
  simp [offerToRoute]

/-! ## Clip ranges (R122, R126 to R129) -/

@[simp] theorem loseClip_frame (i : Fin 256) :
    (loseClip i s).pending = s.pending ∧ (loseClip i s).dram = s.dram ∧ (loseClip i s).epIn = s.epIn ∧
    (loseClip i s).port = s.port ∧ (loseClip i s).aps = s.aps ∧ (loseClip i s).clock = s.clock ∧
    (loseClip i s).lanes = s.lanes ∧ (loseClip i s).sel = s.sel ∧ (loseClip i s).snd = s.snd ∧
    (loseClip i s).home = s.home ∧ (loseClip i s).store = s.store ∧ (loseClip i s).pins = s.pins ∧
    (loseClip i s).cues = s.cues ∧ (loseClip i s).xfer = s.xfer := by
  simp only [loseClip]
  (repeat' split) <;> simp

@[simp] theorem loseUpTo_frame (q : W32) :
    (loseUpTo q s).pending = s.pending ∧ (loseUpTo q s).dram = s.dram ∧ (loseUpTo q s).epIn = s.epIn ∧
    (loseUpTo q s).port = s.port ∧ (loseUpTo q s).aps = s.aps ∧ (loseUpTo q s).clock = s.clock ∧
    (loseUpTo q s).lanes = s.lanes ∧ (loseUpTo q s).sel = s.sel ∧ (loseUpTo q s).snd = s.snd ∧
    (loseUpTo q s).home = s.home ∧ (loseUpTo q s).store = s.store ∧ (loseUpTo q s).pins = s.pins ∧
    (loseUpTo q s).cues = s.cues ∧ (loseUpTo q s).xfer = s.xfer := by
  simp [loseUpTo]

@[simp] theorem makeLogOnly_frame (i : Fin 256) :
    (makeLogOnly i s).pending = s.pending ∧ (makeLogOnly i s).dram = s.dram ∧ (makeLogOnly i s).epIn = s.epIn ∧
    (makeLogOnly i s).port = s.port ∧ (makeLogOnly i s).aps = s.aps ∧ (makeLogOnly i s).clock = s.clock ∧
    (makeLogOnly i s).lanes = s.lanes ∧ (makeLogOnly i s).sel = s.sel ∧ (makeLogOnly i s).snd = s.snd ∧
    (makeLogOnly i s).home = s.home ∧ (makeLogOnly i s).store = s.store ∧ (makeLogOnly i s).pins = s.pins ∧
    (makeLogOnly i s).cues = s.cues ∧ (makeLogOnly i s).xfer = s.xfer ∧ (makeLogOnly i s).ctl = s.ctl := by
  simp [makeLogOnly]

@[simp] theorem pendingToLogOnly_frame (p : Clip → Bool) :
    (pendingToLogOnly p s).pending = s.pending ∧ (pendingToLogOnly p s).dram = s.dram ∧
    (pendingToLogOnly p s).epIn = s.epIn ∧ (pendingToLogOnly p s).port = s.port ∧ (pendingToLogOnly p s).aps = s.aps ∧
    (pendingToLogOnly p s).clock = s.clock ∧ (pendingToLogOnly p s).lanes = s.lanes ∧
    (pendingToLogOnly p s).sel = s.sel ∧ (pendingToLogOnly p s).snd = s.snd ∧ (pendingToLogOnly p s).home = s.home ∧
    (pendingToLogOnly p s).store = s.store ∧ (pendingToLogOnly p s).pins = s.pins ∧
    (pendingToLogOnly p s).cues = s.cues ∧ (pendingToLogOnly p s).xfer = s.xfer ∧
    (pendingToLogOnly p s).ctl = s.ctl := by
  simp [pendingToLogOnly]

@[simp] theorem loseAll_frame :
    (loseAll s).pending = s.pending ∧ (loseAll s).dram = s.dram ∧ (loseAll s).epIn = s.epIn ∧
    (loseAll s).port = s.port ∧ (loseAll s).aps = s.aps ∧ (loseAll s).clock = s.clock ∧ (loseAll s).lanes = s.lanes ∧
    (loseAll s).sel = s.sel ∧ (loseAll s).snd = s.snd ∧ (loseAll s).home = s.home ∧ (loseAll s).store = s.store ∧
    (loseAll s).pins = s.pins ∧ (loseAll s).cues = s.cues ∧ (loseAll s).xfer = s.xfer := by
  simp [loseAll]

@[simp] theorem resolveEnd_frame (i : Fin 256) :
    (resolveEnd i s).pending = s.pending ∧ (resolveEnd i s).dram = s.dram ∧ (resolveEnd i s).epIn = s.epIn ∧
    (resolveEnd i s).port = s.port ∧ (resolveEnd i s).aps = s.aps ∧ (resolveEnd i s).clock = s.clock ∧
    (resolveEnd i s).lanes = s.lanes ∧ (resolveEnd i s).sel = s.sel ∧ (resolveEnd i s).snd = s.snd ∧
    (resolveEnd i s).home = s.home ∧ (resolveEnd i s).store = s.store ∧ (resolveEnd i s).pins = s.pins ∧
    (resolveEnd i s).cues = s.cues ∧ (resolveEnd i s).xfer = s.xfer ∧ (resolveEnd i s).ctl = s.ctl := by
  simp [resolveEnd]

@[simp] theorem resolveAtFrameStart_frame (l : Fin 4) (n : W32) :
    (resolveAtFrameStart l n s).pending = s.pending ∧ (resolveAtFrameStart l n s).dram = s.dram ∧
    (resolveAtFrameStart l n s).epIn = s.epIn ∧ (resolveAtFrameStart l n s).port = s.port ∧
    (resolveAtFrameStart l n s).aps = s.aps ∧ (resolveAtFrameStart l n s).clock = s.clock ∧
    (resolveAtFrameStart l n s).lanes = s.lanes ∧ (resolveAtFrameStart l n s).sel = s.sel ∧
    (resolveAtFrameStart l n s).snd = s.snd ∧ (resolveAtFrameStart l n s).home = s.home ∧
    (resolveAtFrameStart l n s).store = s.store ∧ (resolveAtFrameStart l n s).pins = s.pins ∧
    (resolveAtFrameStart l n s).cues = s.cues ∧ (resolveAtFrameStart l n s).xfer = s.xfer ∧
    (resolveAtFrameStart l n s).ctl = s.ctl := by
  have h : ∀ (i : Fin 256) (t : State), (if (t.log.recs.get i).first.isSome = true then resolveEnd i t else makeLogOnly i t).pending = t.pending ∧ (if (t.log.recs.get i).first.isSome = true then resolveEnd i t else makeLogOnly i t).dram = t.dram ∧ (if (t.log.recs.get i).first.isSome = true then resolveEnd i t else makeLogOnly i t).epIn = t.epIn ∧ (if (t.log.recs.get i).first.isSome = true then resolveEnd i t else makeLogOnly i t).port = t.port ∧ (if (t.log.recs.get i).first.isSome = true then resolveEnd i t else makeLogOnly i t).aps = t.aps ∧ (if (t.log.recs.get i).first.isSome = true then resolveEnd i t else makeLogOnly i t).clock = t.clock ∧ (if (t.log.recs.get i).first.isSome = true then resolveEnd i t else makeLogOnly i t).lanes = t.lanes ∧ (if (t.log.recs.get i).first.isSome = true then resolveEnd i t else makeLogOnly i t).sel = t.sel ∧ (if (t.log.recs.get i).first.isSome = true then resolveEnd i t else makeLogOnly i t).snd = t.snd ∧ (if (t.log.recs.get i).first.isSome = true then resolveEnd i t else makeLogOnly i t).home = t.home ∧ (if (t.log.recs.get i).first.isSome = true then resolveEnd i t else makeLogOnly i t).store = t.store ∧ (if (t.log.recs.get i).first.isSome = true then resolveEnd i t else makeLogOnly i t).pins = t.pins ∧ (if (t.log.recs.get i).first.isSome = true then resolveEnd i t else makeLogOnly i t).cues = t.cues ∧ (if (t.log.recs.get i).first.isSome = true then resolveEnd i t else makeLogOnly i t).xfer = t.xfer ∧ (if (t.log.recs.get i).first.isSome = true then resolveEnd i t else makeLogOnly i t).ctl = t.ctl := by
    intro i t
    split <;> simp
  simp [resolveAtFrameStart, h]

@[simp] theorem stopRecording_frame (l : Fin 4) :
    (stopRecording l s).pending = s.pending ∧ (stopRecording l s).dram = s.dram ∧ (stopRecording l s).epIn = s.epIn ∧
    (stopRecording l s).port = s.port ∧ (stopRecording l s).aps = s.aps ∧ (stopRecording l s).clock = s.clock ∧
    (stopRecording l s).lanes = s.lanes ∧ (stopRecording l s).sel = s.sel ∧ (stopRecording l s).snd = s.snd ∧
    (stopRecording l s).home = s.home ∧ (stopRecording l s).store = s.store ∧ (stopRecording l s).pins = s.pins ∧
    (stopRecording l s).cues = s.cues ∧ (stopRecording l s).xfer = s.xfer ∧ (stopRecording l s).ctl = s.ctl := by
  simp [stopRecording]

@[simp] theorem resolveOpen_frame (i : Fin 256) :
    (resolveOpen i s).pending = s.pending ∧ (resolveOpen i s).dram = s.dram ∧ (resolveOpen i s).epIn = s.epIn ∧
    (resolveOpen i s).port = s.port ∧ (resolveOpen i s).ins = s.ins ∧ (resolveOpen i s).aps = s.aps ∧
    (resolveOpen i s).clock = s.clock ∧ (resolveOpen i s).lanes = s.lanes ∧ (resolveOpen i s).sel = s.sel ∧
    (resolveOpen i s).snd = s.snd ∧ (resolveOpen i s).home = s.home ∧ (resolveOpen i s).store = s.store ∧
    (resolveOpen i s).pins = s.pins ∧ (resolveOpen i s).cues = s.cues ∧ (resolveOpen i s).xfer = s.xfer ∧
    (resolveOpen i s).ctl = s.ctl := by
  simp only [resolveOpen]
  (repeat' split) <;> simp

@[simp] theorem resolveFirst_frame (l : Fin 4) (e : IndexEntry) (b : List IndexEntry) :
    (resolveFirst l e b s).pending = s.pending ∧ (resolveFirst l e b s).dram = s.dram ∧
    (resolveFirst l e b s).epIn = s.epIn ∧ (resolveFirst l e b s).port = s.port ∧ (resolveFirst l e b s).aps = s.aps ∧
    (resolveFirst l e b s).clock = s.clock ∧ (resolveFirst l e b s).lanes = s.lanes ∧
    (resolveFirst l e b s).sel = s.sel ∧ (resolveFirst l e b s).snd = s.snd ∧ (resolveFirst l e b s).home = s.home ∧
    (resolveFirst l e b s).store = s.store ∧ (resolveFirst l e b s).pins = s.pins ∧
    (resolveFirst l e b s).cues = s.cues ∧ (resolveFirst l e b s).xfer = s.xfer ∧
    (resolveFirst l e b s).ctl = s.ctl := by
  simp [resolveFirst]

/-! ## Clip store (R117 to R125) -/

@[simp] theorem storeHeaderWrite_frame :
    (storeHeaderWrite s).pending = s.pending ∧ (storeHeaderWrite s).dram = s.dram ∧
    (storeHeaderWrite s).epIn = s.epIn ∧ (storeHeaderWrite s).port = s.port ∧ (storeHeaderWrite s).aps = s.aps ∧
    (storeHeaderWrite s).clock = s.clock ∧ (storeHeaderWrite s).lanes = s.lanes ∧ (storeHeaderWrite s).sel = s.sel ∧
    (storeHeaderWrite s).snd = s.snd ∧ (storeHeaderWrite s).home = s.home ∧ (storeHeaderWrite s).store = s.store ∧
    (storeHeaderWrite s).pins = s.pins ∧ (storeHeaderWrite s).log = s.log ∧ (storeHeaderWrite s).cues = s.cues ∧
    (storeHeaderWrite s).xfer = s.xfer ∧ (storeHeaderWrite s).ctl = s.ctl := by
  simp [storeHeaderWrite]

@[simp] theorem markGaps_frame (src : Option (Fin 4)) (n : W32) :
    (markGaps src n s).pending = s.pending ∧ (markGaps src n s).dram = s.dram ∧ (markGaps src n s).epIn = s.epIn ∧
    (markGaps src n s).port = s.port ∧ (markGaps src n s).aps = s.aps ∧ (markGaps src n s).clock = s.clock ∧
    (markGaps src n s).lanes = s.lanes ∧ (markGaps src n s).sel = s.sel ∧ (markGaps src n s).snd = s.snd ∧
    (markGaps src n s).home = s.home ∧ (markGaps src n s).store = s.store ∧ (markGaps src n s).pins = s.pins ∧
    (markGaps src n s).cues = s.cues ∧ (markGaps src n s).xfer = s.xfer ∧ (markGaps src n s).ctl = s.ctl := by
  simp [markGaps]

@[simp] theorem refuseOffer_frame (src : Option (Fin 4)) (n : W32) (i : Fin 256) :
    (refuseOffer src n i s).pending = s.pending ∧ (refuseOffer src n i s).dram = s.dram ∧
    (refuseOffer src n i s).epIn = s.epIn ∧ (refuseOffer src n i s).port = s.port ∧
    (refuseOffer src n i s).aps = s.aps ∧ (refuseOffer src n i s).clock = s.clock ∧
    (refuseOffer src n i s).lanes = s.lanes ∧ (refuseOffer src n i s).sel = s.sel ∧
    (refuseOffer src n i s).snd = s.snd ∧ (refuseOffer src n i s).home = s.home ∧
    (refuseOffer src n i s).pins = s.pins ∧ (refuseOffer src n i s).cues = s.cues ∧
    (refuseOffer src n i s).xfer = s.xfer := by
  simp only [refuseOffer]
  (repeat' split) <;> simp

@[simp] theorem unitLeaves_frame (u : StoredUnit) :
    (unitLeaves u s).pending = s.pending ∧ (unitLeaves u s).dram = s.dram ∧ (unitLeaves u s).epIn = s.epIn ∧
    (unitLeaves u s).port = s.port ∧ (unitLeaves u s).aps = s.aps ∧ (unitLeaves u s).clock = s.clock ∧
    (unitLeaves u s).lanes = s.lanes ∧ (unitLeaves u s).sel = s.sel ∧ (unitLeaves u s).snd = s.snd ∧
    (unitLeaves u s).home = s.home ∧ (unitLeaves u s).pins = s.pins ∧ (unitLeaves u s).cues = s.cues ∧
    (unitLeaves u s).xfer = s.xfer := by
  simp [unitLeaves]

@[simp] theorem storePadStep_frame (e : Nat) :
    (storePadStep e s).pending = s.pending ∧ (storePadStep e s).dram = s.dram ∧ (storePadStep e s).epIn = s.epIn ∧
    (storePadStep e s).port = s.port ∧ (storePadStep e s).aps = s.aps ∧ (storePadStep e s).clock = s.clock ∧
    (storePadStep e s).lanes = s.lanes ∧ (storePadStep e s).sel = s.sel ∧ (storePadStep e s).snd = s.snd ∧
    (storePadStep e s).home = s.home ∧ (storePadStep e s).pins = s.pins ∧ (storePadStep e s).log = s.log ∧
    (storePadStep e s).cues = s.cues ∧ (storePadStep e s).xfer = s.xfer ∧ (storePadStep e s).ctl = s.ctl := by
  simp only [storePadStep]
  (repeat' split) <;> simp

@[simp] theorem storeDataStep_frame (src : Option (Fin 4)) (n : W32) (u : MUnit) :
    (storeDataStep src n u s).pending = s.pending ∧ (storeDataStep src n u s).dram = s.dram ∧
    (storeDataStep src n u s).epIn = s.epIn ∧ (storeDataStep src n u s).port = s.port ∧
    (storeDataStep src n u s).aps = s.aps ∧ (storeDataStep src n u s).clock = s.clock ∧
    (storeDataStep src n u s).lanes = s.lanes ∧ (storeDataStep src n u s).sel = s.sel ∧
    (storeDataStep src n u s).snd = s.snd ∧ (storeDataStep src n u s).home = s.home ∧
    (storeDataStep src n u s).pins = s.pins ∧ (storeDataStep src n u s).log = s.log ∧
    (storeDataStep src n u s).cues = s.cues ∧ (storeDataStep src n u s).xfer = s.xfer ∧
    (storeDataStep src n u s).ctl = s.ctl := by
  simp [storeDataStep]

@[simp] theorem indexStep_frame (l : Fin 4) (n q : W32) (c : Nat) :
    (indexStep l n q c s).pending = s.pending ∧ (indexStep l n q c s).dram = s.dram ∧
    (indexStep l n q c s).epIn = s.epIn ∧ (indexStep l n q c s).port = s.port ∧ (indexStep l n q c s).aps = s.aps ∧
    (indexStep l n q c s).clock = s.clock ∧ (indexStep l n q c s).lanes = s.lanes ∧
    (indexStep l n q c s).sel = s.sel ∧ (indexStep l n q c s).snd = s.snd ∧ (indexStep l n q c s).home = s.home ∧
    (indexStep l n q c s).pins = s.pins ∧ (indexStep l n q c s).cues = s.cues ∧ (indexStep l n q c s).xfer = s.xfer ∧
    (indexStep l n q c s).ctl = s.ctl := by
  simp only [indexStep]
  (repeat' split) <;> simp

@[simp] theorem tallyRows_frame (l : Fin 4) (n : W32) :
    (tallyRows l n s).pending = s.pending ∧ (tallyRows l n s).dram = s.dram ∧ (tallyRows l n s).epIn = s.epIn ∧
    (tallyRows l n s).port = s.port ∧ (tallyRows l n s).ins = s.ins ∧ (tallyRows l n s).aps = s.aps ∧
    (tallyRows l n s).clock = s.clock ∧ (tallyRows l n s).lanes = s.lanes ∧ (tallyRows l n s).sel = s.sel ∧
    (tallyRows l n s).snd = s.snd ∧ (tallyRows l n s).home = s.home ∧ (tallyRows l n s).store = s.store ∧
    (tallyRows l n s).pins = s.pins ∧ (tallyRows l n s).cues = s.cues ∧ (tallyRows l n s).xfer = s.xfer ∧
    (tallyRows l n s).ctl = s.ctl := by
  simp [tallyRows]

@[simp] theorem storeUnit_frame (src : Option (Fin 4)) (n : W32) (u : MUnit) (a b : List Retained) :
    (storeUnit src n u a b s).pending = s.pending ∧ (storeUnit src n u a b s).dram = s.dram ∧
    (storeUnit src n u a b s).epIn = s.epIn ∧ (storeUnit src n u a b s).port = s.port ∧
    (storeUnit src n u a b s).aps = s.aps ∧ (storeUnit src n u a b s).clock = s.clock ∧
    (storeUnit src n u a b s).lanes = s.lanes ∧ (storeUnit src n u a b s).sel = s.sel ∧
    (storeUnit src n u a b s).snd = s.snd ∧ (storeUnit src n u a b s).home = s.home ∧
    (storeUnit src n u a b s).pins = s.pins ∧ (storeUnit src n u a b s).cues = s.cues ∧
    (storeUnit src n u a b s).xfer = s.xfer := by
  cases src <;> simp [storeUnit]

@[simp] theorem resumeStore_frame :
    (resumeStore s).pending = s.pending ∧ (resumeStore s).dram = s.dram ∧ (resumeStore s).epIn = s.epIn ∧
    (resumeStore s).port = s.port ∧ (resumeStore s).aps = s.aps ∧ (resumeStore s).clock = s.clock ∧
    (resumeStore s).lanes = s.lanes ∧ (resumeStore s).sel = s.sel ∧ (resumeStore s).snd = s.snd ∧
    (resumeStore s).home = s.home ∧ (resumeStore s).pins = s.pins ∧ (resumeStore s).log = s.log ∧
    (resumeStore s).cues = s.cues ∧ (resumeStore s).xfer = s.xfer := by
  simp only [resumeStore]
  (repeat' split) <;> simp

@[simp] theorem offerStore_frame (src : Option (Fin 4)) (n : W32) (u : MUnit) :
    (offerStore src n u s).pending = s.pending ∧ (offerStore src n u s).dram = s.dram ∧
    (offerStore src n u s).epIn = s.epIn ∧ (offerStore src n u s).port = s.port ∧ (offerStore src n u s).aps = s.aps ∧
    (offerStore src n u s).clock = s.clock ∧ (offerStore src n u s).lanes = s.lanes ∧
    (offerStore src n u s).sel = s.sel ∧ (offerStore src n u s).snd = s.snd ∧ (offerStore src n u s).home = s.home ∧
    (offerStore src n u s).pins = s.pins ∧ (offerStore src n u s).cues = s.cues ∧
    (offerStore src n u s).xfer = s.xfer := by
  simp only [offerStore]
  (repeat' split) <;> simp

@[simp] theorem storeFrameStart_frame (l : Fin 4) (n : W32) :
    (storeFrameStart l n s).pending = s.pending ∧ (storeFrameStart l n s).dram = s.dram ∧
    (storeFrameStart l n s).epIn = s.epIn ∧ (storeFrameStart l n s).port = s.port ∧
    (storeFrameStart l n s).aps = s.aps ∧ (storeFrameStart l n s).clock = s.clock ∧
    (storeFrameStart l n s).lanes = s.lanes ∧ (storeFrameStart l n s).sel = s.sel ∧
    (storeFrameStart l n s).snd = s.snd ∧ (storeFrameStart l n s).home = s.home ∧
    (storeFrameStart l n s).pins = s.pins ∧ (storeFrameStart l n s).cues = s.cues ∧
    (storeFrameStart l n s).xfer = s.xfer ∧ (storeFrameStart l n s).ctl = s.ctl := by
  simp [storeFrameStart]

@[simp] theorem markReadable_frame (q : W32) :
    (markReadable q s).pending = s.pending ∧ (markReadable q s).dram = s.dram ∧ (markReadable q s).epIn = s.epIn ∧
    (markReadable q s).port = s.port ∧ (markReadable q s).ins = s.ins ∧ (markReadable q s).aps = s.aps ∧
    (markReadable q s).clock = s.clock ∧ (markReadable q s).lanes = s.lanes ∧ (markReadable q s).sel = s.sel ∧
    (markReadable q s).snd = s.snd ∧ (markReadable q s).home = s.home ∧ (markReadable q s).pins = s.pins ∧
    (markReadable q s).log = s.log ∧ (markReadable q s).cues = s.cues ∧ (markReadable q s).xfer = s.xfer ∧
    (markReadable q s).ctl = s.ctl := by
  simp [markReadable]

/-! ## Clip log (R138 to R149) -/

@[simp] theorem sendTag_frame (i : Fin 256) (e : TagEvent) :
    (sendTag i e s).pending = s.pending ∧ (sendTag i e s).dram = s.dram ∧ (sendTag i e s).epIn = s.epIn ∧
    (sendTag i e s).port = s.port ∧ (sendTag i e s).aps = s.aps ∧ (sendTag i e s).clock = s.clock ∧
    (sendTag i e s).lanes = s.lanes ∧ (sendTag i e s).sel = s.sel ∧ (sendTag i e s).snd = s.snd ∧
    (sendTag i e s).store = s.store ∧ (sendTag i e s).pins = s.pins ∧ (sendTag i e s).log = s.log ∧
    (sendTag i e s).cues = s.cues ∧ (sendTag i e s).xfer = s.xfer := by
  simp [sendTag]

@[simp] theorem closeClip_frame (i : Fin 256) (n : W32) (tc : Nat) (o : Origin) :
    (closeClip i n tc o s).pending = s.pending ∧ (closeClip i n tc o s).dram = s.dram ∧
    (closeClip i n tc o s).epIn = s.epIn ∧ (closeClip i n tc o s).port = s.port ∧ (closeClip i n tc o s).aps = s.aps ∧
    (closeClip i n tc o s).clock = s.clock ∧ (closeClip i n tc o s).lanes = s.lanes ∧ (closeClip i n tc o s).sel = s.sel ∧
    (closeClip i n tc o s).snd = s.snd ∧ (closeClip i n tc o s).store = s.store ∧ (closeClip i n tc o s).pins = s.pins ∧
    (closeClip i n tc o s).cues = s.cues ∧ (closeClip i n tc o s).xfer = s.xfer := by
  simp [closeClip]

@[simp] theorem markIn_frame (src : Fin 4) (g : W32) (c p : Nat) (o : Origin) :
    (markIn src g c p o s).1.pending = s.pending ∧ (markIn src g c p o s).1.dram = s.dram ∧
    (markIn src g c p o s).1.epIn = s.epIn ∧ (markIn src g c p o s).1.port = s.port ∧
    (markIn src g c p o s).1.aps = s.aps ∧ (markIn src g c p o s).1.clock = s.clock ∧
    (markIn src g c p o s).1.lanes = s.lanes ∧ (markIn src g c p o s).1.sel = s.sel ∧
    (markIn src g c p o s).1.snd = s.snd ∧ (markIn src g c p o s).1.store = s.store ∧
    (markIn src g c p o s).1.pins = s.pins ∧ (markIn src g c p o s).1.cues = s.cues ∧
    (markIn src g c p o s).1.xfer = s.xfer := by
  simp only [markIn]
  (repeat' split) <;> simp

@[simp] theorem markOut_frame (src : Fin 4) (g : W32) (c : Nat) (o : Origin) :
    (markOut src g c o s).1.pending = s.pending ∧ (markOut src g c o s).1.dram = s.dram ∧
    (markOut src g c o s).1.epIn = s.epIn ∧ (markOut src g c o s).1.port = s.port ∧
    (markOut src g c o s).1.aps = s.aps ∧ (markOut src g c o s).1.clock = s.clock ∧
    (markOut src g c o s).1.lanes = s.lanes ∧ (markOut src g c o s).1.sel = s.sel ∧
    (markOut src g c o s).1.snd = s.snd ∧ (markOut src g c o s).1.store = s.store ∧
    (markOut src g c o s).1.pins = s.pins ∧ (markOut src g c o s).1.cues = s.cues ∧
    (markOut src g c o s).1.xfer = s.xfer := by
  simp only [markOut]
  (repeat' split) <;> simp

@[simp] theorem addLabel_frame (i : Fin 256) (k : W16) :
    (addLabel i k s).1.pending = s.pending ∧ (addLabel i k s).1.dram = s.dram ∧ (addLabel i k s).1.epIn = s.epIn ∧
    (addLabel i k s).1.port = s.port ∧ (addLabel i k s).1.aps = s.aps ∧ (addLabel i k s).1.clock = s.clock ∧
    (addLabel i k s).1.lanes = s.lanes ∧ (addLabel i k s).1.sel = s.sel ∧ (addLabel i k s).1.snd = s.snd ∧
    (addLabel i k s).1.store = s.store ∧ (addLabel i k s).1.pins = s.pins ∧ (addLabel i k s).1.cues = s.cues ∧
    (addLabel i k s).1.xfer = s.xfer := by
  simp only [addLabel]
  (repeat' split) <;> simp

@[simp] theorem markLabel_frame (src : Fin 4) (k : W16) (o : Origin) :
    (markLabel src k o s).1.pending = s.pending ∧ (markLabel src k o s).1.dram = s.dram ∧
    (markLabel src k o s).1.epIn = s.epIn ∧ (markLabel src k o s).1.port = s.port ∧
    (markLabel src k o s).1.aps = s.aps ∧ (markLabel src k o s).1.clock = s.clock ∧
    (markLabel src k o s).1.lanes = s.lanes ∧ (markLabel src k o s).1.sel = s.sel ∧
    (markLabel src k o s).1.snd = s.snd ∧ (markLabel src k o s).1.store = s.store ∧
    (markLabel src k o s).1.pins = s.pins ∧ (markLabel src k o s).1.cues = s.cues ∧
    (markLabel src k o s).1.xfer = s.xfer := by
  simp only [markLabel]
  (repeat' split) <;> simp

@[simp] theorem markArrival_frame (a : MarkAction) (src : Fin 4) (k : W16) (g : W32) (c p : Nat) (o : Origin) :
    (markArrival a src k g c p o s).1.pending = s.pending ∧ (markArrival a src k g c p o s).1.dram = s.dram ∧
    (markArrival a src k g c p o s).1.epIn = s.epIn ∧ (markArrival a src k g c p o s).1.port = s.port ∧
    (markArrival a src k g c p o s).1.aps = s.aps ∧ (markArrival a src k g c p o s).1.clock = s.clock ∧
    (markArrival a src k g c p o s).1.lanes = s.lanes ∧ (markArrival a src k g c p o s).1.sel = s.sel ∧
    (markArrival a src k g c p o s).1.snd = s.snd ∧ (markArrival a src k g c p o s).1.store = s.store ∧
    (markArrival a src k g c p o s).1.pins = s.pins ∧ (markArrival a src k g c p o s).1.cues = s.cues ∧
    (markArrival a src k g c p o s).1.xfer = s.xfer := by
  simp only [markArrival]
  (repeat' split) <;> simp

@[simp] theorem reportDamage_frame (l : Fin 4) :
    (reportDamage l s).pending = s.pending ∧ (reportDamage l s).dram = s.dram ∧ (reportDamage l s).epIn = s.epIn ∧
    (reportDamage l s).port = s.port ∧ (reportDamage l s).aps = s.aps ∧ (reportDamage l s).clock = s.clock ∧
    (reportDamage l s).lanes = s.lanes ∧ (reportDamage l s).sel = s.sel ∧ (reportDamage l s).snd = s.snd ∧
    (reportDamage l s).home = s.home ∧ (reportDamage l s).store = s.store ∧ (reportDamage l s).pins = s.pins ∧
    (reportDamage l s).cues = s.cues ∧ (reportDamage l s).xfer = s.xfer ∧ (reportDamage l s).ctl = s.ctl := by
  simp only [reportDamage]
  (repeat' split) <;> simp

@[simp] theorem addTallies_frame :
    (addTallies s).pending = s.pending ∧ (addTallies s).dram = s.dram ∧ (addTallies s).epIn = s.epIn ∧
    (addTallies s).port = s.port ∧ (addTallies s).aps = s.aps ∧ (addTallies s).clock = s.clock ∧
    (addTallies s).lanes = s.lanes ∧ (addTallies s).sel = s.sel ∧ (addTallies s).snd = s.snd ∧
    (addTallies s).home = s.home ∧ (addTallies s).store = s.store ∧ (addTallies s).pins = s.pins ∧
    (addTallies s).cues = s.cues ∧ (addTallies s).xfer = s.xfer ∧ (addTallies s).ctl = s.ctl := by
  simp [addTallies]

/-! ## Transfer engine (R164 to R170), consumption (R107 to R109) -/

@[simp] theorem skipUnits_frame (k : Nat) :
    (skipUnits k s).pending = s.pending ∧ (skipUnits k s).dram = s.dram ∧ (skipUnits k s).epIn = s.epIn ∧
    (skipUnits k s).port = s.port ∧ (skipUnits k s).ins = s.ins ∧ (skipUnits k s).aps = s.aps ∧
    (skipUnits k s).clock = s.clock ∧ (skipUnits k s).lanes = s.lanes ∧ (skipUnits k s).sel = s.sel ∧
    (skipUnits k s).snd = s.snd ∧ (skipUnits k s).home = s.home ∧ (skipUnits k s).store = s.store ∧
    (skipUnits k s).pins = s.pins ∧ (skipUnits k s).log = s.log ∧ (skipUnits k s).cues = s.cues ∧
    (skipUnits k s).ctl = s.ctl := by
  induction k generalizing s with
  | zero => simp [skipUnits]
  | succ k ih =>
    simp only [skipUnits]
    (repeat' split) <;> simp [ih]

@[simp] theorem activate_frame :
    (activate s).pending = s.pending ∧ (activate s).dram = s.dram ∧ (activate s).epIn = s.epIn ∧
    (activate s).port = s.port ∧ (activate s).ins = s.ins ∧ (activate s).aps = s.aps ∧ (activate s).clock = s.clock ∧
    (activate s).lanes = s.lanes ∧ (activate s).sel = s.sel ∧ (activate s).snd = s.snd ∧ (activate s).home = s.home ∧
    (activate s).store = s.store ∧ (activate s).pins = s.pins ∧ (activate s).log = s.log ∧
    (activate s).cues = s.cues ∧ (activate s).ctl = s.ctl := by
  simp only [activate]
  (repeat' split) <;> simp

@[simp] theorem complete_frame :
    (complete s).pending = s.pending ∧ (complete s).dram = s.dram ∧ (complete s).epIn = s.epIn ∧
    (complete s).port = s.port ∧ (complete s).aps = s.aps ∧ (complete s).clock = s.clock ∧
    (complete s).lanes = s.lanes ∧ (complete s).sel = s.sel ∧ (complete s).snd = s.snd ∧ (complete s).home = s.home ∧
    (complete s).store = s.store ∧ (complete s).pins = s.pins ∧ (complete s).cues = s.cues := by
  simp only [complete]
  (repeat' split) <;> simp

@[simp] theorem deal_frame (k : Nat) :
    (deal k s).pending = s.pending ∧ (deal k s).dram = s.dram ∧ (deal k s).epIn = s.epIn ∧ (deal k s).port = s.port ∧
    (deal k s).aps = s.aps ∧ (deal k s).clock = s.clock ∧ (deal k s).lanes = s.lanes ∧ (deal k s).sel = s.sel ∧
    (deal k s).snd = s.snd ∧ (deal k s).home = s.home ∧ (deal k s).store = s.store ∧ (deal k s).pins = s.pins ∧
    (deal k s).cues = s.cues := by
  induction k generalizing s with
  | zero => simp [deal]
  | succ k ih =>
    simp only [deal]
    (repeat' split) <;> simp [ih]

@[simp] theorem goOn_frame :
    (goOn s).pending = s.pending ∧ (goOn s).dram = s.dram ∧ (goOn s).epIn = s.epIn ∧ (goOn s).port = s.port ∧
    (goOn s).aps = s.aps ∧ (goOn s).clock = s.clock ∧ (goOn s).lanes = s.lanes ∧ (goOn s).sel = s.sel ∧
    (goOn s).snd = s.snd ∧ (goOn s).home = s.home ∧ (goOn s).store = s.store ∧ (goOn s).pins = s.pins ∧
    (goOn s).cues = s.cues := by
  simp [goOn]

@[simp] theorem startHead_frame :
    (startHead s).pending = s.pending ∧ (startHead s).dram = s.dram ∧ (startHead s).epIn = s.epIn ∧
    (startHead s).port = s.port ∧ (startHead s).aps = s.aps ∧ (startHead s).clock = s.clock ∧
    (startHead s).lanes = s.lanes ∧ (startHead s).sel = s.sel ∧ (startHead s).snd = s.snd ∧
    (startHead s).home = s.home ∧ (startHead s).store = s.store ∧ (startHead s).pins = s.pins ∧
    (startHead s).cues = s.cues := by
  simp [startHead]

@[simp] theorem advanceCursor_frame :
    (advanceCursor s).pending = s.pending ∧ (advanceCursor s).dram = s.dram ∧ (advanceCursor s).epIn = s.epIn ∧
    (advanceCursor s).port = s.port ∧ (advanceCursor s).aps = s.aps ∧ (advanceCursor s).clock = s.clock ∧
    (advanceCursor s).lanes = s.lanes ∧ (advanceCursor s).sel = s.sel ∧ (advanceCursor s).snd = s.snd ∧
    (advanceCursor s).home = s.home ∧ (advanceCursor s).store = s.store ∧ (advanceCursor s).pins = s.pins ∧
    (advanceCursor s).cues = s.cues := by
  simp [advanceCursor]

@[simp] theorem toldPlaced_frame :
    (toldPlaced s).pending = s.pending ∧ (toldPlaced s).dram = s.dram ∧ (toldPlaced s).epIn = s.epIn ∧
    (toldPlaced s).port = s.port ∧ (toldPlaced s).aps = s.aps ∧ (toldPlaced s).clock = s.clock ∧
    (toldPlaced s).lanes = s.lanes ∧ (toldPlaced s).sel = s.sel ∧ (toldPlaced s).snd = s.snd ∧
    (toldPlaced s).home = s.home ∧ (toldPlaced s).store = s.store ∧ (toldPlaced s).pins = s.pins ∧
    (toldPlaced s).cues = s.cues := by
  simp [toldPlaced]

@[simp] theorem offerToPath_frame (p : Fin 2) (u : MUnit) :
    (offerToPath p u s).pending = s.pending ∧ (offerToPath p u s).dram = s.dram ∧ (offerToPath p u s).epIn = s.epIn ∧
    (offerToPath p u s).port = s.port ∧ (offerToPath p u s).aps = s.aps ∧ (offerToPath p u s).clock = s.clock ∧
    (offerToPath p u s).lanes = s.lanes ∧ (offerToPath p u s).sel = s.sel ∧ (offerToPath p u s).snd = s.snd ∧
    (offerToPath p u s).store = s.store ∧ (offerToPath p u s).pins = s.pins ∧ (offerToPath p u s).cues = s.cues := by
  simp only [offerToPath]
  (repeat' split) <;> simp

@[simp] theorem reexamine_frame (p : Fin 2) :
    (reexamine p s).pending = s.pending ∧ (reexamine p s).dram = s.dram ∧ (reexamine p s).epIn = s.epIn ∧
    (reexamine p s).port = s.port ∧ (reexamine p s).aps = s.aps ∧ (reexamine p s).clock = s.clock ∧
    (reexamine p s).lanes = s.lanes ∧ (reexamine p s).sel = s.sel ∧ (reexamine p s).snd = s.snd ∧
    (reexamine p s).store = s.store ∧ (reexamine p s).pins = s.pins ∧ (reexamine p s).cues = s.cues := by
  simp only [reexamine]
  (repeat' split) <;> simp

@[simp] theorem letGo_frame :
    (letGo s).pending = s.pending ∧ (letGo s).dram = s.dram ∧ (letGo s).epIn = s.epIn ∧ (letGo s).port = s.port ∧
    (letGo s).aps = s.aps ∧ (letGo s).clock = s.clock ∧ (letGo s).lanes = s.lanes ∧ (letGo s).sel = s.sel ∧
    (letGo s).snd = s.snd ∧ (letGo s).store = s.store ∧ (letGo s).pins = s.pins ∧ (letGo s).log = s.log ∧
    (letGo s).cues = s.cues ∧ (letGo s).ctl = s.ctl := by
  simp only [letGo]
  (repeat' split) <;> simp

@[simp] theorem restorePrior_frame (n : Nat) :
    (restorePrior n s).pending = s.pending ∧ (restorePrior n s).dram = s.dram ∧ (restorePrior n s).epIn = s.epIn ∧
    (restorePrior n s).port = s.port ∧ (restorePrior n s).aps = s.aps ∧ (restorePrior n s).clock = s.clock ∧
    (restorePrior n s).lanes = s.lanes ∧ (restorePrior n s).sel = s.sel ∧ (restorePrior n s).snd = s.snd ∧
    (restorePrior n s).home = s.home ∧ (restorePrior n s).store = s.store ∧ (restorePrior n s).pins = s.pins ∧
    (restorePrior n s).cues = s.cues ∧ (restorePrior n s).xfer = s.xfer ∧ (restorePrior n s).ctl = s.ctl := by
  simp only [restorePrior]
  (repeat' split) <;> simp

@[simp] theorem raiseEnded_frame (r : EndReason) (e : Send) (a b : Nat) :
    (raiseEnded r e a b s).pending = s.pending ∧ (raiseEnded r e a b s).dram = s.dram ∧
    (raiseEnded r e a b s).epIn = s.epIn ∧ (raiseEnded r e a b s).port = s.port ∧ (raiseEnded r e a b s).aps = s.aps ∧
    (raiseEnded r e a b s).clock = s.clock ∧ (raiseEnded r e a b s).lanes = s.lanes ∧
    (raiseEnded r e a b s).sel = s.sel ∧ (raiseEnded r e a b s).snd = s.snd ∧ (raiseEnded r e a b s).home = s.home ∧
    (raiseEnded r e a b s).store = s.store ∧ (raiseEnded r e a b s).pins = s.pins ∧
    (raiseEnded r e a b s).log = s.log ∧ (raiseEnded r e a b s).cues = s.cues ∧
    (raiseEnded r e a b s).xfer = s.xfer := by
  simp [raiseEnded]

@[simp] theorem endEntry_frame (r : EndReason) (l : Bool) (a b : Nat) (e : Send) :
    (endEntry r l a b e s).pending = s.pending ∧ (endEntry r l a b e s).dram = s.dram ∧
    (endEntry r l a b e s).epIn = s.epIn ∧ (endEntry r l a b e s).port = s.port ∧ (endEntry r l a b e s).aps = s.aps ∧
    (endEntry r l a b e s).clock = s.clock ∧ (endEntry r l a b e s).lanes = s.lanes ∧
    (endEntry r l a b e s).sel = s.sel ∧ (endEntry r l a b e s).snd = s.snd ∧ (endEntry r l a b e s).home = s.home ∧
    (endEntry r l a b e s).store = s.store ∧ (endEntry r l a b e s).pins = s.pins ∧
    (endEntry r l a b e s).cues = s.cues ∧ (endEntry r l a b e s).xfer = s.xfer := by
  simp only [endEntry]
  (repeat' split) <;> simp

@[simp] theorem endEntries_frame (r : EndReason) (l : Bool) (w : Send → Bool) :
    (endEntries r l w s).pending = s.pending ∧ (endEntries r l w s).dram = s.dram ∧
    (endEntries r l w s).epIn = s.epIn ∧ (endEntries r l w s).port = s.port ∧ (endEntries r l w s).aps = s.aps ∧
    (endEntries r l w s).clock = s.clock ∧ (endEntries r l w s).lanes = s.lanes ∧ (endEntries r l w s).sel = s.sel ∧
    (endEntries r l w s).snd = s.snd ∧ (endEntries r l w s).store = s.store ∧ (endEntries r l w s).pins = s.pins ∧
    (endEntries r l w s).cues = s.cues := by
  simp only [endEntries]
  (repeat' split) <;> simp

@[simp] theorem tryTags_frame (p : Fin 2) (l : List MUnit) :
    (tryTags p l s).pending = s.pending ∧ (tryTags p l s).dram = s.dram ∧ (tryTags p l s).epIn = s.epIn ∧
    (tryTags p l s).port = s.port ∧ (tryTags p l s).aps = s.aps ∧ (tryTags p l s).clock = s.clock ∧
    (tryTags p l s).lanes = s.lanes ∧ (tryTags p l s).sel = s.sel ∧ (tryTags p l s).snd = s.snd ∧
    (tryTags p l s).store = s.store ∧ (tryTags p l s).pins = s.pins ∧ (tryTags p l s).log = s.log ∧
    (tryTags p l s).cues = s.cues ∧ (tryTags p l s).xfer = s.xfer := by
  induction l generalizing s with
  | nil => simp [tryTags]
  | cons u l ih =>
    simp only [tryTags]
    split <;> simp [ih]

@[simp] theorem afterConsumption_frame (p : Fin 2) :
    (afterConsumption p s).pending = s.pending ∧ (afterConsumption p s).dram = s.dram ∧
    (afterConsumption p s).epIn = s.epIn ∧ (afterConsumption p s).port = s.port ∧ (afterConsumption p s).aps = s.aps ∧
    (afterConsumption p s).clock = s.clock ∧ (afterConsumption p s).lanes = s.lanes ∧
    (afterConsumption p s).sel = s.sel ∧ (afterConsumption p s).snd = s.snd ∧ (afterConsumption p s).store = s.store ∧
    (afterConsumption p s).pins = s.pins ∧ (afterConsumption p s).cues = s.cues := by
  simp only [afterConsumption]
  (repeat' split) <;> simp

@[simp] theorem handConsumerRead_frame (p : Fin 2) (o n : Nat) :
    (handConsumerRead p o n s).pending = s.pending ∧ (handConsumerRead p o n s).dram = s.dram ∧
    (handConsumerRead p o n s).epIn = s.epIn ∧ (handConsumerRead p o n s).port = s.port ∧
    (handConsumerRead p o n s).aps = s.aps ∧ (handConsumerRead p o n s).clock = s.clock ∧
    (handConsumerRead p o n s).lanes = s.lanes ∧ (handConsumerRead p o n s).sel = s.sel ∧
    (handConsumerRead p o n s).snd = s.snd ∧ (handConsumerRead p o n s).store = s.store ∧
    (handConsumerRead p o n s).pins = s.pins ∧ (handConsumerRead p o n s).cues = s.cues := by
  simp only [handConsumerRead]
  (repeat' split) <;> simp

@[simp] theorem issueReads_frame :
    (issueReads s).pending = s.pending ∧ (issueReads s).dram = s.dram ∧ (issueReads s).epIn = s.epIn ∧
    (issueReads s).port = s.port ∧ (issueReads s).aps = s.aps ∧ (issueReads s).clock = s.clock ∧
    (issueReads s).lanes = s.lanes ∧ (issueReads s).sel = s.sel ∧ (issueReads s).snd = s.snd ∧
    (issueReads s).home = s.home ∧ (issueReads s).store = s.store ∧ (issueReads s).pins = s.pins ∧
    (issueReads s).log = s.log ∧ (issueReads s).cues = s.cues ∧ (issueReads s).ctl = s.ctl := by
  simp only [issueReads]
  (repeat' split) <;> simp

@[simp] theorem storeReadData_frame (t : Nat) (d : List Byte) :
    (storeReadData t d s).pending = s.pending ∧ (storeReadData t d s).dram = s.dram ∧
    (storeReadData t d s).epIn = s.epIn ∧ (storeReadData t d s).port = s.port ∧ (storeReadData t d s).aps = s.aps ∧
    (storeReadData t d s).clock = s.clock ∧ (storeReadData t d s).lanes = s.lanes ∧
    (storeReadData t d s).sel = s.sel ∧ (storeReadData t d s).snd = s.snd ∧ (storeReadData t d s).store = s.store ∧
    (storeReadData t d s).pins = s.pins ∧ (storeReadData t d s).cues = s.cues := by
  simp only [storeReadData]
  (repeat' split) <;> simp

/-! ## Picture lanes and the selector (R33 to R65) -/

@[simp] theorem completeSwitch_frame (l : Fin 4) (n : W32) :
    (completeSwitch l n s).pending = s.pending ∧ (completeSwitch l n s).dram = s.dram ∧
    (completeSwitch l n s).epIn = s.epIn ∧ (completeSwitch l n s).port = s.port ∧ (completeSwitch l n s).aps = s.aps ∧
    (completeSwitch l n s).clock = s.clock ∧ (completeSwitch l n s).lanes = s.lanes ∧
    (completeSwitch l n s).snd = s.snd ∧ (completeSwitch l n s).home = s.home ∧
    (completeSwitch l n s).store = s.store ∧ (completeSwitch l n s).pins = s.pins ∧
    (completeSwitch l n s).log = s.log ∧ (completeSwitch l n s).cues = s.cues ∧
    (completeSwitch l n s).xfer = s.xfer := by
  simp only [completeSwitch]
  (repeat' split) <;> simp

@[simp] theorem dropFromSelector_frame (l : Fin 4) :
    (dropFromSelector l s).pending = s.pending ∧ (dropFromSelector l s).dram = s.dram ∧
    (dropFromSelector l s).epIn = s.epIn ∧ (dropFromSelector l s).port = s.port ∧ (dropFromSelector l s).aps = s.aps ∧
    (dropFromSelector l s).clock = s.clock ∧ (dropFromSelector l s).lanes = s.lanes ∧
    (dropFromSelector l s).snd = s.snd ∧ (dropFromSelector l s).home = s.home ∧
    (dropFromSelector l s).store = s.store ∧ (dropFromSelector l s).pins = s.pins ∧
    (dropFromSelector l s).log = s.log ∧ (dropFromSelector l s).cues = s.cues ∧
    (dropFromSelector l s).xfer = s.xfer := by
  simp only [dropFromSelector]
  (repeat' split) <;> simp

@[simp] theorem chargeRow_frame (l : Fin 4) (c : Nat) :
    (chargeRow l c s).pending = s.pending ∧ (chargeRow l c s).dram = s.dram ∧ (chargeRow l c s).epIn = s.epIn ∧
    (chargeRow l c s).port = s.port ∧ (chargeRow l c s).ins = s.ins ∧ (chargeRow l c s).aps = s.aps ∧
    (chargeRow l c s).clock = s.clock ∧ (chargeRow l c s).sel = s.sel ∧ (chargeRow l c s).snd = s.snd ∧
    (chargeRow l c s).home = s.home ∧ (chargeRow l c s).store = s.store ∧ (chargeRow l c s).pins = s.pins ∧
    (chargeRow l c s).log = s.log ∧ (chargeRow l c s).cues = s.cues ∧ (chargeRow l c s).xfer = s.xfer ∧
    (chargeRow l c s).ctl = s.ctl := by
  simp [chargeRow]

@[simp] theorem offerRow_frame (l : Fin 4) (u : MUnit) :
    (offerRow l u s).pending = s.pending ∧ (offerRow l u s).dram = s.dram ∧ (offerRow l u s).epIn = s.epIn ∧
    (offerRow l u s).port = s.port ∧ (offerRow l u s).aps = s.aps ∧ (offerRow l u s).clock = s.clock ∧
    (offerRow l u s).lanes = s.lanes ∧ (offerRow l u s).sel = s.sel ∧ (offerRow l u s).snd = s.snd ∧
    (offerRow l u s).pins = s.pins ∧ (offerRow l u s).cues = s.cues ∧ (offerRow l u s).xfer = s.xfer := by
  simp only [offerRow]
  (repeat' split) <;> simp

@[simp] theorem rowComplete_frame (l : Fin 4) (j : Nat) (r : List Byte) :
    (rowComplete l j r s).pending = s.pending ∧ (rowComplete l j r s).dram = s.dram ∧
    (rowComplete l j r s).epIn = s.epIn ∧ (rowComplete l j r s).port = s.port ∧ (rowComplete l j r s).aps = s.aps ∧
    (rowComplete l j r s).clock = s.clock ∧ (rowComplete l j r s).sel = s.sel ∧ (rowComplete l j r s).snd = s.snd ∧
    (rowComplete l j r s).pins = s.pins ∧ (rowComplete l j r s).cues = s.cues ∧
    (rowComplete l j r s).xfer = s.xfer := by
  simp [rowComplete]

@[simp] theorem feedRows_frame (l : Fin 4) (k : Nat) (d : List Byte) :
    (feedRows l k d s).pending = s.pending ∧ (feedRows l k d s).dram = s.dram ∧ (feedRows l k d s).epIn = s.epIn ∧
    (feedRows l k d s).port = s.port ∧ (feedRows l k d s).aps = s.aps ∧ (feedRows l k d s).clock = s.clock ∧
    (feedRows l k d s).sel = s.sel ∧ (feedRows l k d s).snd = s.snd ∧ (feedRows l k d s).pins = s.pins ∧
    (feedRows l k d s).cues = s.cues ∧ (feedRows l k d s).xfer = s.xfer := by
  induction k generalizing d s with
  | zero => simp [feedRows]
  | succ k ih =>
    simp only [feedRows]
    (repeat' split) <;> simp [ih]

@[simp] theorem frameStart_frame (l : Fin 4) (j o : Nat) (d : List Byte) :
    (frameStart l j o d s).pending = s.pending ∧ (frameStart l j o d s).dram = s.dram ∧
    (frameStart l j o d s).epIn = s.epIn ∧ (frameStart l j o d s).port = s.port ∧ (frameStart l j o d s).aps = s.aps ∧
    (frameStart l j o d s).clock = s.clock ∧ (frameStart l j o d s).snd = s.snd ∧
    (frameStart l j o d s).pins = s.pins ∧ (frameStart l j o d s).cues = s.cues ∧
    (frameStart l j o d s).xfer = s.xfer := by
  simp [frameStart]

@[simp] theorem raiseSkew_frame (l : Fin 4) (r : SkewReason) (a b c : Nat) :
    (raiseSkew l r a b c s).pending = s.pending ∧ (raiseSkew l r a b c s).dram = s.dram ∧
    (raiseSkew l r a b c s).epIn = s.epIn ∧ (raiseSkew l r a b c s).port = s.port ∧
    (raiseSkew l r a b c s).aps = s.aps ∧ (raiseSkew l r a b c s).clock = s.clock ∧
    (raiseSkew l r a b c s).lanes = s.lanes ∧ (raiseSkew l r a b c s).sel = s.sel ∧
    (raiseSkew l r a b c s).snd = s.snd ∧ (raiseSkew l r a b c s).home = s.home ∧
    (raiseSkew l r a b c s).store = s.store ∧ (raiseSkew l r a b c s).pins = s.pins ∧
    (raiseSkew l r a b c s).log = s.log ∧ (raiseSkew l r a b c s).cues = s.cues ∧
    (raiseSkew l r a b c s).xfer = s.xfer := by
  simp [raiseSkew]

@[simp] theorem abandon_frame (l : Fin 4) (r : SkewReason) (a b c : Nat) :
    (abandon l r a b c s).pending = s.pending ∧ (abandon l r a b c s).dram = s.dram ∧
    (abandon l r a b c s).epIn = s.epIn ∧ (abandon l r a b c s).port = s.port ∧ (abandon l r a b c s).aps = s.aps ∧
    (abandon l r a b c s).clock = s.clock ∧ (abandon l r a b c s).sel = s.sel ∧ (abandon l r a b c s).snd = s.snd ∧
    (abandon l r a b c s).home = s.home ∧ (abandon l r a b c s).store = s.store ∧
    (abandon l r a b c s).pins = s.pins ∧ (abandon l r a b c s).cues = s.cues ∧
    (abandon l r a b c s).xfer = s.xfer := by
  simp [abandon]

@[simp] theorem takePicture_frame (l : Fin 4) (o : Nat) (d : List Byte) :
    (takePicture l o d s).pending = s.pending ∧ (takePicture l o d s).dram = s.dram ∧
    (takePicture l o d s).epIn = s.epIn ∧ (takePicture l o d s).port = s.port ∧ (takePicture l o d s).aps = s.aps ∧
    (takePicture l o d s).clock = s.clock ∧ (takePicture l o d s).snd = s.snd ∧ (takePicture l o d s).pins = s.pins ∧
    (takePicture l o d s).cues = s.cues ∧ (takePicture l o d s).xfer = s.xfer := by
  simp only [takePicture]
  (repeat' split) <;> simp

/-! ## Sound (R73 to R92) -/

@[simp] theorem takeSound_frame (i : Fin 4) (o : Nat) (d : List Byte) :
    (takeSound i o d s).pending = s.pending ∧ (takeSound i o d s).dram = s.dram ∧ (takeSound i o d s).epIn = s.epIn ∧
    (takeSound i o d s).port = s.port ∧ (takeSound i o d s).ins = s.ins ∧ (takeSound i o d s).aps = s.aps ∧
    (takeSound i o d s).clock = s.clock ∧ (takeSound i o d s).lanes = s.lanes ∧ (takeSound i o d s).sel = s.sel ∧
    (takeSound i o d s).home = s.home ∧ (takeSound i o d s).store = s.store ∧ (takeSound i o d s).pins = s.pins ∧
    (takeSound i o d s).log = s.log ∧ (takeSound i o d s).cues = s.cues ∧ (takeSound i o d s).xfer = s.xfer ∧
    (takeSound i o d s).ctl = s.ctl := by
  simp [takeSound]

@[simp] theorem settleInput_frame (i : Fin 4) :
    (settleInput i s).pending = s.pending ∧ (settleInput i s).dram = s.dram ∧ (settleInput i s).epIn = s.epIn ∧
    (settleInput i s).port = s.port ∧ (settleInput i s).aps = s.aps ∧ (settleInput i s).clock = s.clock ∧
    (settleInput i s).lanes = s.lanes ∧ (settleInput i s).sel = s.sel ∧ (settleInput i s).home = s.home ∧
    (settleInput i s).store = s.store ∧ (settleInput i s).pins = s.pins ∧ (settleInput i s).log = s.log ∧
    (settleInput i s).cues = s.cues ∧ (settleInput i s).xfer = s.xfer := by
  simp only [settleInput]
  (repeat' split) <;> simp

@[simp] theorem settleBus_frame (n : Nat) (b : Fin 8) :
    (settleBus n b s).pending = s.pending ∧ (settleBus n b s).dram = s.dram ∧ (settleBus n b s).epIn = s.epIn ∧
    (settleBus n b s).port = s.port ∧ (settleBus n b s).aps = s.aps ∧ (settleBus n b s).clock = s.clock ∧
    (settleBus n b s).lanes = s.lanes ∧ (settleBus n b s).sel = s.sel ∧ (settleBus n b s).home = s.home ∧
    (settleBus n b s).store = s.store ∧ (settleBus n b s).pins = s.pins ∧ (settleBus n b s).log = s.log ∧
    (settleBus n b s).cues = s.cues ∧ (settleBus n b s).xfer = s.xfer := by
  simp only [settleBus]
  (repeat' split) <;> simp

@[simp] theorem monitorWrite_frame (o : List Int) :
    (monitorWrite o s).pending = s.pending ∧ (monitorWrite o s).dram = s.dram ∧ (monitorWrite o s).epIn = s.epIn ∧
    (monitorWrite o s).port = s.port ∧ (monitorWrite o s).aps = s.aps ∧ (monitorWrite o s).clock = s.clock ∧
    (monitorWrite o s).lanes = s.lanes ∧ (monitorWrite o s).sel = s.sel ∧ (monitorWrite o s).home = s.home ∧
    (monitorWrite o s).store = s.store ∧ (monitorWrite o s).pins = s.pins ∧ (monitorWrite o s).log = s.log ∧
    (monitorWrite o s).cues = s.cues ∧ (monitorWrite o s).xfer = s.xfer ∧ (monitorWrite o s).ctl = s.ctl := by
  simp only [monitorWrite]
  (repeat' split) <;> simp

@[simp] theorem offerSound_frame (u : MUnit) (n : W32) :
    (offerSound u n s).pending = s.pending ∧ (offerSound u n s).dram = s.dram ∧ (offerSound u n s).epIn = s.epIn ∧
    (offerSound u n s).port = s.port ∧ (offerSound u n s).aps = s.aps ∧ (offerSound u n s).clock = s.clock ∧
    (offerSound u n s).lanes = s.lanes ∧ (offerSound u n s).sel = s.sel ∧ (offerSound u n s).snd = s.snd ∧
    (offerSound u n s).pins = s.pins ∧ (offerSound u n s).cues = s.cues ∧ (offerSound u n s).xfer = s.xfer := by
  simp only [offerSound]
  (repeat' split) <;> simp

@[simp] theorem closeUnit_frame (a : Accumulator) (r : Bool) :
    (closeUnit a r s).pending = s.pending ∧ (closeUnit a r s).dram = s.dram ∧ (closeUnit a r s).epIn = s.epIn ∧
    (closeUnit a r s).port = s.port ∧ (closeUnit a r s).aps = s.aps ∧ (closeUnit a r s).clock = s.clock ∧
    (closeUnit a r s).lanes = s.lanes ∧ (closeUnit a r s).sel = s.sel ∧ (closeUnit a r s).pins = s.pins ∧
    (closeUnit a r s).cues = s.cues ∧ (closeUnit a r s).xfer = s.xfer := by
  simp [closeUnit]

@[simp] theorem accumulate_frame (n : Nat) (o : List Int) :
    (accumulate n o s).pending = s.pending ∧ (accumulate n o s).dram = s.dram ∧ (accumulate n o s).epIn = s.epIn ∧
    (accumulate n o s).port = s.port ∧ (accumulate n o s).aps = s.aps ∧ (accumulate n o s).clock = s.clock ∧
    (accumulate n o s).lanes = s.lanes ∧ (accumulate n o s).sel = s.sel ∧ (accumulate n o s).pins = s.pins ∧
    (accumulate n o s).cues = s.cues ∧ (accumulate n o s).xfer = s.xfer := by
  simp only [accumulate]
  (repeat' split) <;> simp

@[simp] theorem mixerTick_frame (n : Nat) (b : Bool) :
    (mixerTick n b s).pending = s.pending ∧ (mixerTick n b s).dram = s.dram ∧ (mixerTick n b s).epIn = s.epIn ∧
    (mixerTick n b s).port = s.port ∧ (mixerTick n b s).aps = s.aps ∧ (mixerTick n b s).clock = s.clock ∧
    (mixerTick n b s).lanes = s.lanes ∧ (mixerTick n b s).sel = s.sel ∧ (mixerTick n b s).pins = s.pins ∧
    (mixerTick n b s).cues = s.cues ∧ (mixerTick n b s).xfer = s.xfer := by
  cases b <;> simp [mixerTick]

/-! ## Station clock, pins, cues (R22 to R24, R133, R154 to R158, R161) -/

@[simp] theorem refPulse_frame :
    (refPulse s).pending = s.pending ∧ (refPulse s).dram = s.dram ∧ (refPulse s).epIn = s.epIn ∧
    (refPulse s).port = s.port ∧ (refPulse s).aps = s.aps ∧ (refPulse s).lanes = s.lanes ∧ (refPulse s).sel = s.sel ∧
    (refPulse s).snd = s.snd ∧ (refPulse s).home = s.home ∧ (refPulse s).store = s.store ∧
    (refPulse s).pins = s.pins ∧ (refPulse s).log = s.log ∧ (refPulse s).cues = s.cues ∧
    (refPulse s).xfer = s.xfer := by
  simp only [refPulse]
  (repeat' split) <;> simp

@[simp] theorem refLossTick_frame :
    (refLossTick s).pending = s.pending ∧ (refLossTick s).dram = s.dram ∧ (refLossTick s).epIn = s.epIn ∧
    (refLossTick s).port = s.port ∧ (refLossTick s).aps = s.aps ∧ (refLossTick s).lanes = s.lanes ∧
    (refLossTick s).sel = s.sel ∧ (refLossTick s).snd = s.snd ∧ (refLossTick s).home = s.home ∧
    (refLossTick s).store = s.store ∧ (refLossTick s).pins = s.pins ∧ (refLossTick s).log = s.log ∧
    (refLossTick s).cues = s.cues ∧ (refLossTick s).xfer = s.xfer := by
  simp only [refLossTick]
  (repeat' split) <;> simp

@[simp] theorem samplePin_frame (p : Fin 12) :
    (samplePin p s).pending = s.pending ∧ (samplePin p s).dram = s.dram ∧ (samplePin p s).epIn = s.epIn ∧
    (samplePin p s).port = s.port ∧ (samplePin p s).aps = s.aps ∧ (samplePin p s).clock = s.clock ∧
    (samplePin p s).lanes = s.lanes ∧ (samplePin p s).sel = s.sel ∧ (samplePin p s).snd = s.snd ∧
    (samplePin p s).store = s.store ∧ (samplePin p s).cues = s.cues ∧ (samplePin p s).xfer = s.xfer := by
  simp only [samplePin]
  (repeat' split) <;> simp

@[simp] theorem levelWriteAt_frame (m d : BitVec 12) (p : Fin 12) :
    (levelWriteAt m d p s).pending = s.pending ∧ (levelWriteAt m d p s).dram = s.dram ∧
    (levelWriteAt m d p s).epIn = s.epIn ∧ (levelWriteAt m d p s).port = s.port ∧ (levelWriteAt m d p s).ins = s.ins ∧
    (levelWriteAt m d p s).aps = s.aps ∧ (levelWriteAt m d p s).clock = s.clock ∧
    (levelWriteAt m d p s).lanes = s.lanes ∧ (levelWriteAt m d p s).sel = s.sel ∧ (levelWriteAt m d p s).snd = s.snd ∧
    (levelWriteAt m d p s).home = s.home ∧ (levelWriteAt m d p s).store = s.store ∧
    (levelWriteAt m d p s).log = s.log ∧ (levelWriteAt m d p s).cues = s.cues ∧ (levelWriteAt m d p s).xfer = s.xfer ∧
    (levelWriteAt m d p s).ctl = s.ctl := by
  simp [levelWriteAt]

@[simp] theorem levelWrite_frame (m d : BitVec 12) :
    (levelWrite m d s).pending = s.pending ∧ (levelWrite m d s).dram = s.dram ∧ (levelWrite m d s).epIn = s.epIn ∧
    (levelWrite m d s).port = s.port ∧ (levelWrite m d s).ins = s.ins ∧ (levelWrite m d s).aps = s.aps ∧
    (levelWrite m d s).clock = s.clock ∧ (levelWrite m d s).lanes = s.lanes ∧ (levelWrite m d s).sel = s.sel ∧
    (levelWrite m d s).snd = s.snd ∧ (levelWrite m d s).home = s.home ∧ (levelWrite m d s).store = s.store ∧
    (levelWrite m d s).log = s.log ∧ (levelWrite m d s).cues = s.cues ∧ (levelWrite m d s).xfer = s.xfer ∧
    (levelWrite m d s).ctl = s.ctl := by
  simp [levelWrite]

@[simp] theorem cueMark_frame (n : Nat) (a : MarkAction) (i : Fin 4) (k : W16) :
    (cueMark n a i k s).1.pending = s.pending ∧ (cueMark n a i k s).1.dram = s.dram ∧
    (cueMark n a i k s).1.epIn = s.epIn ∧ (cueMark n a i k s).1.port = s.port ∧ (cueMark n a i k s).1.aps = s.aps ∧
    (cueMark n a i k s).1.clock = s.clock ∧ (cueMark n a i k s).1.lanes = s.lanes ∧
    (cueMark n a i k s).1.sel = s.sel ∧ (cueMark n a i k s).1.snd = s.snd ∧ (cueMark n a i k s).1.store = s.store ∧
    (cueMark n a i k s).1.pins = s.pins ∧ (cueMark n a i k s).1.cues = s.cues ∧
    (cueMark n a i k s).1.xfer = s.xfer := by
  simp [cueMark]

@[simp] theorem applyAct_frame (n : Nat) (a : CueAct) :
    (applyAct n a s).1.pending = s.pending ∧ (applyAct n a s).1.dram = s.dram ∧ (applyAct n a s).1.epIn = s.epIn ∧
    (applyAct n a s).1.port = s.port ∧ (applyAct n a s).1.aps = s.aps ∧ (applyAct n a s).1.clock = s.clock ∧
    (applyAct n a s).1.lanes = s.lanes ∧ (applyAct n a s).1.store = s.store ∧ (applyAct n a s).1.cues = s.cues ∧
    (applyAct n a s).1.xfer = s.xfer := by
  cases a <;> simp only [applyAct] <;> (repeat' split) <;> simp

@[simp] theorem applySlots_frame (e : Cue) :
    (applySlots e s).1.pending = s.pending ∧ (applySlots e s).1.dram = s.dram ∧ (applySlots e s).1.epIn = s.epIn ∧
    (applySlots e s).1.port = s.port ∧ (applySlots e s).1.aps = s.aps ∧ (applySlots e s).1.clock = s.clock ∧
    (applySlots e s).1.lanes = s.lanes ∧ (applySlots e s).1.store = s.store ∧ (applySlots e s).1.cues = s.cues ∧
    (applySlots e s).1.xfer = s.xfer := by
  have h : ∀ (l : List (Fin 4)) (r : State × List Nat), ((l.foldl (fun r i => applySlot e i r) r).1).pending = r.1.pending ∧ ((l.foldl (fun r i => applySlot e i r) r).1).dram = r.1.dram ∧ ((l.foldl (fun r i => applySlot e i r) r).1).epIn = r.1.epIn ∧ ((l.foldl (fun r i => applySlot e i r) r).1).port = r.1.port ∧ ((l.foldl (fun r i => applySlot e i r) r).1).aps = r.1.aps ∧ ((l.foldl (fun r i => applySlot e i r) r).1).clock = r.1.clock ∧ ((l.foldl (fun r i => applySlot e i r) r).1).lanes = r.1.lanes ∧ ((l.foldl (fun r i => applySlot e i r) r).1).store = r.1.store ∧ ((l.foldl (fun r i => applySlot e i r) r).1).cues = r.1.cues ∧ ((l.foldl (fun r i => applySlot e i r) r).1).xfer = r.1.xfer := by
    intro l
    induction l with
    | nil => intro r; simp
    | cons i l ih =>
      intro r
      have hi := ih (applySlot e i r)
      simp only [List.foldl_cons]
      simp only [hi]
      simp only [applySlot]
      split <;> simp
  exact h _ (s, [])

@[simp] theorem fireHead_frame :
    (fireHead s).pending = s.pending ∧ (fireHead s).dram = s.dram ∧ (fireHead s).epIn = s.epIn ∧
    (fireHead s).port = s.port ∧ (fireHead s).aps = s.aps ∧ (fireHead s).clock = s.clock ∧
    (fireHead s).lanes = s.lanes ∧ (fireHead s).store = s.store ∧ (fireHead s).xfer = s.xfer := by
  simp only [fireHead]
  (repeat' split) <;> simp

@[simp] theorem fireNext_frame :
    (fireNext s).pending = s.pending ∧ (fireNext s).dram = s.dram ∧ (fireNext s).epIn = s.epIn ∧
    (fireNext s).port = s.port ∧ (fireNext s).aps = s.aps ∧ (fireNext s).clock = s.clock ∧
    (fireNext s).lanes = s.lanes ∧ (fireNext s).store = s.store ∧ (fireNext s).xfer = s.xfer := by
  simp only [fireNext]
  (repeat' split) <;> simp

@[simp] theorem fireDue_frame (k : Nat) :
    (fireDue k s).pending = s.pending ∧ (fireDue k s).dram = s.dram ∧ (fireDue k s).epIn = s.epIn ∧
    (fireDue k s).port = s.port ∧ (fireDue k s).aps = s.aps ∧ (fireDue k s).clock = s.clock ∧
    (fireDue k s).lanes = s.lanes ∧ (fireDue k s).store = s.store ∧ (fireDue k s).xfer = s.xfer := by
  induction k generalizing s with
  | zero => simp [fireDue]
  | succ k ih =>
    simp only [fireDue]
    (repeat' split) <;> simp [ih]

@[simp] theorem rebase_frame :
    (rebase s).pending = s.pending ∧ (rebase s).dram = s.dram ∧ (rebase s).epIn = s.epIn ∧ (rebase s).port = s.port ∧
    (rebase s).aps = s.aps ∧ (rebase s).clock = s.clock ∧ (rebase s).lanes = s.lanes ∧ (rebase s).sel = s.sel ∧
    (rebase s).snd = s.snd ∧ (rebase s).home = s.home ∧ (rebase s).store = s.store ∧ (rebase s).pins = s.pins ∧
    (rebase s).log = s.log ∧ (rebase s).xfer = s.xfer := by
  simp [rebase]

/-! ## Ticks (R16) -/

@[simp] theorem guardReport_frame (n : Fin 16) :
    (guardReport n s).pending = s.pending ∧ (guardReport n s).dram = s.dram ∧ (guardReport n s).epIn = s.epIn ∧
    (guardReport n s).port = s.port ∧ (guardReport n s).clock = s.clock ∧ (guardReport n s).lanes = s.lanes ∧
    (guardReport n s).sel = s.sel ∧ (guardReport n s).snd = s.snd ∧ (guardReport n s).home = s.home ∧
    (guardReport n s).store = s.store ∧ (guardReport n s).pins = s.pins ∧ (guardReport n s).log = s.log ∧
    (guardReport n s).cues = s.cues ∧ (guardReport n s).xfer = s.xfer := by
  simp only [guardReport]
  (repeat' split) <;> simp

@[simp] theorem guardTick_frame :
    (guardTick s).pending = s.pending ∧ (guardTick s).dram = s.dram ∧ (guardTick s).epIn = s.epIn ∧
    (guardTick s).port = s.port ∧ (guardTick s).clock = s.clock ∧ (guardTick s).lanes = s.lanes ∧
    (guardTick s).sel = s.sel ∧ (guardTick s).snd = s.snd ∧ (guardTick s).home = s.home ∧
    (guardTick s).store = s.store ∧ (guardTick s).pins = s.pins ∧ (guardTick s).log = s.log ∧
    (guardTick s).cues = s.cues ∧ (guardTick s).xfer = s.xfer := by
  simp [guardTick]

@[simp] theorem onAirTick_frame :
    (onAirTick s).pending = s.pending ∧ (onAirTick s).dram = s.dram ∧ (onAirTick s).epIn = s.epIn ∧
    (onAirTick s).port = s.port ∧ (onAirTick s).ins = s.ins ∧ (onAirTick s).aps = s.aps ∧
    (onAirTick s).clock = s.clock ∧ (onAirTick s).lanes = s.lanes ∧ (onAirTick s).snd = s.snd ∧
    (onAirTick s).home = s.home ∧ (onAirTick s).store = s.store ∧ (onAirTick s).pins = s.pins ∧
    (onAirTick s).log = s.log ∧ (onAirTick s).cues = s.cues ∧ (onAirTick s).xfer = s.xfer ∧
    (onAirTick s).ctl = s.ctl := by
  simp only [onAirTick]
  (repeat' split) <;> simp

@[simp] theorem statusTick_frame :
    (statusTick s).pending = s.pending ∧ (statusTick s).dram = s.dram ∧ (statusTick s).epIn = s.epIn ∧
    (statusTick s).port = s.port ∧ (statusTick s).aps = s.aps ∧ (statusTick s).clock = s.clock ∧
    (statusTick s).lanes = s.lanes ∧ (statusTick s).sel = s.sel ∧ (statusTick s).snd = s.snd ∧
    (statusTick s).home = s.home ∧ (statusTick s).store = s.store ∧ (statusTick s).pins = s.pins ∧
    (statusTick s).log = s.log ∧ (statusTick s).cues = s.cues ∧ (statusTick s).xfer = s.xfer ∧
    (statusTick s).ctl = s.ctl := by
  simp only [statusTick]
  (repeat' split) <;> simp

@[simp] theorem runAct_frame (o : Opening) (a : TickAct) :
    (runAct o a s).pending = s.pending ∧ (runAct o a s).dram = s.dram ∧ (runAct o a s).epIn = s.epIn ∧
    (runAct o a s).port = s.port ∧ (runAct o a s).lanes = s.lanes ∧ (runAct o a s).xfer = s.xfer := by
  cases a <;> simp only [runAct] <;> (repeat' split) <;> simp

@[simp] theorem openFrame_frame :
    (openFrame s).pending = s.pending ∧ (openFrame s).dram = s.dram ∧ (openFrame s).epIn = s.epIn ∧
    (openFrame s).port = s.port ∧ (openFrame s).ins = s.ins ∧ (openFrame s).aps = s.aps ∧ (openFrame s).sel = s.sel ∧
    (openFrame s).snd = s.snd ∧ (openFrame s).home = s.home ∧ (openFrame s).store = s.store ∧
    (openFrame s).pins = s.pins ∧ (openFrame s).log = s.log ∧ (openFrame s).cues = s.cues ∧
    (openFrame s).xfer = s.xfer ∧ (openFrame s).ctl = s.ctl := by
  simp only [openFrame]
  (repeat' split) <;> simp

@[simp] theorem tick_frame (t : TickIn) :
    (tick t s).pending = s.pending ∧ (tick t s).dram = s.dram ∧ (tick t s).port = s.port ∧
    (tick t s).xfer = s.xfer := by
  simp [tick]

/-! ## Memory path (R1 to R13, R174, R179) -/

@[simp] theorem tallyGuard_frame (f : Fn) (i : Fin 16) (o : Nat) :
    (tallyGuard f i o s).pending = s.pending ∧ (tallyGuard f i o s).dram = s.dram ∧
    (tallyGuard f i o s).epIn = s.epIn ∧ (tallyGuard f i o s).port = s.port ∧ (tallyGuard f i o s).ins = s.ins ∧
    (tallyGuard f i o s).clock = s.clock ∧ (tallyGuard f i o s).lanes = s.lanes ∧ (tallyGuard f i o s).sel = s.sel ∧
    (tallyGuard f i o s).snd = s.snd ∧ (tallyGuard f i o s).home = s.home ∧ (tallyGuard f i o s).store = s.store ∧
    (tallyGuard f i o s).pins = s.pins ∧ (tallyGuard f i o s).log = s.log ∧ (tallyGuard f i o s).cues = s.cues ∧
    (tallyGuard f i o s).xfer = s.xfer ∧ (tallyGuard f i o s).ctl = s.ctl := by
  simp [tallyGuard]

@[simp] theorem slotArrival_frame (n : Fin 16) :
    (slotArrival n s).pending = s.pending ∧ (slotArrival n s).dram = s.dram ∧ (slotArrival n s).epIn = s.epIn ∧
    (slotArrival n s).port = s.port ∧ (slotArrival n s).aps = s.aps ∧ (slotArrival n s).clock = s.clock ∧
    (slotArrival n s).lanes = s.lanes ∧ (slotArrival n s).sel = s.sel ∧ (slotArrival n s).snd = s.snd ∧
    (slotArrival n s).home = s.home ∧ (slotArrival n s).store = s.store ∧ (slotArrival n s).pins = s.pins ∧
    (slotArrival n s).log = s.log ∧ (slotArrival n s).cues = s.cues ∧ (slotArrival n s).xfer = s.xfer := by
  simp only [slotArrival]
  (repeat' split) <;> simp

@[simp] theorem takeCommands_frame (o : Nat) (d : List Byte) :
    (takeCommands o d s).pending = s.pending ∧ (takeCommands o d s).dram = s.dram ∧
    (takeCommands o d s).epIn = s.epIn ∧ (takeCommands o d s).port = s.port ∧ (takeCommands o d s).aps = s.aps ∧
    (takeCommands o d s).clock = s.clock ∧ (takeCommands o d s).lanes = s.lanes ∧ (takeCommands o d s).sel = s.sel ∧
    (takeCommands o d s).snd = s.snd ∧ (takeCommands o d s).home = s.home ∧ (takeCommands o d s).store = s.store ∧
    (takeCommands o d s).pins = s.pins ∧ (takeCommands o d s).log = s.log ∧ (takeCommands o d s).cues = s.cues ∧
    (takeCommands o d s).xfer = s.xfer := by
  simp only [takeCommands]
  (repeat' split) <;> simp

@[simp] theorem releaseWord_frame (v : Nat) :
    (releaseWord v s).pending = s.pending ∧ (releaseWord v s).dram = s.dram ∧ (releaseWord v s).epIn = s.epIn ∧
    (releaseWord v s).port = s.port ∧ (releaseWord v s).ins = s.ins ∧ (releaseWord v s).aps = s.aps ∧
    (releaseWord v s).clock = s.clock ∧ (releaseWord v s).lanes = s.lanes ∧ (releaseWord v s).sel = s.sel ∧
    (releaseWord v s).snd = s.snd ∧ (releaseWord v s).home = s.home ∧ (releaseWord v s).store = s.store ∧
    (releaseWord v s).pins = s.pins ∧ (releaseWord v s).log = s.log ∧ (releaseWord v s).cues = s.cues ∧
    (releaseWord v s).xfer = s.xfer := by
  simp only [releaseWord]
  (repeat' split) <;> simp

@[simp] theorem releaseByRead_frame (o n : Nat) :
    (releaseByRead o n s).pending = s.pending ∧ (releaseByRead o n s).dram = s.dram ∧
    (releaseByRead o n s).epIn = s.epIn ∧ (releaseByRead o n s).port = s.port ∧ (releaseByRead o n s).ins = s.ins ∧
    (releaseByRead o n s).aps = s.aps ∧ (releaseByRead o n s).clock = s.clock ∧
    (releaseByRead o n s).lanes = s.lanes ∧ (releaseByRead o n s).sel = s.sel ∧ (releaseByRead o n s).snd = s.snd ∧
    (releaseByRead o n s).home = s.home ∧ (releaseByRead o n s).store = s.store ∧
    (releaseByRead o n s).pins = s.pins ∧ (releaseByRead o n s).log = s.log ∧ (releaseByRead o n s).cues = s.cues ∧
    (releaseByRead o n s).xfer = s.xfer := by
  simp only [releaseByRead]
  (repeat' split) <;> simp

@[simp] theorem handWrite_frame (f : Fn) (o : Nat) (i : Fin 16) (d : List Byte) :
    (handWrite f o i d s).pending = s.pending ∧ (handWrite f o i d s).dram = s.dram ∧
    (handWrite f o i d s).epIn = s.epIn ∧ (handWrite f o i d s).port = s.port ∧ (handWrite f o i d s).aps = s.aps ∧
    (handWrite f o i d s).clock = s.clock ∧ (handWrite f o i d s).pins = s.pins ∧
    (handWrite f o i d s).cues = s.cues ∧ (handWrite f o i d s).xfer = s.xfer := by
  cases f <;> simp only [handWrite] <;> (repeat' split) <;> simp

@[simp] theorem handRead_frame (f : Fn) (o n : Nat) (i : Fin 16) :
    (handRead f o n i s).pending = s.pending ∧ (handRead f o n i s).dram = s.dram ∧
    (handRead f o n i s).epIn = s.epIn ∧ (handRead f o n i s).port = s.port ∧ (handRead f o n i s).aps = s.aps ∧
    (handRead f o n i s).clock = s.clock ∧ (handRead f o n i s).lanes = s.lanes ∧ (handRead f o n i s).sel = s.sel ∧
    (handRead f o n i s).snd = s.snd ∧ (handRead f o n i s).store = s.store ∧ (handRead f o n i s).pins = s.pins ∧
    (handRead f o n i s).cues = s.cues := by
  cases f <;> simp only [handRead] <;> (repeat' split) <;> simp

@[simp] theorem takePiece_frame (p : Piece) :
    (takePiece p s).pending = s.pending ∧ (takePiece p s).dram = s.dram ∧ (takePiece p s).epIn = s.epIn ∧
    (takePiece p s).clock = s.clock ∧ (takePiece p s).pins = s.pins ∧ (takePiece p s).cues = s.cues ∧
    (takePiece p s).xfer = s.xfer := by
  simp only [takePiece]
  (repeat' split) <;> simp

@[simp] theorem openRequest_frame (r : Request) (i n : Nat) :
    (openRequest r i n s).pending = s.pending ∧ (openRequest r i n s).dram = s.dram ∧
    (openRequest r i n s).epIn = s.epIn ∧ (openRequest r i n s).ins = s.ins ∧ (openRequest r i n s).aps = s.aps ∧
    (openRequest r i n s).clock = s.clock ∧ (openRequest r i n s).lanes = s.lanes ∧
    (openRequest r i n s).sel = s.sel ∧ (openRequest r i n s).snd = s.snd ∧ (openRequest r i n s).home = s.home ∧
    (openRequest r i n s).store = s.store ∧ (openRequest r i n s).pins = s.pins ∧ (openRequest r i n s).log = s.log ∧
    (openRequest r i n s).cues = s.cues ∧ (openRequest r i n s).xfer = s.xfer ∧
    (openRequest r i n s).ctl = s.ctl := by
  simp [openRequest]

@[simp] theorem acceptRequest_frame (r : Request) :
    (acceptRequest r s).pending = s.pending ∧ (acceptRequest r s).dram = s.dram ∧ (acceptRequest r s).epIn = s.epIn ∧
    (acceptRequest r s).clock = s.clock ∧ (acceptRequest r s).pins = s.pins ∧ (acceptRequest r s).cues = s.cues ∧
    (acceptRequest r s).xfer = s.xfer := by
  simp [acceptRequest]

@[simp] theorem acceptSome_frame (k : Nat) :
    (acceptSome k s).pending = s.pending ∧ (acceptSome k s).dram = s.dram ∧ (acceptSome k s).epIn = s.epIn ∧
    (acceptSome k s).clock = s.clock ∧ (acceptSome k s).pins = s.pins ∧ (acceptSome k s).cues = s.cues ∧
    (acceptSome k s).xfer = s.xfer := by
  induction k generalizing s with
  | zero => simp [acceptSome]
  | succ k ih =>
    simp only [acceptSome]
    (repeat' split) <;> simp [ih]

@[simp] theorem acceptHeld_frame :
    (acceptHeld s).pending = s.pending ∧ (acceptHeld s).dram = s.dram ∧ (acceptHeld s).epIn = s.epIn ∧
    (acceptHeld s).clock = s.clock ∧ (acceptHeld s).pins = s.pins ∧ (acceptHeld s).cues = s.cues ∧
    (acceptHeld s).xfer = s.xfer := by
  simp [acceptHeld]

@[simp] theorem settleWrites_frame :
    (settleWrites s).pending = s.pending ∧ (settleWrites s).epIn = s.epIn ∧ (settleWrites s).ins = s.ins ∧
    (settleWrites s).aps = s.aps ∧ (settleWrites s).clock = s.clock ∧ (settleWrites s).lanes = s.lanes ∧
    (settleWrites s).sel = s.sel ∧ (settleWrites s).snd = s.snd ∧ (settleWrites s).home = s.home ∧
    (settleWrites s).store = s.store ∧ (settleWrites s).pins = s.pins ∧ (settleWrites s).log = s.log ∧
    (settleWrites s).cues = s.cues ∧ (settleWrites s).xfer = s.xfer ∧ (settleWrites s).ctl = s.ctl := by
  simp [settleWrites]

@[simp] theorem grantPiece_frame :
    (grantPiece s).pending = s.pending ∧ (grantPiece s).dram = s.dram ∧ (grantPiece s).epIn = s.epIn ∧
    (grantPiece s).ins = s.ins ∧ (grantPiece s).aps = s.aps ∧ (grantPiece s).clock = s.clock ∧
    (grantPiece s).lanes = s.lanes ∧ (grantPiece s).sel = s.sel ∧ (grantPiece s).snd = s.snd ∧
    (grantPiece s).home = s.home ∧ (grantPiece s).store = s.store ∧ (grantPiece s).pins = s.pins ∧
    (grantPiece s).log = s.log ∧ (grantPiece s).cues = s.cues ∧ (grantPiece s).xfer = s.xfer ∧
    (grantPiece s).ctl = s.ctl := by
  simp only [grantPiece]
  (repeat' split) <;> simp

@[simp] theorem grantEntry_frame :
    (grantEntry s).pending = s.pending ∧ (grantEntry s).dram = s.dram ∧ (grantEntry s).epIn = s.epIn ∧
    (grantEntry s).aps = s.aps ∧ (grantEntry s).clock = s.clock ∧ (grantEntry s).lanes = s.lanes ∧
    (grantEntry s).sel = s.sel ∧ (grantEntry s).snd = s.snd ∧ (grantEntry s).home = s.home ∧
    (grantEntry s).store = s.store ∧ (grantEntry s).pins = s.pins ∧ (grantEntry s).log = s.log ∧
    (grantEntry s).cues = s.cues ∧ (grantEntry s).xfer = s.xfer ∧ (grantEntry s).ctl = s.ctl := by
  simp only [grantEntry]
  (repeat' split) <;> simp

@[simp] theorem grant_frame :
    (grant s).pending = s.pending ∧ (grant s).dram = s.dram ∧ (grant s).epIn = s.epIn ∧ (grant s).aps = s.aps ∧
    (grant s).clock = s.clock ∧ (grant s).lanes = s.lanes ∧ (grant s).sel = s.sel ∧ (grant s).snd = s.snd ∧
    (grant s).home = s.home ∧ (grant s).store = s.store ∧ (grant s).pins = s.pins ∧ (grant s).log = s.log ∧
    (grant s).cues = s.cues ∧ (grant s).xfer = s.xfer ∧ (grant s).ctl = s.ctl := by
  simp only [grant]
  (repeat' split) <;> simp

@[simp] theorem joinEffect_frame (e : JoinEffect) :
    (joinEffect e s).pending = s.pending ∧ (joinEffect e s).dram = s.dram ∧ (joinEffect e s).epIn = s.epIn ∧
    (joinEffect e s).port = s.port ∧ (joinEffect e s).ins = s.ins ∧ (joinEffect e s).aps = s.aps ∧
    (joinEffect e s).clock = s.clock ∧ (joinEffect e s).lanes = s.lanes ∧ (joinEffect e s).sel = s.sel ∧
    (joinEffect e s).snd = s.snd ∧ (joinEffect e s).pins = s.pins ∧ (joinEffect e s).log = s.log ∧
    (joinEffect e s).cues = s.cues ∧ (joinEffect e s).xfer = s.xfer ∧ (joinEffect e s).ctl = s.ctl := by
  cases e <;> simp [joinEffect]

@[simp] theorem joinFrom_frame (b : Fin 6) :
    (joinFrom b s).pending = s.pending ∧ (joinFrom b s).dram = s.dram ∧ (joinFrom b s).epIn = s.epIn ∧
    (joinFrom b s).port = s.port ∧ (joinFrom b s).aps = s.aps ∧ (joinFrom b s).clock = s.clock ∧
    (joinFrom b s).lanes = s.lanes ∧ (joinFrom b s).sel = s.sel ∧ (joinFrom b s).snd = s.snd ∧
    (joinFrom b s).pins = s.pins ∧ (joinFrom b s).log = s.log ∧ (joinFrom b s).cues = s.cues ∧
    (joinFrom b s).xfer = s.xfer ∧ (joinFrom b s).ctl = s.ctl := by
  simp only [joinFrom]
  (repeat' split) <;> simp

@[simp] theorem joinOne_frame :
    (joinOne s).pending = s.pending ∧ (joinOne s).dram = s.dram ∧ (joinOne s).epIn = s.epIn ∧
    (joinOne s).port = s.port ∧ (joinOne s).aps = s.aps ∧ (joinOne s).clock = s.clock ∧ (joinOne s).lanes = s.lanes ∧
    (joinOne s).sel = s.sel ∧ (joinOne s).snd = s.snd ∧ (joinOne s).pins = s.pins ∧ (joinOne s).log = s.log ∧
    (joinOne s).cues = s.cues ∧ (joinOne s).xfer = s.xfer ∧ (joinOne s).ctl = s.ctl := by
  simp only [joinOne]
  (repeat' split) <;> simp

@[simp] theorem serveRead_frame :
    (serveRead s).pending = s.pending ∧ (serveRead s).epIn = s.epIn ∧ (serveRead s).aps = s.aps ∧
    (serveRead s).clock = s.clock ∧ (serveRead s).lanes = s.lanes ∧ (serveRead s).sel = s.sel ∧
    (serveRead s).snd = s.snd ∧ (serveRead s).store = s.store ∧ (serveRead s).pins = s.pins ∧
    (serveRead s).cues = s.cues := by
  simp only [serveRead]
  (repeat' split) <;> simp

@[simp] theorem serveStoreRead_frame :
    (serveStoreRead s).pending = s.pending ∧ (serveStoreRead s).epIn = s.epIn ∧ (serveStoreRead s).aps = s.aps ∧
    (serveStoreRead s).clock = s.clock ∧ (serveStoreRead s).lanes = s.lanes ∧ (serveStoreRead s).sel = s.sel ∧
    (serveStoreRead s).snd = s.snd ∧ (serveStoreRead s).store = s.store ∧ (serveStoreRead s).pins = s.pins ∧
    (serveStoreRead s).cues = s.cues := by
  simp only [serveStoreRead]
  (repeat' split) <;> simp

/-! ## Control block (R6, R7, R172 to R175) -/

@[simp] theorem finish_frame (c : Command) (r : Result) :
    (finish c (s, r)).pending = s.pending ∧ (finish c (s, r)).dram = s.dram ∧ (finish c (s, r)).epIn = s.epIn ∧
    (finish c (s, r)).port = s.port ∧ (finish c (s, r)).aps = s.aps ∧ (finish c (s, r)).clock = s.clock ∧
    (finish c (s, r)).lanes = s.lanes ∧ (finish c (s, r)).sel = s.sel ∧ (finish c (s, r)).snd = s.snd ∧
    (finish c (s, r)).home = s.home ∧ (finish c (s, r)).store = s.store ∧ (finish c (s, r)).pins = s.pins ∧
    (finish c (s, r)).log = s.log ∧ (finish c (s, r)).cues = s.cues ∧ (finish c (s, r)).xfer = s.xfer := by
  simp [finish]

@[simp] theorem dropNotices_frame :
    (dropNotices s).pending = s.pending ∧ (dropNotices s).dram = s.dram ∧ (dropNotices s).epIn = s.epIn ∧
    (dropNotices s).port = s.port ∧ (dropNotices s).ins = s.ins ∧ (dropNotices s).aps = s.aps ∧
    (dropNotices s).clock = s.clock ∧ (dropNotices s).lanes = s.lanes ∧ (dropNotices s).sel = s.sel ∧
    (dropNotices s).snd = s.snd ∧ (dropNotices s).home = s.home ∧ (dropNotices s).store = s.store ∧
    (dropNotices s).pins = s.pins ∧ (dropNotices s).log = s.log ∧ (dropNotices s).cues = s.cues ∧
    (dropNotices s).xfer = s.xfer := by
  simp [dropNotices]

@[simp] theorem restartNotices_frame (b : Nat) :
    (restartNotices b s).pending = s.pending ∧ (restartNotices b s).dram = s.dram ∧
    (restartNotices b s).epIn = s.epIn ∧ (restartNotices b s).port = s.port ∧ (restartNotices b s).aps = s.aps ∧
    (restartNotices b s).clock = s.clock ∧ (restartNotices b s).lanes = s.lanes ∧ (restartNotices b s).sel = s.sel ∧
    (restartNotices b s).snd = s.snd ∧ (restartNotices b s).home = s.home ∧ (restartNotices b s).store = s.store ∧
    (restartNotices b s).pins = s.pins ∧ (restartNotices b s).log = s.log ∧ (restartNotices b s).cues = s.cues ∧
    (restartNotices b s).xfer = s.xfer := by
  simp [restartNotices]

@[simp] theorem rewriteLog_frame (b : Nat) :
    (rewriteLog b s).pending = s.pending ∧ (rewriteLog b s).dram = s.dram ∧ (rewriteLog b s).epIn = s.epIn ∧
    (rewriteLog b s).port = s.port ∧ (rewriteLog b s).aps = s.aps ∧ (rewriteLog b s).clock = s.clock ∧
    (rewriteLog b s).lanes = s.lanes ∧ (rewriteLog b s).sel = s.sel ∧ (rewriteLog b s).snd = s.snd ∧
    (rewriteLog b s).home = s.home ∧ (rewriteLog b s).store = s.store ∧ (rewriteLog b s).pins = s.pins ∧
    (rewriteLog b s).log = s.log ∧ (rewriteLog b s).cues = s.cues ∧ (rewriteLog b s).xfer = s.xfer ∧
    (rewriteLog b s).ctl = s.ctl := by
  simp [rewriteLog]

@[simp] theorem loadClock_frame (d : Nat) :
    (loadClock d s).pending = s.pending ∧ (loadClock d s).dram = s.dram ∧ (loadClock d s).epIn = s.epIn ∧
    (loadClock d s).port = s.port ∧ (loadClock d s).ins = s.ins ∧ (loadClock d s).aps = s.aps ∧
    (loadClock d s).lanes = s.lanes ∧ (loadClock d s).sel = s.sel ∧ (loadClock d s).snd = s.snd ∧
    (loadClock d s).home = s.home ∧ (loadClock d s).store = s.store ∧ (loadClock d s).pins = s.pins ∧
    (loadClock d s).log = s.log ∧ (loadClock d s).cues = s.cues ∧ (loadClock d s).xfer = s.xfer ∧
    (loadClock d s).ctl = s.ctl := by
  simp only [loadClock]
  (repeat' split) <;> simp

@[simp] theorem loadPin_frame (d : Nat) (p : Fin 12) :
    (loadPin d p s).pending = s.pending ∧ (loadPin d p s).dram = s.dram ∧ (loadPin d p s).epIn = s.epIn ∧
    (loadPin d p s).port = s.port ∧ (loadPin d p s).ins = s.ins ∧ (loadPin d p s).aps = s.aps ∧
    (loadPin d p s).clock = s.clock ∧ (loadPin d p s).lanes = s.lanes ∧ (loadPin d p s).sel = s.sel ∧
    (loadPin d p s).snd = s.snd ∧ (loadPin d p s).home = s.home ∧ (loadPin d p s).store = s.store ∧
    (loadPin d p s).log = s.log ∧ (loadPin d p s).cues = s.cues ∧ (loadPin d p s).xfer = s.xfer ∧
    (loadPin d p s).ctl = s.ctl := by
  simp [loadPin]

@[simp] theorem loadPins_frame (d : Nat) :
    (loadPins d s).pending = s.pending ∧ (loadPins d s).dram = s.dram ∧ (loadPins d s).epIn = s.epIn ∧
    (loadPins d s).port = s.port ∧ (loadPins d s).ins = s.ins ∧ (loadPins d s).aps = s.aps ∧
    (loadPins d s).clock = s.clock ∧ (loadPins d s).lanes = s.lanes ∧ (loadPins d s).sel = s.sel ∧
    (loadPins d s).snd = s.snd ∧ (loadPins d s).home = s.home ∧ (loadPins d s).store = s.store ∧
    (loadPins d s).log = s.log ∧ (loadPins d s).cues = s.cues ∧ (loadPins d s).xfer = s.xfer ∧
    (loadPins d s).ctl = s.ctl := by
  simp [loadPins]

@[simp] theorem applyEntry_frame (g d : Nat) :
    (applyEntry g d s).pending = s.pending ∧ (applyEntry g d s).dram = s.dram ∧ (applyEntry g d s).epIn = s.epIn ∧
    (applyEntry g d s).port = s.port ∧ (applyEntry g d s).ins = s.ins ∧ (applyEntry g d s).aps = s.aps ∧
    (applyEntry g d s).lanes = s.lanes ∧ (applyEntry g d s).sel = s.sel ∧ (applyEntry g d s).snd = s.snd ∧
    (applyEntry g d s).home = s.home ∧ (applyEntry g d s).store = s.store ∧ (applyEntry g d s).log = s.log ∧
    (applyEntry g d s).cues = s.cues ∧ (applyEntry g d s).xfer = s.xfer := by
  simp only [applyEntry]
  (repeat' split) <;> simp

@[simp] theorem settleMarkPin_frame (b : BitVec 12) (p : Fin 12) :
    (settleMarkPin b p s).pending = s.pending ∧ (settleMarkPin b p s).dram = s.dram ∧
    (settleMarkPin b p s).epIn = s.epIn ∧ (settleMarkPin b p s).port = s.port ∧ (settleMarkPin b p s).ins = s.ins ∧
    (settleMarkPin b p s).aps = s.aps ∧ (settleMarkPin b p s).clock = s.clock ∧
    (settleMarkPin b p s).lanes = s.lanes ∧ (settleMarkPin b p s).sel = s.sel ∧ (settleMarkPin b p s).snd = s.snd ∧
    (settleMarkPin b p s).home = s.home ∧ (settleMarkPin b p s).store = s.store ∧ (settleMarkPin b p s).log = s.log ∧
    (settleMarkPin b p s).cues = s.cues ∧ (settleMarkPin b p s).xfer = s.xfer ∧
    (settleMarkPin b p s).ctl = s.ctl := by
  simp [settleMarkPin]

@[simp] theorem endLoad_frame (r : LoadResult) (e : Nat) (b : BitVec 12) :
    (endLoad r e b s).pending = s.pending ∧ (endLoad r e b s).dram = s.dram ∧ (endLoad r e b s).epIn = s.epIn ∧
    (endLoad r e b s).port = s.port ∧ (endLoad r e b s).clock = s.clock ∧ (endLoad r e b s).lanes = s.lanes ∧
    (endLoad r e b s).sel = s.sel ∧ (endLoad r e b s).snd = s.snd ∧ (endLoad r e b s).home = s.home ∧
    (endLoad r e b s).store = s.store ∧ (endLoad r e b s).log = s.log ∧ (endLoad r e b s).cues = s.cues ∧
    (endLoad r e b s).xfer = s.xfer := by
  simp [endLoad]

@[simp] theorem loadEntry_frame (i : Nat) (g : Option Nat) (e : Option (BitVec 64)) (b : BitVec 12) :
    (loadEntry i g e b s).pending = s.pending ∧ (loadEntry i g e b s).dram = s.dram ∧
    (loadEntry i g e b s).epIn = s.epIn ∧ (loadEntry i g e b s).port = s.port ∧
    (loadEntry i g e b s).lanes = s.lanes ∧ (loadEntry i g e b s).sel = s.sel ∧ (loadEntry i g e b s).snd = s.snd ∧
    (loadEntry i g e b s).home = s.home ∧ (loadEntry i g e b s).store = s.store ∧ (loadEntry i g e b s).log = s.log ∧
    (loadEntry i g e b s).cues = s.cues ∧ (loadEntry i g e b s).xfer = s.xfer := by
  simp only [loadEntry]
  (repeat' split) <;> simp

/-! ## Settings and media (R5, R57 to R61, R87, R97 to R99, R115, R118, R119, R130, R165, R169) -/

@[simp] theorem setEntry_frame (f : Fn) (e : Option Aperture) :
    (setEntry f e s).pending = s.pending ∧ (setEntry f e s).dram = s.dram ∧ (setEntry f e s).epIn = s.epIn ∧
    (setEntry f e s).port = s.port ∧ (setEntry f e s).ins = s.ins ∧ (setEntry f e s).clock = s.clock ∧
    (setEntry f e s).lanes = s.lanes ∧ (setEntry f e s).sel = s.sel ∧ (setEntry f e s).snd = s.snd ∧
    (setEntry f e s).home = s.home ∧ (setEntry f e s).store = s.store ∧ (setEntry f e s).pins = s.pins ∧
    (setEntry f e s).log = s.log ∧ (setEntry f e s).cues = s.cues ∧ (setEntry f e s).xfer = s.xfer ∧
    (setEntry f e s).ctl = s.ctl := by
  simp [setEntry]

@[simp] theorem leaveRange_frame (f : Fn) :
    (leaveRange f s).pending = s.pending ∧ (leaveRange f s).dram = s.dram ∧ (leaveRange f s).epIn = s.epIn ∧
    (leaveRange f s).port = s.port ∧ (leaveRange f s).aps = s.aps ∧ (leaveRange f s).clock = s.clock ∧
    (leaveRange f s).lanes = s.lanes ∧ (leaveRange f s).sel = s.sel ∧ (leaveRange f s).snd = s.snd ∧
    (leaveRange f s).home = s.home ∧ (leaveRange f s).store = s.store ∧ (leaveRange f s).pins = s.pins ∧
    (leaveRange f s).log = s.log ∧ (leaveRange f s).cues = s.cues ∧ (leaveRange f s).xfer = s.xfer ∧
    (leaveRange f s).ctl = s.ctl := by
  simp only [leaveRange]
  split <;> simp

@[simp] theorem restartOwner_frame (f : Fn) (b : Nat) :
    (restartOwner f b s).pending = s.pending ∧ (restartOwner f b s).dram = s.dram ∧
    (restartOwner f b s).epIn = s.epIn ∧ (restartOwner f b s).port = s.port ∧ (restartOwner f b s).aps = s.aps ∧
    (restartOwner f b s).clock = s.clock ∧ (restartOwner f b s).lanes = s.lanes ∧ (restartOwner f b s).sel = s.sel ∧
    (restartOwner f b s).home = s.home ∧ (restartOwner f b s).store = s.store ∧ (restartOwner f b s).pins = s.pins ∧
    (restartOwner f b s).log = s.log ∧ (restartOwner f b s).cues = s.cues ∧ (restartOwner f b s).xfer = s.xfer := by
  cases f <;> simp [restartOwner]

@[simp] theorem writeLane_frame (l : Fin 4) (e : Bool) (x : LaneSettings) :
    (writeLane l e x s).pending = s.pending ∧ (writeLane l e x s).dram = s.dram ∧ (writeLane l e x s).epIn = s.epIn ∧
    (writeLane l e x s).port = s.port ∧ (writeLane l e x s).aps = s.aps ∧ (writeLane l e x s).clock = s.clock ∧
    (writeLane l e x s).snd = s.snd ∧ (writeLane l e x s).home = s.home ∧ (writeLane l e x s).store = s.store ∧
    (writeLane l e x s).pins = s.pins ∧ (writeLane l e x s).cues = s.cues ∧ (writeLane l e x s).xfer = s.xfer := by
  simp only [writeLane]
  (repeat' split) <;> simp

@[simp] theorem writeBus_frame (b : Fin 8) (x y z : Bool) :
    (writeBus b x y z s).pending = s.pending ∧ (writeBus b x y z s).dram = s.dram ∧
    (writeBus b x y z s).epIn = s.epIn ∧ (writeBus b x y z s).port = s.port ∧ (writeBus b x y z s).aps = s.aps ∧
    (writeBus b x y z s).clock = s.clock ∧ (writeBus b x y z s).lanes = s.lanes ∧ (writeBus b x y z s).sel = s.sel ∧
    (writeBus b x y z s).pins = s.pins ∧ (writeBus b x y z s).cues = s.cues ∧ (writeBus b x y z s).xfer = s.xfer := by
  simp only [writeBus]
  (repeat' split) <;> simp

@[simp] theorem enablePath_frame (p : Fin 2) (x : PathSettings) :
    (enablePath p x s).pending = s.pending ∧ (enablePath p x s).dram = s.dram ∧ (enablePath p x s).epIn = s.epIn ∧
    (enablePath p x s).port = s.port ∧ (enablePath p x s).aps = s.aps ∧ (enablePath p x s).clock = s.clock ∧
    (enablePath p x s).lanes = s.lanes ∧ (enablePath p x s).sel = s.sel ∧ (enablePath p x s).snd = s.snd ∧
    (enablePath p x s).store = s.store ∧ (enablePath p x s).pins = s.pins ∧ (enablePath p x s).log = s.log ∧
    (enablePath p x s).cues = s.cues ∧ (enablePath p x s).xfer = s.xfer ∧ (enablePath p x s).ctl = s.ctl := by
  simp [enablePath]

@[simp] theorem disablePath_frame (p : Fin 2) :
    (disablePath p s).pending = s.pending ∧ (disablePath p s).dram = s.dram ∧ (disablePath p s).epIn = s.epIn ∧
    (disablePath p s).port = s.port ∧ (disablePath p s).aps = s.aps ∧ (disablePath p s).clock = s.clock ∧
    (disablePath p s).lanes = s.lanes ∧ (disablePath p s).sel = s.sel ∧ (disablePath p s).snd = s.snd ∧
    (disablePath p s).store = s.store ∧ (disablePath p s).pins = s.pins ∧ (disablePath p s).cues = s.cues := by
  simp [disablePath]

@[simp] theorem writePath_frame (p : Fin 2) (e : Bool) (x : PathSettings) :
    (writePath p e x s).pending = s.pending ∧ (writePath p e x s).dram = s.dram ∧ (writePath p e x s).epIn = s.epIn ∧
    (writePath p e x s).port = s.port ∧ (writePath p e x s).aps = s.aps ∧ (writePath p e x s).clock = s.clock ∧
    (writePath p e x s).lanes = s.lanes ∧ (writePath p e x s).sel = s.sel ∧ (writePath p e x s).snd = s.snd ∧
    (writePath p e x s).store = s.store ∧ (writePath p e x s).pins = s.pins ∧ (writePath p e x s).cues = s.cues := by
  simp only [writePath]
  (repeat' split) <;> simp

@[simp] theorem enableStore_frame :
    (enableStore s).pending = s.pending ∧ (enableStore s).dram = s.dram ∧ (enableStore s).epIn = s.epIn ∧
    (enableStore s).port = s.port ∧ (enableStore s).aps = s.aps ∧ (enableStore s).clock = s.clock ∧
    (enableStore s).lanes = s.lanes ∧ (enableStore s).sel = s.sel ∧ (enableStore s).snd = s.snd ∧
    (enableStore s).home = s.home ∧ (enableStore s).pins = s.pins ∧ (enableStore s).log = s.log ∧
    (enableStore s).cues = s.cues ∧ (enableStore s).xfer = s.xfer ∧ (enableStore s).ctl = s.ctl := by
  simp [enableStore]

@[simp] theorem disableStore_frame :
    (disableStore s).pending = s.pending ∧ (disableStore s).dram = s.dram ∧ (disableStore s).epIn = s.epIn ∧
    (disableStore s).port = s.port ∧ (disableStore s).aps = s.aps ∧ (disableStore s).clock = s.clock ∧
    (disableStore s).lanes = s.lanes ∧ (disableStore s).sel = s.sel ∧ (disableStore s).snd = s.snd ∧
    (disableStore s).pins = s.pins ∧ (disableStore s).cues = s.cues := by
  simp [disableStore]

@[simp] theorem removeLabel_frame (i : Fin 256) (k : W16) :
    (removeLabel i k s).1.pending = s.pending ∧ (removeLabel i k s).1.dram = s.dram ∧
    (removeLabel i k s).1.epIn = s.epIn ∧ (removeLabel i k s).1.port = s.port ∧ (removeLabel i k s).1.aps = s.aps ∧
    (removeLabel i k s).1.clock = s.clock ∧ (removeLabel i k s).1.lanes = s.lanes ∧
    (removeLabel i k s).1.sel = s.sel ∧ (removeLabel i k s).1.snd = s.snd ∧ (removeLabel i k s).1.store = s.store ∧
    (removeLabel i k s).1.pins = s.pins ∧ (removeLabel i k s).1.cues = s.cues ∧
    (removeLabel i k s).1.xfer = s.xfer := by
  simp only [removeLabel, refuse]
  (repeat' split) <;> simp

@[simp] theorem freeRecord_frame (i : Fin 256) :
    (freeRecord i s).pending = s.pending ∧ (freeRecord i s).dram = s.dram ∧ (freeRecord i s).epIn = s.epIn ∧
    (freeRecord i s).port = s.port ∧ (freeRecord i s).aps = s.aps ∧ (freeRecord i s).clock = s.clock ∧
    (freeRecord i s).lanes = s.lanes ∧ (freeRecord i s).sel = s.sel ∧ (freeRecord i s).snd = s.snd ∧
    (freeRecord i s).home = s.home ∧ (freeRecord i s).store = s.store ∧ (freeRecord i s).pins = s.pins ∧
    (freeRecord i s).cues = s.cues ∧ (freeRecord i s).xfer = s.xfer ∧ (freeRecord i s).ctl = s.ctl := by
  simp only [freeRecord]
  (repeat' split) <;> simp

@[simp] theorem queueSend_frame (i : Fin 256) (e : Send) :
    (queueSend i e s).pending = s.pending ∧ (queueSend i e s).dram = s.dram ∧ (queueSend i e s).epIn = s.epIn ∧
    (queueSend i e s).port = s.port ∧ (queueSend i e s).aps = s.aps ∧ (queueSend i e s).clock = s.clock ∧
    (queueSend i e s).lanes = s.lanes ∧ (queueSend i e s).sel = s.sel ∧ (queueSend i e s).snd = s.snd ∧
    (queueSend i e s).home = s.home ∧ (queueSend i e s).store = s.store ∧ (queueSend i e s).pins = s.pins ∧
    (queueSend i e s).cues = s.cues := by
  simp only [queueSend]
  (repeat' split) <;> simp

@[simp] theorem abortActive_frame (e : Send) :
    (abortActive e s).pending = s.pending ∧ (abortActive e s).dram = s.dram ∧ (abortActive e s).epIn = s.epIn ∧
    (abortActive e s).port = s.port ∧ (abortActive e s).aps = s.aps ∧ (abortActive e s).clock = s.clock ∧
    (abortActive e s).lanes = s.lanes ∧ (abortActive e s).sel = s.sel ∧ (abortActive e s).snd = s.snd ∧
    (abortActive e s).store = s.store ∧ (abortActive e s).pins = s.pins ∧ (abortActive e s).cues = s.cues := by
  simp [abortActive]

@[simp] theorem abortQueued_frame (n : Nat) :
    (abortQueued n s).pending = s.pending ∧ (abortQueued n s).dram = s.dram ∧ (abortQueued n s).epIn = s.epIn ∧
    (abortQueued n s).port = s.port ∧ (abortQueued n s).aps = s.aps ∧ (abortQueued n s).clock = s.clock ∧
    (abortQueued n s).lanes = s.lanes ∧ (abortQueued n s).sel = s.sel ∧ (abortQueued n s).snd = s.snd ∧
    (abortQueued n s).home = s.home ∧ (abortQueued n s).store = s.store ∧ (abortQueued n s).pins = s.pins ∧
    (abortQueued n s).cues = s.cues ∧ (abortQueued n s).ctl = s.ctl := by
  simp [abortQueued]

@[simp] theorem clearStore_frame :
    (clearStore s).pending = s.pending ∧ (clearStore s).dram = s.dram ∧ (clearStore s).epIn = s.epIn ∧
    (clearStore s).port = s.port ∧ (clearStore s).aps = s.aps ∧ (clearStore s).clock = s.clock ∧
    (clearStore s).lanes = s.lanes ∧ (clearStore s).sel = s.sel ∧ (clearStore s).snd = s.snd ∧
    (clearStore s).home = s.home ∧ (clearStore s).pins = s.pins ∧ (clearStore s).cues = s.cues ∧
    (clearStore s).xfer = s.xfer := by
  simp only [clearStore]
  (repeat' split) <;> simp

@[simp] theorem clearPath_frame (p : Fin 2) :
    (clearPath p s).pending = s.pending ∧ (clearPath p s).dram = s.dram ∧ (clearPath p s).epIn = s.epIn ∧
    (clearPath p s).port = s.port ∧ (clearPath p s).aps = s.aps ∧ (clearPath p s).clock = s.clock ∧
    (clearPath p s).lanes = s.lanes ∧ (clearPath p s).sel = s.sel ∧ (clearPath p s).snd = s.snd ∧
    (clearPath p s).store = s.store ∧ (clearPath p s).pins = s.pins ∧ (clearPath p s).log = s.log ∧
    (clearPath p s).cues = s.cues ∧ (clearPath p s).xfer = s.xfer := by
  simp only [clearPath]
  (repeat' split) <;> simp

/-! ## Host commands (R175) -/

@[simp] theorem setApertureOf_frame (f : Fn) (b n : Nat) :
    (setApertureOf f b n s).1.pending = s.pending ∧ (setApertureOf f b n s).1.dram = s.dram ∧
    (setApertureOf f b n s).1.epIn = s.epIn ∧ (setApertureOf f b n s).1.port = s.port ∧
    (setApertureOf f b n s).1.clock = s.clock ∧ (setApertureOf f b n s).1.lanes = s.lanes ∧
    (setApertureOf f b n s).1.sel = s.sel ∧ (setApertureOf f b n s).1.home = s.home ∧
    (setApertureOf f b n s).1.store = s.store ∧ (setApertureOf f b n s).1.pins = s.pins ∧
    (setApertureOf f b n s).1.log = s.log ∧ (setApertureOf f b n s).1.cues = s.cues ∧
    (setApertureOf f b n s).1.xfer = s.xfer := by
  simp only [setApertureOf, refuse]
  (repeat' split) <;> simp

@[simp] theorem setAperture_frame (c : Command) :
    (setAperture c s).1.pending = s.pending ∧ (setAperture c s).1.dram = s.dram ∧ (setAperture c s).1.epIn = s.epIn ∧
    (setAperture c s).1.port = s.port ∧ (setAperture c s).1.clock = s.clock ∧ (setAperture c s).1.lanes = s.lanes ∧
    (setAperture c s).1.sel = s.sel ∧ (setAperture c s).1.home = s.home ∧ (setAperture c s).1.store = s.store ∧
    (setAperture c s).1.pins = s.pins ∧ (setAperture c s).1.log = s.log ∧ (setAperture c s).1.cues = s.cues ∧
    (setAperture c s).1.xfer = s.xfer := by
  simp only [setAperture, refuse]
  (repeat' split) <;> simp

@[simp] theorem clearAperture_frame (c : Command) :
    (clearAperture c s).1.pending = s.pending ∧ (clearAperture c s).1.dram = s.dram ∧
    (clearAperture c s).1.epIn = s.epIn ∧ (clearAperture c s).1.port = s.port ∧ (clearAperture c s).1.ins = s.ins ∧
    (clearAperture c s).1.clock = s.clock ∧ (clearAperture c s).1.lanes = s.lanes ∧
    (clearAperture c s).1.sel = s.sel ∧ (clearAperture c s).1.snd = s.snd ∧ (clearAperture c s).1.home = s.home ∧
    (clearAperture c s).1.store = s.store ∧ (clearAperture c s).1.pins = s.pins ∧ (clearAperture c s).1.log = s.log ∧
    (clearAperture c s).1.cues = s.cues ∧ (clearAperture c s).1.xfer = s.xfer := by
  simp only [clearAperture, refuse]
  (repeat' split) <;> simp

@[simp] theorem setClock_frame (c : Command) :
    (setClock c s).1.pending = s.pending ∧ (setClock c s).1.dram = s.dram ∧ (setClock c s).1.epIn = s.epIn ∧
    (setClock c s).1.port = s.port ∧ (setClock c s).1.ins = s.ins ∧ (setClock c s).1.aps = s.aps ∧
    (setClock c s).1.lanes = s.lanes ∧ (setClock c s).1.sel = s.sel ∧ (setClock c s).1.snd = s.snd ∧
    (setClock c s).1.home = s.home ∧ (setClock c s).1.store = s.store ∧ (setClock c s).1.pins = s.pins ∧
    (setClock c s).1.log = s.log ∧ (setClock c s).1.cues = s.cues ∧ (setClock c s).1.xfer = s.xfer ∧
    (setClock c s).1.ctl = s.ctl := by
  simp only [setClock, refuse]
  (repeat' split) <;> simp

@[simp] theorem presetTimecode_frame (c : Command) :
    (presetTimecode c s).1.pending = s.pending ∧ (presetTimecode c s).1.dram = s.dram ∧
    (presetTimecode c s).1.epIn = s.epIn ∧ (presetTimecode c s).1.port = s.port ∧ (presetTimecode c s).1.aps = s.aps ∧
    (presetTimecode c s).1.lanes = s.lanes ∧ (presetTimecode c s).1.sel = s.sel ∧ (presetTimecode c s).1.snd = s.snd ∧
    (presetTimecode c s).1.home = s.home ∧ (presetTimecode c s).1.store = s.store ∧
    (presetTimecode c s).1.pins = s.pins ∧ (presetTimecode c s).1.log = s.log ∧
    (presetTimecode c s).1.xfer = s.xfer := by
  simp only [presetTimecode, refuse]
  (repeat' split) <;> simp

@[simp] theorem setPicture_frame (c : Command) :
    (setPicture c s).1.pending = s.pending ∧ (setPicture c s).1.dram = s.dram ∧ (setPicture c s).1.epIn = s.epIn ∧
    (setPicture c s).1.port = s.port ∧ (setPicture c s).1.ins = s.ins ∧ (setPicture c s).1.aps = s.aps ∧
    (setPicture c s).1.clock = s.clock ∧ (setPicture c s).1.sel = s.sel ∧ (setPicture c s).1.snd = s.snd ∧
    (setPicture c s).1.home = s.home ∧ (setPicture c s).1.store = s.store ∧ (setPicture c s).1.pins = s.pins ∧
    (setPicture c s).1.log = s.log ∧ (setPicture c s).1.cues = s.cues ∧ (setPicture c s).1.xfer = s.xfer ∧
    (setPicture c s).1.ctl = s.ctl := by
  simp only [setPicture, refuse]
  (repeat' split) <;> simp

@[simp] theorem setLane_frame (c : Command) :
    (setLane c s).1.pending = s.pending ∧ (setLane c s).1.dram = s.dram ∧ (setLane c s).1.epIn = s.epIn ∧
    (setLane c s).1.port = s.port ∧ (setLane c s).1.aps = s.aps ∧ (setLane c s).1.clock = s.clock ∧
    (setLane c s).1.snd = s.snd ∧ (setLane c s).1.home = s.home ∧ (setLane c s).1.store = s.store ∧
    (setLane c s).1.pins = s.pins ∧ (setLane c s).1.cues = s.cues ∧ (setLane c s).1.xfer = s.xfer := by
  simp only [setLane, refuse]
  (repeat' split) <;> simp

@[simp] theorem setProgram_frame (c : Command) :
    (setProgram c s).1.pending = s.pending ∧ (setProgram c s).1.dram = s.dram ∧ (setProgram c s).1.epIn = s.epIn ∧
    (setProgram c s).1.port = s.port ∧ (setProgram c s).1.ins = s.ins ∧ (setProgram c s).1.aps = s.aps ∧
    (setProgram c s).1.clock = s.clock ∧ (setProgram c s).1.lanes = s.lanes ∧ (setProgram c s).1.snd = s.snd ∧
    (setProgram c s).1.home = s.home ∧ (setProgram c s).1.store = s.store ∧ (setProgram c s).1.pins = s.pins ∧
    (setProgram c s).1.log = s.log ∧ (setProgram c s).1.cues = s.cues ∧ (setProgram c s).1.xfer = s.xfer ∧
    (setProgram c s).1.ctl = s.ctl := by
  simp only [setProgram, refuse]
  (repeat' split) <;> simp

@[simp] theorem setSound_frame (c : Command) :
    (setSound c s).1.pending = s.pending ∧ (setSound c s).1.dram = s.dram ∧ (setSound c s).1.epIn = s.epIn ∧
    (setSound c s).1.port = s.port ∧ (setSound c s).1.ins = s.ins ∧ (setSound c s).1.aps = s.aps ∧
    (setSound c s).1.clock = s.clock ∧ (setSound c s).1.lanes = s.lanes ∧ (setSound c s).1.sel = s.sel ∧
    (setSound c s).1.home = s.home ∧ (setSound c s).1.store = s.store ∧ (setSound c s).1.pins = s.pins ∧
    (setSound c s).1.log = s.log ∧ (setSound c s).1.cues = s.cues ∧ (setSound c s).1.xfer = s.xfer ∧
    (setSound c s).1.ctl = s.ctl := by
  simp only [setSound, refuse]
  (repeat' split) <;> simp

@[simp] theorem setTap_frame (c : Command) :
    (setTap c s).1.pending = s.pending ∧ (setTap c s).1.dram = s.dram ∧ (setTap c s).1.epIn = s.epIn ∧
    (setTap c s).1.port = s.port ∧ (setTap c s).1.ins = s.ins ∧ (setTap c s).1.aps = s.aps ∧
    (setTap c s).1.clock = s.clock ∧ (setTap c s).1.lanes = s.lanes ∧ (setTap c s).1.sel = s.sel ∧
    (setTap c s).1.home = s.home ∧ (setTap c s).1.store = s.store ∧ (setTap c s).1.pins = s.pins ∧
    (setTap c s).1.log = s.log ∧ (setTap c s).1.cues = s.cues ∧ (setTap c s).1.xfer = s.xfer ∧
    (setTap c s).1.ctl = s.ctl := by
  simp only [setTap, refuse]
  (repeat' split) <;> simp

@[simp] theorem setBus_frame (c : Command) :
    (setBus c s).1.pending = s.pending ∧ (setBus c s).1.dram = s.dram ∧ (setBus c s).1.epIn = s.epIn ∧
    (setBus c s).1.port = s.port ∧ (setBus c s).1.aps = s.aps ∧ (setBus c s).1.clock = s.clock ∧
    (setBus c s).1.lanes = s.lanes ∧ (setBus c s).1.sel = s.sel ∧ (setBus c s).1.pins = s.pins ∧
    (setBus c s).1.cues = s.cues ∧ (setBus c s).1.xfer = s.xfer := by
  simp only [setBus, refuse]
  (repeat' split) <;> simp

@[simp] theorem setPath_frame (c : Command) :
    (setPath c s).1.pending = s.pending ∧ (setPath c s).1.dram = s.dram ∧ (setPath c s).1.epIn = s.epIn ∧
    (setPath c s).1.port = s.port ∧ (setPath c s).1.aps = s.aps ∧ (setPath c s).1.clock = s.clock ∧
    (setPath c s).1.lanes = s.lanes ∧ (setPath c s).1.sel = s.sel ∧ (setPath c s).1.snd = s.snd ∧
    (setPath c s).1.store = s.store ∧ (setPath c s).1.pins = s.pins ∧ (setPath c s).1.cues = s.cues := by
  simp only [setPath, refuse]
  (repeat' split) <;> simp

@[simp] theorem setRoute_frame (c : Command) :
    (setRoute c s).1.pending = s.pending ∧ (setRoute c s).1.dram = s.dram ∧ (setRoute c s).1.epIn = s.epIn ∧
    (setRoute c s).1.port = s.port ∧ (setRoute c s).1.ins = s.ins ∧ (setRoute c s).1.aps = s.aps ∧
    (setRoute c s).1.clock = s.clock ∧ (setRoute c s).1.lanes = s.lanes ∧ (setRoute c s).1.sel = s.sel ∧
    (setRoute c s).1.snd = s.snd ∧ (setRoute c s).1.store = s.store ∧ (setRoute c s).1.pins = s.pins ∧
    (setRoute c s).1.log = s.log ∧ (setRoute c s).1.cues = s.cues ∧ (setRoute c s).1.xfer = s.xfer ∧
    (setRoute c s).1.ctl = s.ctl := by
  simp only [setRoute, refuse]
  (repeat' split) <;> simp

@[simp] theorem setStore_frame (c : Command) :
    (setStore c s).1.pending = s.pending ∧ (setStore c s).1.dram = s.dram ∧ (setStore c s).1.epIn = s.epIn ∧
    (setStore c s).1.port = s.port ∧ (setStore c s).1.aps = s.aps ∧ (setStore c s).1.clock = s.clock ∧
    (setStore c s).1.lanes = s.lanes ∧ (setStore c s).1.sel = s.sel ∧ (setStore c s).1.snd = s.snd ∧
    (setStore c s).1.pins = s.pins ∧ (setStore c s).1.cues = s.cues := by
  simp only [setStore, refuse]
  (repeat' split) <;> simp

@[simp] theorem setPinMark_frame (p : Fin 12) (b : Bool) (c : Command) :
    (setPinMark p b c s).1.pending = s.pending ∧ (setPinMark p b c s).1.dram = s.dram ∧
    (setPinMark p b c s).1.epIn = s.epIn ∧ (setPinMark p b c s).1.port = s.port ∧ (setPinMark p b c s).1.ins = s.ins ∧
    (setPinMark p b c s).1.aps = s.aps ∧ (setPinMark p b c s).1.clock = s.clock ∧
    (setPinMark p b c s).1.lanes = s.lanes ∧ (setPinMark p b c s).1.sel = s.sel ∧ (setPinMark p b c s).1.snd = s.snd ∧
    (setPinMark p b c s).1.home = s.home ∧ (setPinMark p b c s).1.store = s.store ∧
    (setPinMark p b c s).1.log = s.log ∧ (setPinMark p b c s).1.cues = s.cues ∧ (setPinMark p b c s).1.xfer = s.xfer ∧
    (setPinMark p b c s).1.ctl = s.ctl := by
  simp only [setPinMark, refuse]
  (repeat' split) <;> simp

@[simp] theorem setPinLine_frame (p : Fin 12) (c : Command) :
    (setPinLine p c s).1.pending = s.pending ∧ (setPinLine p c s).1.dram = s.dram ∧
    (setPinLine p c s).1.epIn = s.epIn ∧ (setPinLine p c s).1.port = s.port ∧ (setPinLine p c s).1.ins = s.ins ∧
    (setPinLine p c s).1.aps = s.aps ∧ (setPinLine p c s).1.clock = s.clock ∧ (setPinLine p c s).1.lanes = s.lanes ∧
    (setPinLine p c s).1.sel = s.sel ∧ (setPinLine p c s).1.snd = s.snd ∧ (setPinLine p c s).1.home = s.home ∧
    (setPinLine p c s).1.store = s.store ∧ (setPinLine p c s).1.log = s.log ∧ (setPinLine p c s).1.cues = s.cues ∧
    (setPinLine p c s).1.xfer = s.xfer ∧ (setPinLine p c s).1.ctl = s.ctl := by
  simp only [setPinLine, refuse]
  (repeat' split) <;> simp

@[simp] theorem setPin_frame (b : BitVec 12) (c : Command) :
    (setPin b c s).1.pending = s.pending ∧ (setPin b c s).1.dram = s.dram ∧ (setPin b c s).1.epIn = s.epIn ∧
    (setPin b c s).1.port = s.port ∧ (setPin b c s).1.ins = s.ins ∧ (setPin b c s).1.aps = s.aps ∧
    (setPin b c s).1.clock = s.clock ∧ (setPin b c s).1.lanes = s.lanes ∧ (setPin b c s).1.sel = s.sel ∧
    (setPin b c s).1.snd = s.snd ∧ (setPin b c s).1.home = s.home ∧ (setPin b c s).1.store = s.store ∧
    (setPin b c s).1.log = s.log ∧ (setPin b c s).1.cues = s.cues ∧ (setPin b c s).1.xfer = s.xfer ∧
    (setPin b c s).1.ctl = s.ctl := by
  simp only [setPin, refuse]
  (repeat' split) <;> simp

@[simp] theorem setLineLevels_frame (c : Command) :
    (setLineLevels c s).1.pending = s.pending ∧ (setLineLevels c s).1.dram = s.dram ∧
    (setLineLevels c s).1.epIn = s.epIn ∧ (setLineLevels c s).1.port = s.port ∧ (setLineLevels c s).1.ins = s.ins ∧
    (setLineLevels c s).1.aps = s.aps ∧ (setLineLevels c s).1.clock = s.clock ∧
    (setLineLevels c s).1.lanes = s.lanes ∧ (setLineLevels c s).1.sel = s.sel ∧ (setLineLevels c s).1.snd = s.snd ∧
    (setLineLevels c s).1.home = s.home ∧ (setLineLevels c s).1.store = s.store ∧ (setLineLevels c s).1.log = s.log ∧
    (setLineLevels c s).1.cues = s.cues ∧ (setLineLevels c s).1.xfer = s.xfer ∧
    (setLineLevels c s).1.ctl = s.ctl := by
  simp only [setLineLevels, refuse]
  (repeat' split) <;> simp

@[simp] theorem setNotices_frame (c : Command) :
    (setNotices c s).1.pending = s.pending ∧ (setNotices c s).1.dram = s.dram ∧ (setNotices c s).1.epIn = s.epIn ∧
    (setNotices c s).1.port = s.port ∧ (setNotices c s).1.ins = s.ins ∧ (setNotices c s).1.aps = s.aps ∧
    (setNotices c s).1.clock = s.clock ∧ (setNotices c s).1.lanes = s.lanes ∧ (setNotices c s).1.sel = s.sel ∧
    (setNotices c s).1.snd = s.snd ∧ (setNotices c s).1.home = s.home ∧ (setNotices c s).1.store = s.store ∧
    (setNotices c s).1.pins = s.pins ∧ (setNotices c s).1.log = s.log ∧ (setNotices c s).1.cues = s.cues ∧
    (setNotices c s).1.xfer = s.xfer := by
  simp only [setNotices, refuse]
  (repeat' split) <;> simp

@[simp] theorem addCue_frame (c : Command) :
    (addCue c s).1.pending = s.pending ∧ (addCue c s).1.dram = s.dram ∧ (addCue c s).1.epIn = s.epIn ∧
    (addCue c s).1.port = s.port ∧ (addCue c s).1.ins = s.ins ∧ (addCue c s).1.aps = s.aps ∧
    (addCue c s).1.clock = s.clock ∧ (addCue c s).1.lanes = s.lanes ∧ (addCue c s).1.sel = s.sel ∧
    (addCue c s).1.snd = s.snd ∧ (addCue c s).1.home = s.home ∧ (addCue c s).1.store = s.store ∧
    (addCue c s).1.pins = s.pins ∧ (addCue c s).1.log = s.log ∧ (addCue c s).1.xfer = s.xfer ∧
    (addCue c s).1.ctl = s.ctl := by
  simp only [addCue, refuse]
  (repeat' split) <;> simp

@[simp] theorem removeCue_frame (n : Nat) :
    (removeCue n s).pending = s.pending ∧ (removeCue n s).dram = s.dram ∧ (removeCue n s).epIn = s.epIn ∧
    (removeCue n s).port = s.port ∧ (removeCue n s).ins = s.ins ∧ (removeCue n s).aps = s.aps ∧
    (removeCue n s).clock = s.clock ∧ (removeCue n s).lanes = s.lanes ∧ (removeCue n s).sel = s.sel ∧
    (removeCue n s).snd = s.snd ∧ (removeCue n s).home = s.home ∧ (removeCue n s).store = s.store ∧
    (removeCue n s).pins = s.pins ∧ (removeCue n s).log = s.log ∧ (removeCue n s).xfer = s.xfer ∧
    (removeCue n s).ctl = s.ctl := by
  simp [removeCue]

@[simp] theorem cancelCue_frame (c : Command) :
    (cancelCue c s).1.pending = s.pending ∧ (cancelCue c s).1.dram = s.dram ∧ (cancelCue c s).1.epIn = s.epIn ∧
    (cancelCue c s).1.port = s.port ∧ (cancelCue c s).1.ins = s.ins ∧ (cancelCue c s).1.aps = s.aps ∧
    (cancelCue c s).1.clock = s.clock ∧ (cancelCue c s).1.lanes = s.lanes ∧ (cancelCue c s).1.sel = s.sel ∧
    (cancelCue c s).1.snd = s.snd ∧ (cancelCue c s).1.home = s.home ∧ (cancelCue c s).1.store = s.store ∧
    (cancelCue c s).1.pins = s.pins ∧ (cancelCue c s).1.log = s.log ∧ (cancelCue c s).1.xfer = s.xfer ∧
    (cancelCue c s).1.ctl = s.ctl := by
  simp only [cancelCue, refuse]
  (repeat' split) <;> simp

@[simp] theorem forceCue_frame (c : Command) :
    (forceCue c s).1.pending = s.pending ∧ (forceCue c s).1.dram = s.dram ∧ (forceCue c s).1.epIn = s.epIn ∧
    (forceCue c s).1.port = s.port ∧ (forceCue c s).1.aps = s.aps ∧ (forceCue c s).1.clock = s.clock ∧
    (forceCue c s).1.lanes = s.lanes ∧ (forceCue c s).1.store = s.store ∧ (forceCue c s).1.xfer = s.xfer := by
  simp only [forceCue, refuse]
  (repeat' split) <;> simp

@[simp] theorem clipMark_frame (c : Command) :
    (clipMark c s).1.pending = s.pending ∧ (clipMark c s).1.dram = s.dram ∧ (clipMark c s).1.epIn = s.epIn ∧
    (clipMark c s).1.port = s.port ∧ (clipMark c s).1.aps = s.aps ∧ (clipMark c s).1.clock = s.clock ∧
    (clipMark c s).1.lanes = s.lanes ∧ (clipMark c s).1.sel = s.sel ∧ (clipMark c s).1.snd = s.snd ∧
    (clipMark c s).1.store = s.store ∧ (clipMark c s).1.pins = s.pins ∧ (clipMark c s).1.cues = s.cues ∧
    (clipMark c s).1.xfer = s.xfer := by
  simp only [clipMark, refuse]
  (repeat' split) <;> simp

@[simp] theorem clipLabel_frame (c : Command) :
    (clipLabel c s).1.pending = s.pending ∧ (clipLabel c s).1.dram = s.dram ∧ (clipLabel c s).1.epIn = s.epIn ∧
    (clipLabel c s).1.port = s.port ∧ (clipLabel c s).1.aps = s.aps ∧ (clipLabel c s).1.clock = s.clock ∧
    (clipLabel c s).1.lanes = s.lanes ∧ (clipLabel c s).1.sel = s.sel ∧ (clipLabel c s).1.snd = s.snd ∧
    (clipLabel c s).1.store = s.store ∧ (clipLabel c s).1.pins = s.pins ∧ (clipLabel c s).1.cues = s.cues ∧
    (clipLabel c s).1.xfer = s.xfer := by
  simp only [clipLabel, refuse]
  (repeat' split) <;> simp

@[simp] theorem clipDelete_frame (c : Command) :
    (clipDelete c s).1.pending = s.pending ∧ (clipDelete c s).1.dram = s.dram ∧ (clipDelete c s).1.epIn = s.epIn ∧
    (clipDelete c s).1.port = s.port ∧ (clipDelete c s).1.aps = s.aps ∧ (clipDelete c s).1.clock = s.clock ∧
    (clipDelete c s).1.lanes = s.lanes ∧ (clipDelete c s).1.sel = s.sel ∧ (clipDelete c s).1.snd = s.snd ∧
    (clipDelete c s).1.home = s.home ∧ (clipDelete c s).1.store = s.store ∧ (clipDelete c s).1.pins = s.pins ∧
    (clipDelete c s).1.cues = s.cues ∧ (clipDelete c s).1.xfer = s.xfer ∧ (clipDelete c s).1.ctl = s.ctl := by
  simp only [clipDelete, refuse]
  (repeat' split) <;> simp

@[simp] theorem sendClip_frame (c : Command) :
    (sendClip c s).1.pending = s.pending ∧ (sendClip c s).1.dram = s.dram ∧ (sendClip c s).1.epIn = s.epIn ∧
    (sendClip c s).1.port = s.port ∧ (sendClip c s).1.aps = s.aps ∧ (sendClip c s).1.clock = s.clock ∧
    (sendClip c s).1.lanes = s.lanes ∧ (sendClip c s).1.sel = s.sel ∧ (sendClip c s).1.snd = s.snd ∧
    (sendClip c s).1.home = s.home ∧ (sendClip c s).1.store = s.store ∧ (sendClip c s).1.pins = s.pins ∧
    (sendClip c s).1.cues = s.cues := by
  simp only [sendClip, refuse]
  (repeat' split) <;> simp

@[simp] theorem abortSend_frame (c : Command) :
    (abortSend c s).1.pending = s.pending ∧ (abortSend c s).1.dram = s.dram ∧ (abortSend c s).1.epIn = s.epIn ∧
    (abortSend c s).1.port = s.port ∧ (abortSend c s).1.aps = s.aps ∧ (abortSend c s).1.clock = s.clock ∧
    (abortSend c s).1.lanes = s.lanes ∧ (abortSend c s).1.sel = s.sel ∧ (abortSend c s).1.snd = s.snd ∧
    (abortSend c s).1.store = s.store ∧ (abortSend c s).1.pins = s.pins ∧ (abortSend c s).1.cues = s.cues := by
  simp only [abortSend, refuse]
  (repeat' split) <;> simp

@[simp] theorem clearMedia_frame (c : Command) :
    (clearMedia c s).1.pending = s.pending ∧ (clearMedia c s).1.dram = s.dram ∧ (clearMedia c s).1.epIn = s.epIn ∧
    (clearMedia c s).1.port = s.port ∧ (clearMedia c s).1.aps = s.aps ∧ (clearMedia c s).1.clock = s.clock ∧
    (clearMedia c s).1.sel = s.sel ∧ (clearMedia c s).1.pins = s.pins := by
  simp [clearMedia]

@[simp] theorem unknownCommand_frame (c : Command) :
    (unknownCommand c s).1.pending = s.pending ∧ (unknownCommand c s).1.dram = s.dram ∧
    (unknownCommand c s).1.epIn = s.epIn ∧ (unknownCommand c s).1.port = s.port ∧ (unknownCommand c s).1.ins = s.ins ∧
    (unknownCommand c s).1.aps = s.aps ∧ (unknownCommand c s).1.clock = s.clock ∧
    (unknownCommand c s).1.lanes = s.lanes ∧ (unknownCommand c s).1.sel = s.sel ∧ (unknownCommand c s).1.snd = s.snd ∧
    (unknownCommand c s).1.home = s.home ∧ (unknownCommand c s).1.store = s.store ∧
    (unknownCommand c s).1.pins = s.pins ∧ (unknownCommand c s).1.log = s.log ∧ (unknownCommand c s).1.cues = s.cues ∧
    (unknownCommand c s).1.xfer = s.xfer ∧ (unknownCommand c s).1.ctl = s.ctl := by
  simp [unknownCommand, refuse]

/-! ## A command carried out (R175) -/

@[simp] theorem carryOut_pending {p : Nat → Bool} {f : Command → State → State × Result}
    (h : ∀ c, (f c s).1.pending = s.pending) : (carryOut p f s).pending = s.pending := by
  simp only [carryOut]
  (repeat' split) <;> simp [finish, h]

@[simp] theorem carryOut_dram {p : Nat → Bool} {f : Command → State → State × Result}
    (h : ∀ c, (f c s).1.dram = s.dram) : (carryOut p f s).dram = s.dram := by
  simp only [carryOut]
  (repeat' split) <;> simp [finish, h]

@[simp] theorem carryOut_epIn {p : Nat → Bool} {f : Command → State → State × Result}
    (h : ∀ c, (f c s).1.epIn = s.epIn) : (carryOut p f s).epIn = s.epIn := by
  simp only [carryOut]
  (repeat' split) <;> simp [finish, h]

@[simp] theorem carryOut_port {p : Nat → Bool} {f : Command → State → State × Result}
    (h : ∀ c, (f c s).1.port = s.port) : (carryOut p f s).port = s.port := by
  simp only [carryOut]
  (repeat' split) <;> simp [finish, h]

@[simp] theorem carryOut_aps {p : Nat → Bool} {f : Command → State → State × Result}
    (h : ∀ c, (f c s).1.aps = s.aps) : (carryOut p f s).aps = s.aps := by
  simp only [carryOut]
  (repeat' split) <;> simp [finish, h]

@[simp] theorem carryOut_clock {p : Nat → Bool} {f : Command → State → State × Result}
    (h : ∀ c, (f c s).1.clock = s.clock) : (carryOut p f s).clock = s.clock := by
  simp only [carryOut]
  (repeat' split) <;> simp [finish, h]

@[simp] theorem carryOut_lanes {p : Nat → Bool} {f : Command → State → State × Result}
    (h : ∀ c, (f c s).1.lanes = s.lanes) : (carryOut p f s).lanes = s.lanes := by
  simp only [carryOut]
  (repeat' split) <;> simp [finish, h]

@[simp] theorem carryOut_sel {p : Nat → Bool} {f : Command → State → State × Result}
    (h : ∀ c, (f c s).1.sel = s.sel) : (carryOut p f s).sel = s.sel := by
  simp only [carryOut]
  (repeat' split) <;> simp [finish, h]

@[simp] theorem carryOut_snd {p : Nat → Bool} {f : Command → State → State × Result}
    (h : ∀ c, (f c s).1.snd = s.snd) : (carryOut p f s).snd = s.snd := by
  simp only [carryOut]
  (repeat' split) <;> simp [finish, h]

@[simp] theorem carryOut_home {p : Nat → Bool} {f : Command → State → State × Result}
    (h : ∀ c, (f c s).1.home = s.home) : (carryOut p f s).home = s.home := by
  simp only [carryOut]
  (repeat' split) <;> simp [finish, h]

@[simp] theorem carryOut_store {p : Nat → Bool} {f : Command → State → State × Result}
    (h : ∀ c, (f c s).1.store = s.store) : (carryOut p f s).store = s.store := by
  simp only [carryOut]
  (repeat' split) <;> simp [finish, h]

@[simp] theorem carryOut_pins {p : Nat → Bool} {f : Command → State → State × Result}
    (h : ∀ c, (f c s).1.pins = s.pins) : (carryOut p f s).pins = s.pins := by
  simp only [carryOut]
  (repeat' split) <;> simp [finish, h]

@[simp] theorem carryOut_log {p : Nat → Bool} {f : Command → State → State × Result}
    (h : ∀ c, (f c s).1.log = s.log) : (carryOut p f s).log = s.log := by
  simp only [carryOut]
  (repeat' split) <;> simp [finish, h]

@[simp] theorem carryOut_cues {p : Nat → Bool} {f : Command → State → State × Result}
    (h : ∀ c, (f c s).1.cues = s.cues) : (carryOut p f s).cues = s.cues := by
  simp only [carryOut]
  (repeat' split) <;> simp [finish, h]

@[simp] theorem carryOut_xfer {p : Nat → Bool} {f : Command → State → State × Result}
    (h : ∀ c, (f c s).1.xfer = s.xfer) : (carryOut p f s).xfer = s.xfer := by
  simp only [carryOut]
  (repeat' split) <;> simp [finish, h]

end Sys2Proof.Machine
end

