-- ==== Sys2Proof/Laws/Exec.lean ====
section
/-! SUPPORT. What exec answers, command by command; one lemma for each, and one for a command carried out. -/

namespace Sys2Proof.Machine

variable (s : State)

@[simp] theorem exec_setAperture : exec .setAperture s = .next (acceptHeld (carryOut (codeIs 1) setAperture s)) :=
  rfl
@[simp] theorem exec_clearAperture : exec .clearAperture s = .next (acceptHeld (carryOut (codeIs 2) clearAperture s)) :=
  rfl
@[simp] theorem exec_setClock : exec .setClock s = .next (carryOut (codeIs 3) setClock s) := rfl
@[simp] theorem exec_presetTimecode : exec .presetTimecode s = .next (carryOut (codeIs 4) presetTimecode s) := rfl
@[simp] theorem exec_setPicture : exec .setPicture s = .next (carryOut (codeIs 5) setPicture s) := rfl
@[simp] theorem exec_setLane : exec .setLane s = .next (carryOut (codeIs 6) setLane s) := rfl
@[simp] theorem exec_setProgram : exec .setProgram s = .next (carryOut (codeIs 7) setProgram s) := rfl
@[simp] theorem exec_setSound : exec .setSound s = .next (carryOut (codeIs 8) setSound s) := rfl
@[simp] theorem exec_setTap : exec .setTap s = .next (carryOut (codeIs 9) setTap s) := rfl
@[simp] theorem exec_setBus : exec .setBus s = .next (carryOut (codeIs 10) setBus s) := rfl
@[simp] theorem exec_setPath : exec .setPath s = .next (carryOut (codeIs 11) setPath s) := rfl
@[simp] theorem exec_setRoute : exec .setRoute s = .next (carryOut (codeIs 12) setRoute s) := rfl
@[simp] theorem exec_setStore : exec .setStore s = .next (carryOut (codeIs 13) setStore s) := rfl
@[simp] theorem exec_setPin (b : BitVec 12) : exec (.setPin b) s = .next (carryOut (codeIs 14) (setPin b) s) := rfl
@[simp] theorem exec_setLineLevels : exec .setLineLevels s = .next (carryOut (codeIs 15) setLineLevels s) := rfl
@[simp] theorem exec_addCue : exec .addCue s = .next (carryOut (codeIs 16) addCue s) := rfl
@[simp] theorem exec_cancelCue : exec .cancelCue s = .next (carryOut (codeIs 17) cancelCue s) := rfl
@[simp] theorem exec_forceCue : exec .forceCue s = .next (carryOut (codeIs 18) forceCue s) := rfl
@[simp] theorem exec_clipMark : exec .clipMark s = .next (carryOut (codeIs 19) clipMark s) := rfl
@[simp] theorem exec_clipLabel : exec .clipLabel s = .next (carryOut (codeIs 20) clipLabel s) := rfl
@[simp] theorem exec_clipDelete : exec .clipDelete s = .next (carryOut (codeIs 21) clipDelete s) := rfl
@[simp] theorem exec_sendClip : exec .sendClip s = .next (carryOut (codeIs 22) sendClip s) := rfl
@[simp] theorem exec_abortSend : exec .abortSend s = .next (carryOut (codeIs 23) abortSend s) := rfl
@[simp] theorem exec_setNotices : exec .setNotices s = .next (carryOut (codeIs 24) setNotices s) := rfl
@[simp] theorem exec_clearMedia : exec .clearMedia s = .next (carryOut (codeIs 25) clearMedia s) := rfl
@[simp] theorem exec_unknownCommand : exec .unknownCommand s = .next (carryOut (fun n => decide (25 < n)) unknownCommand s) :=
  rfl
@[simp] theorem exec_downstreamGrant : exec .downstreamGrant s = .next (acceptHeld (settleWrites (grant s))) := rfl
@[simp] theorem exec_readServed : exec .readServed s = .next (serveRead s) := rfl
@[simp] theorem exec_insertQueueJoin : exec .insertQueueJoin s = .next (joinOne s) := rfl
@[simp] theorem exec_sampleTick (t : TickIn) : exec (.sampleTick t) s = .next (tick t s) := rfl
@[simp] theorem exec_frameTick (t : TickIn) : exec (.frameTick t) s = .next (tickWhen (frameTickDue s) t s) := rfl
@[simp] theorem exec_frameCountWrap (t : TickIn) : exec (.frameCountWrap t) s = .next (tickWhen (frameTickDue s && s.clock.wrapDue) t s) :=
  rfl
@[simp] theorem exec_midnight (t : TickIn) : exec (.midnight t) s = .next (tickWhen (frameTickDue s && s.clock.midnightDue) t s) :=
  rfl
@[simp] theorem exec_refLost (t : TickIn) : exec (.refLost t) s = .next (tickWhen (frameTickDue s && s.clock.lossDue) t s) :=
  rfl
@[simp] theorem exec_refPulse : exec .refPulse s = .next (refPulse s) := rfl
@[simp] theorem exec_soundSilent (i : Fin 4) (t : TickIn) : exec (.soundSilent i t) s = .next (tickWhen (silentDue i s) t s) :=
  rfl
@[simp] theorem exec_soundUnitClose (t : TickIn) : exec (.soundUnitClose t) s = .next (tickWhen (unitCloseDue s) t s) :=
  rfl
@[simp] theorem exec_markConfirm (p : Fin 12) (t : TickIn) : exec (.markConfirm p t) s = .next (tickWhen (confirmDue p t.levels s) t s) :=
  rfl
@[simp] theorem exec_stall (p : Fin 2) (t : TickIn) : exec (.stall p t) s = .next (tickWhen (stallDue p s) t s) := rfl
@[simp] theorem exec_cueFiring (t : TickIn) : exec (.cueFiring t) s = .next (tickWhen (cueDueNext s) t s) := rfl
@[simp] theorem exec_transferReadIssue : exec .transferReadIssue s = .next (issueReads s) := rfl
@[simp] theorem exec_storeReadServed : exec .storeReadServed s = .next (serveStoreRead s) := rfl
@[simp] theorem exec_linkUp : exec .linkUp s = .next (acceptHeld (s.modPort fun q => { q with linkUp := true })) :=
  rfl

/-- A command at the head of the queue with the code asked for is carried out and answered (R175). -/
theorem carryOut_head {p : Nat → Bool} {f : Command → State → State × Result} {c : Command} {rest : List Command}
    {s : State} (h : s.ctl.queue = c :: rest) (hp : p c.code = true) :
    carryOut p f s = Safety.answered c (f c s).2 (f c s).1 := by
  simp only [carryOut, h, hp]
  rfl

/-- With no command of the code asked for at the head of the queue nothing happens. -/
theorem carryOut_other {p : Nat → Bool} {f : Command → State → State × Result} {s : State}
    (h : ∀ c, s.ctl.queue.head? = some c → p c.code = false) : carryOut p f s = s := by
  unfold carryOut
  cases hq : s.ctl.queue with
  | nil => rfl
  | cons c rest => simp [h c (by simp [hq])]

/-- An invariant that a command's effect keeps and that no answer breaks is kept by the command carried out. -/
theorem carryOut_keeps {Inv : State → Prop} {p : Nat → Bool} {f : Command → State → State × Result} {s : State}
    (hi : Inv s) (hf : ∀ c, Inv (f c s).1) (ha : ∀ c r t, Inv t → Inv (finish c (t, r))) : Inv (carryOut p f s) := by
  unfold carryOut
  split
  · exact hi
  · split
    · exact ha _ _ _ (hf _)
    · exact hi

/-- A step runs the command at the front of the queue of waiting commands. -/
theorem step_cons {c : Instr} {rest : List Instr} (h : s.pending = c :: rest) :
    step s = exec c { s with pending := rest } := by
  simp only [step, h]

/-- With an empty queue a step leaves the state. -/
theorem step_nil (h : s.pending = []) : step s = .next s := by
  simp only [step, h]

end Sys2Proof.Machine
end

