-- ==== Sys2Proof/Laws/Memory.lean ====
section
/-! SUPPORT. DRAM: every memory operation keeps the canonical form; reading after writing. -/

namespace Sys2Proof.Machine.Mem

/-- Every listed address is at least `lo`. -/
def AtLeast (lo : Nat) (m : Memory) : Prop := ∀ c ∈ m, lo ≤ c.1

theorem wf_nil : wf [] = true := rfl

theorem wf_cons (a : Nat) (b : Byte) (m : Memory) :
    wf ((a, b) :: m) = true ↔ b ≠ Config.unwrittenByte ∧ AtLeast (a + 1) m ∧ wf m = true := by
  induction m generalizing a b with
  | nil => simp [wf, AtLeast]
  | cons c rest ih =>
    obtain ⟨k, d⟩ := c
    rw [wf, ih]
    simp only [Bool.and_eq_true, decide_eq_true_eq, ih, AtLeast, List.mem_cons, forall_eq_or_imp]
    constructor
    · rintro ⟨⟨h1, h2⟩, h3, h4, h5⟩
      exact ⟨h1, ⟨h2, fun c hc => Nat.le_trans (by omega) (h4 c hc)⟩, h3, h4, h5⟩
    · rintro ⟨h1, ⟨h2, _⟩, h3, h4, h5⟩
      exact ⟨⟨h1, h2⟩, h3, h4, h5⟩

theorem cons_wf {a : Nat} {b : Byte} {m : Memory} (h : wf m = true) (hl : AtLeast (a + 1) m) :
    wf (cons a b m) = true := by
  unfold cons
  split
  · exact h
  · next hb => exact (wf_cons a b m).2 ⟨hb, hl, h⟩

theorem write_atLeast {lo a : Nat} {b : Byte} {m : Memory} (h : AtLeast lo m) (ha : lo ≤ a) :
    AtLeast lo (write m a b) := by
  induction m with
  | nil =>
    unfold write cons
    split <;> simp [AtLeast, ha]
  | cons c rest ih =>
    obtain ⟨k, d⟩ := c
    simp only [AtLeast, List.mem_cons, forall_eq_or_imp] at h
    unfold write
    split
    · unfold cons; split
      · exact h.2
      · intro c hc; rcases List.mem_cons.1 hc with rfl | hc
        · exact ha
        · exact h.2 c hc
    · split
      · unfold cons; split
        · intro c hc; rcases List.mem_cons.1 hc with rfl | hc
          · exact h.1
          · exact h.2 c hc
        · intro c hc; rcases List.mem_cons.1 hc with rfl | hc
          · exact ha
          · rcases List.mem_cons.1 hc with rfl | hc
            · exact h.1
            · exact h.2 c hc
      · intro c hc; rcases List.mem_cons.1 hc with rfl | hc
        · exact h.1
        · exact ih h.2 c hc

/-- Writing one byte keeps the canonical form. -/
theorem write_wf {m : Memory} (h : wf m = true) (a : Nat) (b : Byte) : wf (write m a b) = true := by
  induction m with
  | nil => exact cons_wf rfl (by simp [AtLeast])
  | cons c rest ih =>
    obtain ⟨k, d⟩ := c
    have hw := (wf_cons k d rest).1 h
    unfold write
    split
    · next e => exact cons_wf hw.2.2 (e ▸ hw.2.1)
    · split
      · next hlt =>
        refine cons_wf h ?_
        intro c hc
        rcases List.mem_cons.1 hc with rfl | hc
        · exact hlt
        · exact Nat.le_trans (by omega) (hw.2.1 c hc)
      · next hne hnlt => exact (wf_cons k d _).2 ⟨hw.1, write_atLeast hw.2.1 (by omega), ih hw.2.2⟩

/-- Writing bytes keeps the canonical form. -/
theorem writeBytes_wf {m : Memory} (h : wf m = true) (a : Nat) (bs : List Byte) : wf (writeBytes m a bs) = true := by
  induction bs generalizing m a with
  | nil => exact h
  | cons b bs ih => exact ih (write_wf h a b) (a + 1)

theorem read_below {m : Memory} {x : Nat} (h : AtLeast (x + 1) m) : read m x = Config.unwrittenByte := by
  cases m with
  | nil => rfl
  | cons c rest =>
    obtain ⟨k, d⟩ := c
    have := h (k, d) (by simp)
    simp only at this
    unfold read
    rw [if_neg (by omega), if_pos (by omega)]

theorem read_cons (m : Memory) (a : Nat) (b : Byte) (x : Nat) (hl : AtLeast (a + 1) m) :
    read (cons a b m) x = if x = a then b else read m x := by
  unfold cons
  split
  · next hb =>
    split
    · next e => rw [e, hb]; exact read_below hl
    · rfl
  · rw [read]
    by_cases e : a = x
    · rw [if_pos e, if_pos e.symm]
    · rw [if_neg e, if_neg (show ¬x = a from fun h => e h.symm)]
      by_cases hlt : x < a
      · rw [if_pos hlt]
        exact (read_below fun c hc => Nat.le_trans (by omega) (hl c hc)).symm
      · rw [if_neg hlt]

/-- Reading a byte after one byte is written: the written place gives it, every other place is as before. -/
theorem read_write {m : Memory} (h : wf m = true) (a : Nat) (b : Byte) (x : Nat) :
    read (write m a b) x = if x = a then b else read m x := by
  induction m with
  | nil => exact read_cons [] a b x (by simp [AtLeast])
  | cons c rest ih =>
    obtain ⟨k, d⟩ := c
    have hw := (wf_cons k d rest).1 h
    unfold write
    split
    · next e =>
      subst e
      rw [read_cons _ _ _ _ hw.2.1, read]
      split
      · rfl
      · next hx =>
        rw [if_neg (fun e => hx e.symm)]
        split
        · next hlt => exact read_below fun c hc => Nat.le_trans (by omega) (hw.2.1 c hc)
        · rfl
    · split
      · next hlt =>
        refine read_cons _ _ _ _ ?_
        intro c hc
        rcases List.mem_cons.1 hc with rfl | hc
        · exact hlt
        · exact Nat.le_trans (by omega) (hw.2.1 c hc)
      · next hne hnlt =>
        rw [read, ih hw.2.2, read]
        by_cases hxa : x = a
        · subst hxa
          rw [if_neg hne, if_neg (by omega), if_pos rfl, if_pos rfl]
        · simp only [if_neg hxa]

/-- Reading a byte after bytes are written. -/
theorem read_writeBytes {m : Memory} (h : wf m = true) (a : Nat) (bs : List Byte) (x : Nat) :
    read (writeBytes m a bs) x = if a ≤ x then bs.getD (x - a) (read m x) else read m x := by
  induction bs generalizing m a with
  | nil => simp [writeBytes]
  | cons b bs ih =>
    rw [writeBytes, ih (write_wf h a b), read_write h]
    by_cases hx : x = a
    · subst hx
      simp
    · by_cases hle : a + 1 ≤ x
      · rw [if_pos hle, if_neg hx, if_pos (by omega)]
        obtain ⟨k, rfl⟩ : ∃ k, x = a + 1 + k := ⟨x - (a + 1), by omega⟩
        rw [show a + 1 + k - a = k + 1 by omega, show a + 1 + k - (a + 1) = k by omega]
        simp
      · rw [if_neg hle, if_neg hx, if_neg (by omega)]

/-- Memory with nothing listed has the canonical form. -/
theorem reset_wf : wf State.reset.dram = true := rfl

end Sys2Proof.Machine.Mem
end

