-- ==== Sys2Proof/Laws/Table.lean ====
section
/-! SUPPORT. The fixed-size table: reading after a change, at the changed place and elsewhere. -/

namespace Sys2Proof.Table

variable {α β : Type} {n : Nat}

@[ext] theorem ext_items {t u : Table α n} (h : t.items = u.items) : t = u := by
  cases t; cases u; cases h; rfl

@[simp] theorem get_set_self (t : Table α n) (i : Fin n) (a : α) : (t.set i a).get i = a := by
  simp [get, set]

theorem get_set (t : Table α n) (i j : Fin n) (a : α) : (t.set i a).get j = if i = j then a else t.get j := by
  simp only [get, set, List.getElem_set, Fin.ext_iff]

@[simp] theorem get_set_ne (t : Table α n) {i j : Fin n} (a : α) (h : i ≠ j) : (t.set i a).get j = t.get j := by
  rw [get_set, if_neg h]

@[simp] theorem get_modify_self (t : Table α n) (i : Fin n) (f : α → α) : (t.modify i f).get i = f (t.get i) := by
  simp [modify]

theorem get_modify (t : Table α n) (i j : Fin n) (f : α → α) :
    (t.modify i f).get j = if i = j then f (t.get j) else t.get j := by
  rw [modify, get_set]
  split
  · next h => rw [h]
  · rfl

@[simp] theorem get_modify_ne (t : Table α n) {i j : Fin n} (f : α → α) (h : i ≠ j) :
    (t.modify i f).get j = t.get j := by
  rw [get_modify, if_neg h]

@[simp] theorem get_fill (a : α) (i : Fin n) : (fill n a).get i = a := by simp [get, fill]

@[simp] theorem get_map (f : α → β) (t : Table α n) (i : Fin n) : (t.map f).get i = f (t.get i) := by
  simp [get, map]

@[simp] theorem get_ofFn (f : Fin n → α) (i : Fin n) : (ofFn f).get i = f i := by simp [get, ofFn]

/-- Two tables with the same entries are the same table. -/
theorem ext_get {t u : Table α n} (h : ∀ i, t.get i = u.get i) : t = u := by
  apply ext_items
  apply List.ext_getElem (by rw [t.size_eq, u.size_eq])
  intro k h1 _
  exact h ⟨k, by rw [← t.size_eq]; exact h1⟩

/-- Changes at one place compose. -/
@[simp] theorem modify_modify (t : Table α n) (i : Fin n) (f g : α → α) :
    (t.modify i f).modify i g = t.modify i (g ∘ f) := by
  apply ext_get
  intro j
  simp only [get_modify]
  split <;> simp

/-- A change that leaves the entry as it was leaves the table. -/
theorem modify_id (t : Table α n) (i : Fin n) {f : α → α} (h : f (t.get i) = t.get i) : t.modify i f = t := by
  apply ext_get
  intro j
  rw [get_modify]
  split
  · next e => rw [← e, h]
  · rfl

theorem mem_items {t : Table α n} {a : α} : a ∈ t.items ↔ ∃ i, t.get i = a := by
  constructor
  · intro h
    obtain ⟨k, hk, rfl⟩ := List.getElem_of_mem h
    exact ⟨⟨k, by rw [← t.size_eq]; exact hk⟩, rfl⟩
  · rintro ⟨i, rfl⟩
    exact List.getElem_mem _

end Sys2Proof.Table
end

