-- ==== Sys2Proof/Laws/Ops.lean ====
section
/-! SUPPORT. What the shared operations can do, each said once: numbers in range, entries and notices, ordered lists,
repetition, DRAM after the granted writes, the acceptance of held requests. -/

namespace Sys2Proof.Machine

/-! ## Numbers in range -/

@[simp] theorem asFin_val {n : Nat} (i : Fin n) : asFin n i.val = some i := by simp [asFin]

theorem asFin_eq_none {n v : Nat} : asFin n v = none ↔ n ≤ v := by
  unfold asFin
  split
  · next h => simp [h]
  · next h => simp; omega

theorem asFin_lt {n v : Nat} (h : v < n) : asFin n v = some ⟨v, h⟩ := by simp [asFin, h]

theorem asFin_some {n v : Nat} {i : Fin n} (h : asFin n v = some i) : v = i.val := by
  unfold asFin at h
  split at h
  · cases h; rfl
  · cases h

/-- The sixteen functions and their numbers (R4). -/
@[simp] theorem Fn.num_ofNum (n : Fin 16) : (Fn.ofNum n).num = n := by revert n; decide

@[simp] theorem Fn.ofNum_num (f : Fn) : Fn.ofNum f.num = f := by
  cases f with
  | picture i => revert i; decide
  | sound i => revert i; decide
  | path p => revert p; decide
  | _ => rfl

theorem Fn.num_inj {f g : Fn} (h : f.num = g.num) : f = g := by
  rw [← Fn.ofNum_num f, ← Fn.ofNum_num g, h]

/-! ## The map after a change of one entry (R5) -/

theorem ap_setEntry (f g : Fn) (e : Option Aperture) (s : State) :
    ap g (setEntry f e s) = if f = g then e else ap g s := by
  simp only [ap, setEntry, State.modAps_aps, Table.get_set]
  by_cases h : f = g
  · simp [h]
  · rw [if_neg h, if_neg fun e => h (Fn.num_inj e)]

/-- What reads only the map reads the same in states with the same map. -/
theorem ap_congr {s t : State} (h : t.aps = s.aps) (f : Fn) : ap f t = ap f s := by simp only [ap, h]

/-! ## Entries and notices (R12, R178) -/

/-- The holds after one entry. -/
theorem push_holds (b b' : Fin 6) (e : InsEntry) (s : State) :
    (push b e s).ins.holds.get b' = if b = b' then s.ins.holds.get b' ++ [e] else s.ins.holds.get b' := by
  simp only [push, State.modIns_ins, Table.get_modify]

/-- The holds after several entries. -/
theorem pushAll_holds (b b' : Fin 6) (es : List InsEntry) (s : State) :
    (pushAll b es s).ins.holds.get b' = if b = b' then s.ins.holds.get b' ++ es else s.ins.holds.get b' := by
  simp only [pushAll, State.modIns_ins, Table.get_modify]

/-- A notice is lost or written (R178). -/
theorem raiseAt_cases (frame : W32) (tc : Nat) (kind : NoticeKind) (subject : Nat) (items : List Item) (s : State) :
    (raiseAt frame tc kind subject items s = s.modCtl (Control.lose 1)
      ∧ ∀ a, ap .notices s = some a → noticeSlots a.size ≤ s.ctl.written - s.ctl.released)
    ∨ ∃ a es, ap .notices s = some a ∧ s.ctl.written - s.ctl.released < noticeSlots a.size
      ∧ (∀ e ∈ es, e.eff = .nothing)
      ∧ raiseAt frame tc kind subject items s = (pushAll byControl es s).modCtl (Control.noteWritten kind) := by
  unfold raiseAt
  split
  · next h => exact .inl ⟨rfl, by simp [h]⟩
  · next a h =>
    split
    · next hle => exact .inl ⟨rfl, fun b hb => by rw [h] at hb; cases hb; exact hle⟩
    · next hgt => exact .inr ⟨a, _, h, by omega, by simp [writeEntry], rfl⟩

/-- The holds after a movable function has left its old range: only writes into that range go, from its owner's hold
alone (R6). -/
theorem leaveRange_holds (f : Fn) (b : Fin 6) (s : State) :
    (leaveRange f s).ins.holds.get b =
      (match ownerOf f, ap f s with
        | some c, some a => if c = b then (s.ins.holds.get b).filter fun e => !e.aimedAt a else s.ins.holds.get b
        | _, _ => s.ins.holds.get b) := by
  unfold leaveRange
  cases ownerOf f <;> cases ap f s <;> simp only [State.modIns_ins, Table.get_modify]

/-! ## Repetition -/

@[simp] theorem forEach_nil {α : Type} (f : α → State → State) (s : State) : forEach [] f s = s := rfl

@[simp] theorem forEach_cons {α : Type} (a : α) (l : List α) (f : α → State → State) (s : State) :
    forEach (a :: l) f s = forEach l f (f a s) := rfl

/-- An invariant that each round keeps is kept by all of them. -/
theorem forEach_inv {α : Type} {Inv : State → Prop} {f : α → State → State} {l : List α} {s : State} (hs : Inv s)
    (h : ∀ i ∈ l, ∀ t, Inv t → Inv (f i t)) : Inv (forEach l f s) := by
  induction l generalizing s with
  | nil => exact hs
  | cons a l ih => exact ih (h a (by simp) s hs) fun i hi => h i (by simp [hi])

/-! ## Ordered lists -/

theorem mem_insertBy {α : Type} (key : α → Nat) (x y : α) (l : List α) :
    y ∈ insertBy key x l ↔ y = x ∨ y ∈ l := by
  induction l with
  | nil => simp [insertBy]
  | cons z l ih =>
    unfold insertBy
    split
    · simp only [List.mem_cons, ih]; tauto
    · simp only [List.mem_cons]

theorem foldl_insertBy_mem {α : Type} (key : α → Nat) (y : α) (l acc : List α) :
    y ∈ l.foldl (fun a x => insertBy key x a) acc ↔ y ∈ acc ∨ y ∈ l := by
  induction l generalizing acc with
  | nil => simp
  | cons x l ih => simp only [List.foldl_cons, ih, mem_insertBy, List.mem_cons]; tauto

/-- Sorting keeps the elements. -/
@[simp] theorem mem_sortBy {α : Type} (key : α → Nat) (y : α) (l : List α) : y ∈ sortBy key l ↔ y ∈ l := by
  simp [sortBy, foldl_insertBy_mem]

theorem insertBy_pairwise {α : Type} (key : α → Nat) (x : α) {l : List α}
    (h : l.Pairwise fun a b => key a ≤ key b) : (insertBy key x l).Pairwise fun a b => key a ≤ key b := by
  induction l with
  | nil => simp [insertBy]
  | cons z l ih =>
    rw [List.pairwise_cons] at h
    unfold insertBy
    split
    · next hz =>
      rw [List.pairwise_cons]
      refine ⟨fun y hy => ?_, ih h.2⟩
      rcases (mem_insertBy key x y l).1 hy with rfl | hy
      · exact hz
      · exact h.1 y hy
    · next hz =>
      rw [List.pairwise_cons, List.pairwise_cons]
      refine ⟨fun y hy => ?_, h⟩
      rcases List.mem_cons.1 hy with rfl | hy
      · omega
      · exact Nat.le_trans (by omega) (h.1 y hy)

/-- Sorting orders by the key. -/
theorem sortBy_pairwise {α : Type} (key : α → Nat) (l : List α) :
    (sortBy key l).Pairwise fun a b => key a ≤ key b := by
  have : ∀ acc : List α, (acc.Pairwise fun a b => key a ≤ key b) →
      (l.foldl (fun a x => insertBy key x a) acc).Pairwise fun a b => key a ≤ key b := by
    induction l with
    | nil => exact fun acc h => h
    | cons x l ih => exact fun acc h => ih _ (insertBy_pairwise key x h)
  exact this [] List.Pairwise.nil

theorem length_insertBy {α : Type} (key : α → Nat) (x : α) (l : List α) :
    (insertBy key x l).length = l.length + 1 := by
  induction l with
  | nil => rfl
  | cons z l ih => unfold insertBy; split <;> simp [ih]

/-- Sorting keeps the length. -/
@[simp] theorem length_sortBy {α : Type} (key : α → Nat) (l : List α) : (sortBy key l).length = l.length := by
  have : ∀ acc : List α, (l.foldl (fun a x => insertBy key x a) acc).length = acc.length + l.length := by
    induction l with
    | nil => simp
    | cons x l ih => intro acc; simp only [List.foldl_cons, ih, length_insertBy, List.length_cons]; omega
  simpa [sortBy] using this []

/-- What `splitLast` finds. -/
theorem splitLast_some {α : Type} {p : α → Bool} {l : List α} {x : α} {rest : List α}
    (h : splitLast p l = some (x, rest)) :
    ∃ pre, l = pre ++ x :: rest ∧ p x = true ∧ ∀ y ∈ rest, p y = false := by
  induction l with
  | nil => cases h
  | cons z l ih =>
    unfold splitLast at h
    split at h
    · next r hr =>
      cases h
      obtain ⟨pre, rfl, hx, hn⟩ := ih hr
      exact ⟨z :: pre, rfl, hx, hn⟩
    · next hr =>
      split at h
      · next hp =>
        cases h
        refine ⟨[], rfl, hp, fun y hy => ?_⟩
        induction rest with
        | nil => cases hy
        | cons w ws ihw =>
          unfold splitLast at hr
          split at hr
          · cases hr
          · next hw =>
            split at hr
            · cases hr
            · next hpw =>
              rcases List.mem_cons.1 hy with rfl | hy
              · simpa using hpw
              · exact ihw (fun hh => by rw [hw] at hh; cases hh) hw hy
      · cases h

/-! ## Modular distance (R17) -/

/-- The distances of two different counts to each other add up to 2^32. -/
theorem dist_add {a b : W32} (h : a ≠ b) : dist a b + dist b a = 2 ^ 32 := by
  have h1 : a.toNat ≠ b.toNat := fun e => h (BitVec.eq_of_toNat_eq e)
  have ha := a.isLt
  have hb := b.isLt
  simp only [dist, BitVec.toNat_sub]
  omega

/-- Two different counts are not each at or before the other. -/
theorem atOrBefore_antisymm {a b : W32} (h1 : atOrBefore a b = true) (h2 : atOrBefore b a = true) : a = b := by
  by_contra h
  have := dist_add h
  simp only [atOrBefore, decide_eq_true_eq] at h1 h2
  omega

/-! ## DRAM after the granted writes (R13) -/

theorem applyWrites_wf (l : List Granted) {m : Memory} (h : Mem.wf m = true) : Mem.wf (applyWrites l m).2 = true := by
  induction l generalizing m with
  | nil => exact h
  | cons g rest ih =>
    cases g with
    | piece p =>
      simp only [applyWrites]
      split
      · exact ih (Mem.writeBytes_wf h _ _)
      · exact h
    | entry op =>
      cases op with
      | write a d => exact ih (Mem.writeBytes_wf h _ _)
      | read a t => exact h

/-- The granted writes that reach DRAM keep its canonical form. -/
theorem settleWrites_wf {s : State} (h : Mem.wf s.dram = true) : Mem.wf (settleWrites s).dram = true := by
  simpa [settleWrites] using applyWrites_wf s.port.granted h

/-- With nothing granted nothing reaches DRAM. -/
theorem settleWrites_nil {s : State} (h : s.port.granted = []) : settleWrites s = s := by
  cases s
  simp_all [settleWrites, applyWrites, State.modDram, State.modPort]
  rw [← h]

/-! ## Acceptance (R1) -/

/-- What holds before and through every acceptance holds after the held requests are accepted. -/
theorem acceptHeld_inv {Inv : State → Prop} {s : State} (hs : Inv s)
    (h : ∀ r rest t, Inv t → Inv (acceptRequest r (t.modPort fun q => { q with held := rest }))) :
    Inv (acceptHeld s) := by
  have : ∀ k t, Inv t → Inv (acceptSome k t) := by
    intro k
    induction k with
    | zero => exact fun t ht => ht
    | succ k ih =>
      intro t ht
      unfold acceptSome
      split
      · exact ht
      · split
        · exact ih _ (h _ _ _ ht)
        · exact ht
  exact this _ _ hs

/-- While the oldest held request cannot be accepted none is. -/
theorem acceptHeld_stuck {s : State} {r : Request} {rest : List Request} (h : s.port.held = r :: rest)
    (hr : canAccept r s = false) : acceptHeld s = s := by
  simp [acceptHeld, h, acceptSome, hr]

/-- With no request held none is accepted. -/
theorem acceptHeld_nil {s : State} (h : s.port.held = []) : acceptHeld s = s := by
  simp [acceptHeld, h, acceptSome]

/-! ## An observed write (R1, R3, R10) -/

/-- Every function is among them. -/
theorem mem_allFns (f : Fn) : f ∈ allFns := by
  rw [← Fn.ofNum_num f]
  exact List.mem_map.2 ⟨_, List.mem_finRange _, rfl⟩

/-- No boundary of a legal map lies strictly inside a SET aperture. -/
theorem boundaries_inside {s : State} {f : Fn} {a : Aperture} {lo hi : Nat} (hm : Safety.MapOk s) (ha : ap f s = some a)
    (hlo : a.base ≤ lo) (hhi : hi ≤ a.base + a.size) : boundaries lo hi s = [] := by
  have : ∀ b ∈ boundaries lo hi s, False := by
    intro b hb
    simp only [boundaries, mem_sortBy, List.mem_filter, List.mem_flatMap, Bool.and_eq_true, decide_eq_true_eq] at hb
    obtain ⟨⟨g, -, hg⟩, h1, h2⟩ := hb
    cases h : ap g s with
    | none => rw [h] at hg; simp at hg
    | some c =>
      rw [h] at hg
      simp only [List.mem_cons, List.not_mem_nil, or_false] at hg
      by_cases hfg : f = g
      · subst hfg; rw [ha] at h; cases h; omega
      · have h3 := hm.2.2.1 f g a c ha h hfg
        unfold Safety.Apart at h3
        omega
  exact List.eq_nil_iff_forall_not_mem.2 this

/-- An address inside a SET aperture of a legal map is in no other. -/
theorem fnAt_inside {s : State} {f : Fn} {a : Aperture} {x : Nat} (hm : Safety.MapOk s) (ha : ap f s = some a)
    (hx : a.base ≤ x) (hx' : x < a.base + a.size) : fnAt x s = some f := by
  have hp : ((ap f s).any fun a => a.has x) = true := by simp [ha, Aperture.has, hx, hx']
  cases h : fnAt x s with
  | none => exact absurd hp (by simpa using List.find?_eq_none.1 h f (mem_allFns f))
  | some g =>
    have hg := List.find?_some h
    cases hc : ap g s with
    | none => simp [hc] at hg
    | some c =>
      simp only [hc, Option.any_some, Aperture.has, Bool.and_eq_true, decide_eq_true_eq] at hg
      by_cases hfg : f = g
      · rw [hfg]
      · have h3 := hm.2.2.1 f g a c ha hc hfg
        unfold Safety.Apart at h3
        omega

/-- An observed write is one piece (R3). -/
theorem piecesOf_observed {f : Fn} {off : Nat} {d : List Byte} {r : Request} {s : State}
    (h : Safety.Observed f off d r s) (id : Nat) :
    piecesOf r id s = [⟨id, 0, some f, false, off, r.addr.toNat, r.initiator, .write d⟩] := by
  obtain ⟨hm, -, hl, -, ho, -, hg, a, ha, hr, hs⟩ := h
  have hpos : 0 < d.length := by
    simp only [Request.lengthOk, ho, ReqOp.len, Bool.and_eq_true, decide_eq_true_eq] at hl
    omega
  have hb : apBase f s = a.base := by simp [apBase, ha]
  have hfn : fnAt r.addr.toNat s = some f := fnAt_inside hm ha (by omega) (by omega)
  have hbs := boundaries_inside (lo := r.addr.toNat) (hi := r.addr.toNat + d.length) hm ha (by omega) (by omega)
  simp only [piecesOf, ho, ReqOp.len, hbs, spans, List.map_cons, List.map_nil, makePiece, hfn, hb, opPart]
  have e1 : r.addr.toNat - a.base = off := by omega
  have e2 : r.addr.toNat + d.length - r.addr.toNat = d.length := by omega
  simp [e1, e2, hg, slice]

/-- An observed write is accepted, placed in flight and handed to its owner (R1, R10). -/
theorem exec_observed {f : Fn} {off : Nat} {d : List Byte} {r : Request} {s : State} (h : Safety.Observed f off d r s) :
    exec (.requestAccept r) s = .next (handWrite f off r.initiator d (Safety.inFlight f off d r s)) := by
  have hp := piecesOf_observed h
  obtain ⟨hm, hh, hl, hi, ho, hc, -⟩ := h
  have hc' : canAccept r { s with port := { s.port with held := [r] } } = true := hc
  simp only [exec, execRequestAccept, hl, hi, acceptHeld, State.modPort, hh, List.nil_append, List.length_singleton, acceptSome, hc']
  have hs : ({ s with port := { s.port with held := [] } } : State) = s := by
    cases s; simp_all; simp [← hh]
  simp only [Bool.true_eq_false, if_false, if_true, hs, acceptRequest, hp, forEach_cons, forEach_nil, openRequest, takePiece,
    Piece.discarded, Safety.inFlight, opWrites, ho, State.modPort]
  simp [hh]

end Sys2Proof.Machine
end

