-- ==== Sys2Proof/Laws/PerInstr.lean ====
section
/-! SUPPORT. Statements made for every command, one lemma per constructor. -/

namespace Sys2Proof.Laws.WfOperands

/-- A command is well-formed exactly when, if it is an upstream request, the request has 1 to 256 bytes and ends inside
the 40-bit address space (00_scope.md, request model). -/
def Statement (i : Instr) : Prop :=
  i.wf = true ↔ ∀ r, i = .requestAccept r → 1 ≤ r.op.len ∧ r.op.len ≤ 256 ∧ r.addr.toNat + r.op.len ≤ 2 ^ 40

end Sys2Proof.Laws.WfOperands

/-- A command that is no upstream request is well-formed. -/
theorem Sys2Proof.Laws.wfOperands_of_no_request {i : Instr} (h : ∀ r, i ≠ .requestAccept r) (hw : i.wf = true) :
    WfOperands.Statement i :=
  ⟨fun _ r e => absurd e (h r), fun _ => hw⟩

namespace Sys2Proof.Laws.WfOperands

theorem powerOnReset (b : Bool) : Statement (.powerOnReset b) := wfOperands_of_no_request (fun _ => nofun) rfl
theorem linkReset : Statement .linkReset := wfOperands_of_no_request (fun _ => nofun) rfl
theorem configEntryRead (e : Option (BitVec 64)) (l : BitVec 12) : Statement (.configEntryRead e l) :=
  wfOperands_of_no_request (fun _ => nofun) rfl
theorem requestAccept (r : Request) : Statement (.requestAccept r) := by
  simp only [Statement, Instr.wf, Request.lengthOk, Request.inSpace, Bool.and_eq_true,
    decide_eq_true_eq, Instr.requestAccept.injEq, forall_eq', and_assoc]
  exact Iff.rfl
theorem downstreamGrant : Statement .downstreamGrant := wfOperands_of_no_request (fun _ => nofun) rfl
theorem readServed : Statement .readServed := wfOperands_of_no_request (fun _ => nofun) rfl
theorem insertQueueJoin : Statement .insertQueueJoin := wfOperands_of_no_request (fun _ => nofun) rfl
theorem sampleTick (t : TickIn) : Statement (.sampleTick t) := wfOperands_of_no_request (fun _ => nofun) rfl
theorem frameTick (t : TickIn) : Statement (.frameTick t) := wfOperands_of_no_request (fun _ => nofun) rfl
theorem frameCountWrap (t : TickIn) : Statement (.frameCountWrap t) := wfOperands_of_no_request (fun _ => nofun) rfl
theorem midnight (t : TickIn) : Statement (.midnight t) := wfOperands_of_no_request (fun _ => nofun) rfl
theorem refPulse : Statement .refPulse := wfOperands_of_no_request (fun _ => nofun) rfl
theorem refLost (t : TickIn) : Statement (.refLost t) := wfOperands_of_no_request (fun _ => nofun) rfl
theorem unknownCommand : Statement .unknownCommand := wfOperands_of_no_request (fun _ => nofun) rfl
theorem setAperture : Statement .setAperture := wfOperands_of_no_request (fun _ => nofun) rfl
theorem clearAperture : Statement .clearAperture := wfOperands_of_no_request (fun _ => nofun) rfl
theorem setClock : Statement .setClock := wfOperands_of_no_request (fun _ => nofun) rfl
theorem presetTimecode : Statement .presetTimecode := wfOperands_of_no_request (fun _ => nofun) rfl
theorem setPicture : Statement .setPicture := wfOperands_of_no_request (fun _ => nofun) rfl
theorem setLane : Statement .setLane := wfOperands_of_no_request (fun _ => nofun) rfl
theorem setProgram : Statement .setProgram := wfOperands_of_no_request (fun _ => nofun) rfl
theorem setSound : Statement .setSound := wfOperands_of_no_request (fun _ => nofun) rfl
theorem setTap : Statement .setTap := wfOperands_of_no_request (fun _ => nofun) rfl
theorem setBus : Statement .setBus := wfOperands_of_no_request (fun _ => nofun) rfl
theorem setPath : Statement .setPath := wfOperands_of_no_request (fun _ => nofun) rfl
theorem setRoute : Statement .setRoute := wfOperands_of_no_request (fun _ => nofun) rfl
theorem setStore : Statement .setStore := wfOperands_of_no_request (fun _ => nofun) rfl
theorem setPin (l : BitVec 12) : Statement (.setPin l) := wfOperands_of_no_request (fun _ => nofun) rfl
theorem setLineLevels : Statement .setLineLevels := wfOperands_of_no_request (fun _ => nofun) rfl
theorem addCue : Statement .addCue := wfOperands_of_no_request (fun _ => nofun) rfl
theorem cancelCue : Statement .cancelCue := wfOperands_of_no_request (fun _ => nofun) rfl
theorem forceCue : Statement .forceCue := wfOperands_of_no_request (fun _ => nofun) rfl
theorem clipMark : Statement .clipMark := wfOperands_of_no_request (fun _ => nofun) rfl
theorem clipLabel : Statement .clipLabel := wfOperands_of_no_request (fun _ => nofun) rfl
theorem clipDelete : Statement .clipDelete := wfOperands_of_no_request (fun _ => nofun) rfl
theorem sendClip : Statement .sendClip := wfOperands_of_no_request (fun _ => nofun) rfl
theorem abortSend : Statement .abortSend := wfOperands_of_no_request (fun _ => nofun) rfl
theorem setNotices : Statement .setNotices := wfOperands_of_no_request (fun _ => nofun) rfl
theorem clearMedia : Statement .clearMedia := wfOperands_of_no_request (fun _ => nofun) rfl
theorem soundSilent (n : Fin 4) (t : TickIn) : Statement (.soundSilent n t) :=
  wfOperands_of_no_request (fun _ => nofun) rfl
theorem soundUnitClose (t : TickIn) : Statement (.soundUnitClose t) := wfOperands_of_no_request (fun _ => nofun) rfl
theorem markConfirm (p : Fin 12) (t : TickIn) : Statement (.markConfirm p t) :=
  wfOperands_of_no_request (fun _ => nofun) rfl
theorem stall (p : Fin 2) (t : TickIn) : Statement (.stall p t) := wfOperands_of_no_request (fun _ => nofun) rfl
theorem cueFiring (t : TickIn) : Statement (.cueFiring t) := wfOperands_of_no_request (fun _ => nofun) rfl
theorem transferReadIssue : Statement .transferReadIssue := wfOperands_of_no_request (fun _ => nofun) rfl
theorem storeReadServed : Statement .storeReadServed := wfOperands_of_no_request (fun _ => nofun) rfl
theorem linkUp : Statement .linkUp := wfOperands_of_no_request (fun _ => nofun) rfl

end Sys2Proof.Laws.WfOperands
end

