-- ==== Sys2Proof/Tests/Slice0.lean ====
section
/-! SUPPORT. Tests of the model. A `smoke_` theorem shows an ill-formed request refused; a `test_` theorem holds one step
or one operation against the spec's words or its worked examples; a `witness_` theorem shows a concrete state and
operands that meet the hypotheses of the statement it is named after, clause by clause. -/

namespace Sys2Proof.Tests

open Sys2Proof.Machine Sys2Proof.Safety

set_option Elab.async false

/-! ## Small states -/

/-- The state of an outcome; the state after reset where there is none. -/
def after (o : Host.Outcome State Fault Refusal) : State :=
  match o with
  | .next t => t
  | .fault _ | .refused _ => State.reset

/-- A command of slot 0 with a body of 4-byte words (R184). -/
def cmd (code : Nat) (words : List Nat) : Command := ⟨0, padTo 56 (words.flatMap (le 4)) ++ padTo 8 (le 1 code)⟩

/-- The state with one queued command. -/
def put (c : Command) (s : State) : State :=
  { s with ctl := { s.ctl with queue := [c], marks := s.ctl.marks.set c.slot true } }

theorem atHead_put (c : Command) (s : State) : AtHead c (put c s) := ⟨[], rfl⟩

/-- A map entry set without a command. -/
def setAp (n : Fin 16) (base size : Nat) (s : State) : State :=
  { s with aps := { s.aps with map := s.aps.map.set n (some ⟨base, size⟩) } }

/-- The machine after a start-up load that named nothing. -/
def started : State :=
  setAp 0 0xFFFFF00000 4096 { State.reset with ctl := { Control.reset with loader := .ended, loadResult := .ok } }

/-- The result write made for a queued command of slot 0: the bytes at the slot's go word. -/
def answerOf (i : Instr) (code : Nat) (words : List Nat) (s : State) : List Byte :=
  match ((after (exec i (put (cmd code words) s))).ins.holds.get 0).getLast? with
  | some ⟨.write 0xFFFFF00078 d, _⟩ => d
  | _ => []

/-- Whether the command of a code, with each body in turn, ends with the result beside it. -/
def answersAs (i : Instr) (code : Nat) (s : State) (rows : List (List Nat × Result)) : Bool :=
  rows.all fun x => decide (answerOf i code x.1 s = goWord code x.2)

/-- A tick that shows every pin low and names no order. -/
def lowTick : TickIn := ⟨0, []⟩

/-! ## Well-formed commands and words of the table -/

/-- Request model (00_scope.md): a length of 1 to 256 bytes. -/
theorem smoke_request_length :
    (Instr.requestAccept ⟨0, 3, .read 0⟩).wf = false ∧ (Instr.requestAccept ⟨0, 3, .read 257⟩).wf = false
      ∧ (Instr.requestAccept ⟨0, 3, .write (zeros 257)⟩).wf = false
      ∧ (Instr.requestAccept ⟨0, 3, .read 1⟩).wf = true ∧ (Instr.requestAccept ⟨0, 3, .read 256⟩).wf = true := by
  decide +kernel

/-- Request model: 40-bit byte addresses. -/
theorem smoke_request_inside_the_address_space :
    (Instr.requestAccept ⟨0xFFFFFFFFFF, 3, .read 2⟩).wf = false
      ∧ (Instr.requestAccept ⟨0xFFFFFFFFFF, 3, .read 1⟩).wf = true := by
  decide +kernel

/-- The table gives no row any bits. -/
theorem test_no_word_spells_a_command (nbits w : Nat) :
    decodeTableWord nbits w = none ∧ State.reset.withFetchWord nbits w = State.reset :=
  ⟨rfl, rfl⟩

theorem witness_OnlyMalformedRequestsStop :
    (Instr.requestAccept ⟨0, 3, .read 256⟩).wf = true ∧ (Request.mk 0 3 (.read 0)).lengthOk = false
      ∧ (Request.mk 0 3 (.read 257)).lengthOk = false ∧ (Request.mk 0xFFFFFFFFFF 3 (.read 2)).lengthOk = true
      ∧ (Request.mk 0xFFFFFFFFFF 3 (.read 2)).inSpace = false ∧ (Request.mk 0xFFFFFFFFFF 3 (.read 1)).inSpace = true := by
  decide +kernel

theorem witness_StepRunsTheFrontCommand :
    ({ State.reset with pending := [.refPulse, .linkUp] }).pending = .refPulse :: [.linkUp] ∧ State.reset.pending = [] :=
  ⟨rfl, rfl⟩

theorem witness_OnlyTheMemoryPathChangesDram :
    ∃ t, exec .linkReset started = .next t ∧ Instr.linkReset ≠ .downstreamGrant ∧ Instr.linkReset ≠ .readServed
      ∧ Instr.linkReset ≠ .storeReadServed :=
  ⟨_, rfl, by decide, by decide, by decide⟩

/-! ## The invariants (KeptByStep) -/

/-- What a map must have, entry by entry. -/
theorem mapOk_of (s : State)
    (h1 : ∀ n : Fin 16, ∀ a ∈ s.aps.map.get n, a.base % 4096 = 0 ∧ a.size % 4096 = 0
      ∧ (Fn.ofNum n).minSize ≤ a.size ∧ a.size ≤ 2 ^ 36 ∧ a.base + a.size ≤ 2 ^ 40)
    (h2 : ∀ a ∈ s.aps.map.get 0, a.size = 4096)
    (h3 : ∀ n m : Fin 16, ∀ a ∈ s.aps.map.get n, ∀ b ∈ s.aps.map.get m, n ≠ m →
      a.base + a.size ≤ b.base ∨ b.base + b.size ≤ a.base)
    (h4 : s.ctl.loader = .ended) : MapOk s := by
  refine ⟨fun f a h => ?_, fun a h => h2 a h, fun f g a b hf hg hn => ?_, fun h => absurd h4 h⟩
  · have := h1 f.num a h
    rwa [Fn.ofNum_num] at this
  · exact h3 f.num g.num a hf b hg fun e => hn (Fn.num_inj e)

/-- COMMANDS at its default base and PATH_A at 0x01_0000_0000 with 8192 bytes (the worked example of chapter 1). -/
def mapped : State := setAp 9 0x100000000 8192 started

theorem mapped_ok : MapOk mapped := by
  apply mapOk_of
  · decide +kernel
  · decide +kernel
  · decide +kernel
  · decide +kernel

/-- `mapped` with a SET_APERTURE of STORE at its command queue's head, and the step that carries it out. -/
theorem witness_MapStaysLegal :
    ∃ t, MapOk { put (cmd 1 [11, 0, 0x200000, 0, 65536]) mapped with pending := [.setAperture] }
      ∧ step { put (cmd 1 [11, 0, 0x200000, 0, 65536]) mapped with pending := [.setAperture] } = .next t
      ∧ t.aps.map.get 11 = some ⟨0x200000, 65536⟩ :=
  ⟨_, mapOk_of _ (by decide +kernel) (by decide +kernel) (by decide +kernel) rfl, rfl, by decide +kernel⟩

/-- A granted write of a byte 0 and a byte 5 over a listed byte. -/
def dramState : State :=
  { State.reset with
    pending := [.downstreamGrant], dram := [(8, 9), (9, 1)], ins := { InsertPath.reset with queue := [⟨.write 8 [0, 5], 0⟩] } }

theorem witness_DramStaysCanonical :
    ∃ t, DramOk dramState ∧ step dramState = .next t ∧ t.dram = [(9, 5)] :=
  ⟨_, by unfold DramOk; decide +kernel, rfl, by decide +kernel⟩

/-- Rate code 1, LOCKED, at the last tick of a frame. -/
def clockState : State :=
  { State.reset with
    pending := [.sampleTick lowTick], clock := { Clock.reset with pos := 1919, lock := .locked, miss := 1, run := 2 } }

theorem witness_ClockStaysInRange :
    ∃ t, ClockOk clockState ∧ step clockState = .next t ∧ t.clock.pos = 0 ∧ t.clock.interval = 65535 :=
  ⟨_, by unfold ClockOk; decide +kernel, rfl, by decide +kernel⟩

/-- A lane in mid-frame (R59's worked example). -/
def midFrame : Lane :=
  { Lane.reset with
    geom := some ⟨16, 2, 2⟩, intake := .inFrame 0 32 1 [], target := 2000, bound := 8192, span := 1024, qFloor := 1
    kbase := 5, fullness := 5000, q := 5 }

/-- SET_LANE for lane 0 with B 2048, S 512, q_floor 3 and kbase 9. -/
def laneState : State :=
  { put (cmd 6 [0, 1, 2000, 2048, 512, 3, 9, 1]) started with
    pending := [.setLane], lanes := (Table.fill 4 .reset).set 0 midFrame }

/-- The worked example "a settings change in mid-frame": F 2048, q 5, kbase 7, DONE_CLAMPED naming kbase alone. -/
theorem witness_EnabledLanesKeepTheRateLaw :
    ∃ t, LanesOk laneState ∧ step laneState = .next t ∧ (t.lanes.get 0).fullness = 2048 ∧ (t.lanes.get 0).q = 5
      ∧ (t.lanes.get 0).kbase = 7 ∧ (t.lanes.get 0).intake = midFrame.intake
      ∧ answersAs .setLane 6 laneState [([0, 1, 2000, 2048, 512, 3, 9, 1], .doneClamped 16)] = true :=
  ⟨_, by unfold LanesOk laneOk; decide +kernel, rfl, by decide +kernel⟩

/-- Programme lane 0, pending lane 1, and the disable of lane 0 (the worked example "a cut between cameras"). -/
def selectorState : State :=
  { put (cmd 6 [0, 0, 1024, 65536, 4096, 0, 3, 0]) started with
    pending := [.setLane], sel := { Selector.reset with programme := some 0, waiting := some 1 }
    lanes := ((Table.fill 4 .reset).set 0 { Lane.reset with intake := .waiting }).set 1 { Lane.reset with intake := .waiting } }

theorem witness_SelectorStaysLegal :
    ∃ t, SelectorOk selectorState ∧ step selectorState = .next t ∧ t.sel.programme = none ∧ t.sel.waiting = some 1 :=
  ⟨_, by unfold SelectorOk; decide +kernel, rfl, by decide +kernel⟩

/-- NOTICES with 126 slots and one unreleased GUARD notice. -/
def noticed : State :=
  setAp 13 0x300000 4096
    { started with ctl := { started.ctl with written := 1, unreleased := [.guard], attn := true } }

/-- The notice is released by a read of its slot's last bytes (R179). -/
def noticeState : State :=
  { noticed with
    pending := [.readServed], port := { Port.reset with granted := [.piece ⟨0, 0, some .notices, true, 64, 0x300040, 0, .read 32⟩] } }

theorem witness_NoticesNeverExceedTheSlots :
    ∃ t, NoticesOk noticeState ∧ step noticeState = .next t ∧ t.ctl.released = 1 ∧ t.ctl.unreleased = []
      ∧ t.ctl.attn = false :=
  ⟨_, by unfold NoticesOk; decide +kernel, rfl, by decide +kernel⟩

/-- A cue whose four slots are NONE. -/
def cueAt (id tc : Nat) (due : W32) : Cue := ⟨id, tc, due, false, Table.fill 4 .none⟩

/-- Two cues, one due at the frame that opens next. -/
def cueState : State :=
  { started with pending := [.frameTick lowTick], cues := [cueAt 3 1 1, cueAt 7 10 10] }

theorem witness_CueTableStaysInOrder :
    ∃ t, CuesOk cueState ∧ step cueState = .next t ∧ t.cues = [cueAt 7 10 10] :=
  ⟨_, by unfold CuesOk ahead; decide +kernel, rfl, by decide +kernel⟩

/-- A clip log whose only non-FREE record is record 0. -/
def oneClip (R : Clip) : ClipLog :=
  { ClipLog.reset with
    recs := (Table.fill 256 (Clip.free 0)).set 0 R, nextNum := 42
    opens := Table.ofFn fun i => if R.state = .opened ∧ R.source = i then some R.num else none }

/-- The clip log's invariants for such a log. -/
theorem logOk_of (s : State) (R : Clip) (hlog : s.log = oneClip R) (hR : clipOk R)
    (hq : (s.xfer.queue = [] ∧ R.state ≠ .sending) ∨ ∃ p, s.xfer.queue = [⟨R.num, p⟩] ∧ R.state = .sending) : LogOk s := by
  have hg : ∀ i, s.log.recs.get i = if 0 = i then R else Clip.free 0 := by
    intro i
    rw [hlog]
    show ((Table.fill 256 (Clip.free 0)).set 0 R).get i = _
    rw [Table.get_set, Table.get_fill]
  have hfree : clipOk (Clip.free 0) := by unfold clipOk Clip.free; decide
  refine ⟨⟨fun i => ?_, by rw [hlog]; exact (by decide : 1 ≤ 42), by rw [hlog]; exact (by decide : 42 ≤ 65535), fun i j hi hn => ?_⟩, fun src n => ?_, ?_⟩
  · rw [hg]; split <;> assumption
  · rw [hg i] at hi hn
    rw [hg j] at hn
    by_cases h0 : 0 = i
    · rw [if_pos h0] at hi hn
      by_cases h1 : 0 = j
      · rw [← h0, ← h1]
      · rw [if_neg h1] at hn
        exact absurd (hR.1.2 hn) hi
    · rw [if_neg h0] at hi
      exact absurd rfl hi
  · have ho : s.log.opens.get src = if R.state = .opened ∧ R.source = src then some R.num else none := by
      rw [hlog]; exact Table.get_ofFn _ _
    rw [ho]
    constructor
    · intro h
      split at h
      · rename_i h1
        exact ⟨0, by rw [hg]; exact h1.1, by rw [hg]; exact h1.2, by rw [hg]; exact Option.some.inj h⟩
      · exact absurd h (by simp)
    · rintro ⟨i, h1, h2, h3⟩
      rw [hg] at h1 h2 h3
      split at h1
      · rename_i h0
        rw [if_pos h0] at h2 h3
        rw [if_pos ⟨h1, h2⟩, h3]
      · exact absurd h1 (by unfold Clip.free; decide)
  · rcases hq with ⟨hq, hs⟩ | ⟨p, hq, hs⟩
    · refine ⟨by simp [hq], by simp [hq], by simp [hq], fun i hi => ?_⟩
      rw [hg] at hi
      split at hi
      · exact absurd hi hs
      · exact absurd hi (by unfold Clip.free; decide)
    · refine ⟨by simp [hq], by simp [hq], fun e he => ?_, fun i hi => ?_⟩
      · rw [hq, List.mem_singleton] at he
        exact ⟨0, by rw [hg]; exact hs, by rw [hg, he]; rfl⟩
      · rw [hg] at hi
        split at hi
        · rename_i h0
          exact ⟨⟨R.num, p⟩, by rw [hq]; exact List.mem_singleton.2 rfl, by rw [hg, if_pos h0]⟩
        · exact absurd hi (by unfold Clip.free; decide)

/-- A clip log whose only non-FREE records are records 0 and 1. -/
def twoClips (R Q : Clip) : ClipLog :=
  { ClipLog.reset with recs := ((Table.fill 256 (Clip.free 0)).set 0 R).set 1 Q, nextNum := 43 }

/-- The clip log's invariants for such a log of two SENDING clips, both in the send queue. -/
theorem logOk_two (s : State) (R Q : Clip) (p q : Fin 2) (hlog : s.log = twoClips R Q) (hR : clipOk R) (hQ : clipOk Q)
    (sR : R.state = .sending) (sQ : Q.state = .sending) (hne : R.num ≠ Q.num)
    (hq : s.xfer.queue = [⟨R.num, p⟩, ⟨Q.num, q⟩]) : LogOk s := by
  have hg : ∀ i, s.log.recs.get i = if 1 = i then Q else if 0 = i then R else Clip.free 0 := by
    intro i
    rw [hlog]
    show (((Table.fill 256 (Clip.free 0)).set 0 R).set 1 Q).get i = _
    rw [Table.get_set, Table.get_set, Table.get_fill]
  have hc : ∀ i, (s.log.recs.get i = Q ∧ i = 1) ∨ (s.log.recs.get i = R ∧ i = 0) ∨ s.log.recs.get i = Clip.free 0 := by
    intro i
    rw [hg]
    by_cases h1 : 1 = i
    · exact .inl ⟨if_pos h1, h1.symm⟩
    · by_cases h0 : 0 = i
      · exact .inr (.inl ⟨by rw [if_neg h1, if_pos h0], h0.symm⟩)
      · exact .inr (.inr (by rw [if_neg h1, if_neg h0]))
  have hfree : clipOk (Clip.free 0) := by unfold clipOk Clip.free; decide
  have n0 : ∀ {c : Clip}, clipOk c → c.state = .sending → c.num ≠ 0 := fun hk hs h => by
    have := hk.1.2 h; rw [hs] at this; cases this
  refine ⟨⟨fun i => ?_, by rw [hlog]; exact (by decide : 1 ≤ 43), by rw [hlog]; exact (by decide : 43 ≤ 65535),
    fun i j hi hn => ?_⟩, fun src n => ⟨fun h => ?_, fun ⟨i, h, _⟩ => ?_⟩, ?_, ?_, fun e he => ?_, fun i h => ?_⟩
  · rcases hc i with ⟨h, -⟩ | ⟨h, -⟩ | h <;> rw [h] <;> assumption
  · rcases hc i with ⟨h, e⟩ | ⟨h, e⟩ | h <;> rcases hc j with ⟨h', e'⟩ | ⟨h', e'⟩ | h' <;> rw [h, h'] at hn <;>
      first
        | exact e.trans e'.symm
        | exact absurd hn hne
        | exact absurd hn.symm hne
        | exact absurd hn (n0 hQ sQ)
        | exact absurd hn (n0 hR sR)
        | (rw [h] at hi; exact absurd rfl hi)
  · have hn : ∀ src, ClipLog.reset.opens.get src = none := by decide +kernel
    rw [hlog, show (twoClips R Q).opens = ClipLog.reset.opens from rfl, hn] at h
    cases h
  · rcases hc i with ⟨h', -⟩ | ⟨h', -⟩ | h' <;> rw [h'] at h
    · rw [sQ] at h; cases h
    · rw [sR] at h; cases h
    · cases h
  · rw [hq]; simpa using hne
  · rw [hq]; exact (by decide : 2 ≤ 8)
  · rw [hq] at he
    rcases List.mem_cons.1 he with rfl | he
    · exact ⟨0, by rw [hg]; exact sR, by rw [hg]; rfl⟩
    · rw [List.mem_singleton] at he
      subst he
      exact ⟨1, by rw [hg]; exact sQ, by rw [hg]; rfl⟩
  · rcases hc i with ⟨h', -⟩ | ⟨h', -⟩ | h' <;> rw [h'] at h ⊢ <;> rw [hq]
    · exact ⟨⟨Q.num, q⟩, by simp, rfl⟩
    · exact ⟨⟨R.num, p⟩, by simp, rfl⟩
    · cases h

/-- Clip 41 of input 1, CLOSED with a resolved range of four units. -/
def clip41 : Clip :=
  { Clip.free 18 with
    num := 41, state := .closed, source := 1, inFrame := 90, inTc := 90, out := some (95, 95), stamp := some 0
    labels := [7], first := some (500, 10), last := some (503, 16) }

/-- Clip 41 still OPEN. -/
def open41 : Clip := { clip41 with state := .opened, out := none, stamp := none, last := none }

/-- Clip 41 SENDING, as the only entry of the send queue. -/
def sending41 : State :=
  { started with
    log := oneClip { clip41 with state := .sending, prior := some .closed }
    xfer := { Transfer.reset with queue := [⟨41, 0⟩], cursor := 500, remaining := 4 } }

theorem witness_ClipLogStaysConsistent :
    ∃ t, LogOk { put (cmd 23 [41]) sending41 with pending := [.abortSend] }
      ∧ step { put (cmd 23 [41]) sending41 with pending := [.abortSend] } = .next t
      ∧ (t.log.recs.get 0).state = .closed ∧ t.xfer.queue = [] :=
  ⟨_, logOk_of _ { clip41 with state := .sending, prior := some .closed } rfl (by unfold clipOk; decide +kernel)
    (.inr ⟨0, rfl, rfl⟩), rfl, by decide +kernel⟩

/-- The counters' invariants, with the holds checked entry by entry. -/
theorem pathsOk_of (s : State) (h1 : ∀ p, pathOk s p)
    (h2 : ∀ b, ∀ e ∈ s.ins.holds.get b,
      (match e.eff with
        | .publish p v => decide (b = byPath p ∧ v ≤ (s.home.paths.get p).placed)
        | .nothing | .readable _ => true) = true) : PathsOk s := by
  refine ⟨h1, fun b e he p v hv => ?_⟩
  have := h2 b e he
  rw [hv] at this
  exact of_decide_eq_true this

/-- Path A RUNNING on 127 cells, a unit of 2 cells placed and its header write still held (R101). -/
def placedState : State :=
  { mapped with
    pending := [.insertQueueJoin]
    home := { mapped.home with paths := mapped.home.paths.set 0 { HomePath.reset with
      state := .running, placed := 2, units := [⟨0, 2, some 0⟩], nextSeq := 1, high := 100 } }
    ins := { InsertPath.reset with
      holds := InsertPath.reset.holds.set 1 [⟨.write 0x100000000 (ringHeader 2 127 1), .publish 0 2⟩] } }

theorem witness_PathCountersStayOrdered :
    ∃ t, PathsOk placedState ∧ HasCells placedState ∧ (∀ rest, placedState.pending ≠ .storeReadServed :: rest)
      ∧ step placedState = .next t ∧ (t.home.paths.get 0).published = 2 := by
  refine ⟨_, pathsOk_of _ (by unfold pathOk; decide +kernel) (by decide +kernel), fun p => ⟨?_, ?_, fun u h => ?_⟩,
    fun _ => by simp [placedState], rfl, by decide +kernel⟩
  · revert p; decide +kernel
  · revert p; decide +kernel
  · have hn : ∀ p, (placedState.home.paths.get p).heldOffer = none := by decide +kernel
    rw [hn p] at h
    cases h

/-- The indexes' invariants, entry by entry. -/
theorem indexOk_of (s : State)
    (h1 : ∀ l : Fin 4, ∀ x ∈ s.store.index.get l, (s.store.retained.any fun e => e.unit.any fun u =>
      decide (u.seq = x.seq ∧ u.source = some l ∧ u.frame = x.frame ∧ x.cell = e.start % storeCells s)) = true)
    (h2 : ∀ l : Fin 4, (s.store.index.get l).length ≤ Config.indexRoom)
    (h3 : s.store.state ≠ .off) : IndexOk s := by
  refine ⟨fun l x hx => ?_, h2, fun h => absurd h h3⟩
  obtain ⟨e, he, hu⟩ := List.any_eq_true.1 (h1 l x hx)
  obtain ⟨u, hu1, hu2⟩ := (Option.any_eq_true _ _).1 hu
  exact ⟨e, he, u, hu1, of_decide_eq_true hu2⟩

/-- The STORE aperture of 65 536 bytes: 1023 cells. -/
def stored : State :=
  setAp 11 0x200000 65536
    { started with store := { Store.reset with
        state := .running, head := 2, nextSeq := 501, epoch := 1
        retained := [⟨0, 2, some ⟨500, some 0, 8000, true⟩⟩], index := (Table.fill 4 []).set 0 [⟨8000, 500, 0⟩] } }

/-- The store disabled (R119): its unit and its index entry go. -/
theorem witness_IndexEntriesNameRetainedUnits :
    ∃ t, IndexOk { put (cmd 13 [0]) stored with pending := [.setStore] }
      ∧ step { put (cmd 13 [0]) stored with pending := [.setStore] } = .next t
      ∧ t.store.retained = [] :=
  ⟨_, indexOk_of _ (by decide +kernel) (by decide +kernel) (by decide +kernel), rfl, by decide +kernel⟩

/-! ## The memory path -/

/-- The worked example of chapter 1: 128 bytes written by initiator 3 across the base of PATH_A. -/
def acrossRing : Request := ⟨0xFFFFFFC0, 3, .write (List.replicate 128 7)⟩

/-- The request is cut at the base: 64 bytes of no function, then 64 guarded bytes of PATH_A at offset 0. -/
theorem witness_RequestsAreCutAtApertureBoundaries :
    MapOk mapped ∧ acrossRing.lengthOk = true ∧ acrossRing.op = .write (List.replicate 128 7)
      ∧ ap (.path 0) mapped = some ⟨0x100000000, 8192⟩
      ∧ (piecesOf acrossRing 0 mapped).map (fun p => (p.fn, p.guarded, p.off, p.addr, p.op.len))
        = [(none, false, 0, 0xFFFFFFC0, 64), (some (.path 0), true, 0, 0x100000000, 64)] :=
  ⟨mapped_ok, by decide +kernel⟩

/-- The same request accepted: piece 1 joins the in-flight list, piece 2 counts in PATH_A's tally (9). -/
theorem test_request_across_a_ring_boundary :
    let t := after (exec (.requestAccept acrossRing) mapped)
    t.port.inflight.map (fun p => (p.fn, p.addr, p.op.len)) = [(none, 0xFFFFFFC0, 64)]
      ∧ t.aps.guards.get 9 = ⟨1, 3, 0⟩ ∧ t.port.opens.map (·.left) = [1] := by
  decide +kernel

/-- A read in flight, as the network interface's in the worked example. -/
def readPiece : Piece := ⟨0, 0, none, false, 0, 0x5000, 1, .read 4⟩
/-- A write in flight. -/
def writePiece : Piece := ⟨1, 1, none, false, 0, 0x6000, 3, .write [1, 2]⟩

/-- An insert queue of some writes, and pieces in flight with their requests open. -/
def arbiterState (waiting : Nat) (ps : List Piece) : State :=
  { started with
    ins := { InsertPath.reset with queue := List.replicate waiting ⟨.write 0x7000 [5, 6], 0⟩ }
    port := { Port.reset with
      inflight := ps, nextPiece := 2, nextReq := 2
      opens := ps.map fun p => ⟨p.req, p.initiator, !opWrites p.op, 1, []⟩ } }

/-- 256 bytes read at address 0 and one byte at the last address; the port with its link down; a held request that can be
accepted and one that cannot. -/
theorem witness_ReadRequestsEnterTheInFlightList :
    (Request.mk 0 2 (.read 256)).lengthOk = true ∧ (Request.mk 0 2 (.read 256)).inSpace = true
      ∧ mapped.port.held = [] ∧ canAccept ⟨0, 2, .read 256⟩ mapped = true
      ∧ (Request.mk 0xFFFFFFFFFF 2 (.read 1)).inSpace = true
      ∧ canAccept ⟨0, 2, .read 256⟩ { mapped with port := { mapped.port with linkUp := false } } = false
      ∧ ({ mapped.port with linkUp := false, held := [Request.mk 0 2 (.read 8)] } : Port).held
          = Request.mk 0 2 (.read 8) :: []
      ∧ canAccept ⟨0, 2, .read 8⟩
          { mapped with port := { mapped.port with linkUp := false, held := [⟨0, 2, .read 8⟩] } } = false
      ∧ canAccept ⟨0, 2, .read 8⟩ { mapped with port := { mapped.port with held := [⟨0, 2, .read 8⟩] } } = true
      ∧ (acceptHeld { mapped with port := { mapped.port with held := [⟨0, 2, .read 8⟩] } }).port.held = []
      ∧ canAccept ⟨0, 2, .read 8⟩ (arbiterState 63 (List.replicate 15 readPiece)) = true
      ∧ canAccept ⟨0, 2, .read 8⟩ (arbiterState 64 []) = false
      ∧ canAccept ⟨0, 2, .read 8⟩ (arbiterState 0 (List.replicate 16 readPiece)) = false := by
  decide +kernel

/-- The bytes of a SET_ROUTE BOTH command, as the host lays them out in a slot (Command area layout). -/
def routeBytes : List Byte := [2, 0, 0, 0] ++ List.replicate 52 0 ++ [12, 0, 0, 0, 0, 0, 0, 0]

/-- Initiator 3 writes the first 64 bytes of PATH_A's aperture; the host writes slot 15, whose offset in COMMANDS is
64 + 64 × 15. -/
theorem witness_GuardedWritesAndCommandSlotsAreTaken :
    MapOk mapped ∧ mapped.port.held = [] ∧ (Request.mk 0x100000000 3 (.write (zeros 64))).lengthOk = true
      ∧ (Request.mk 0x100000000 3 (.write (zeros 64))).inSpace = true
      ∧ ap (.path 0) mapped = some ⟨0x100000000, 8192⟩ ∧ (0x100000000 : Nat) ≤ (0x100000000 : BitVec 40).toNat
      ∧ (0x100000000 : BitVec 40).toNat + (zeros 64).length ≤ 0x100000000 + 8192
      ∧ (Fn.path 0).guards ((0x100000000 : BitVec 40).toNat - 0x100000000) (zeros 64).length = true
      ∧ canAccept ⟨0x100000000, 3, .write (zeros 64)⟩ mapped = true
      ∧ routeBytes.length = 64 ∧ ap .commands mapped = some ⟨0xFFFFF00000, 4096⟩
      ∧ (0xFFFFF00400 : BitVec 40).toNat = 0xFFFFF00000 + 64 + 64 * (15 : Fin 16).val ∧ routeBytes.getD 56 0 ≠ 0
      ∧ mapped.ctl.marks.get 15 = false ∧ canAccept ⟨0xFFFFF00400, 0, .write routeBytes⟩ mapped = true :=
  ⟨mapped_ok, by decide +kernel⟩

/-- The arrival, the command carried out, and its result written at the slot's go word: DONE, detail 0 (R174, R175). -/
theorem test_a_written_slot_is_carried_out :
    let t := after (exec (.requestAccept ⟨0xFFFFF00400, 0, .write routeBytes⟩) mapped)
    let u := after (exec .setRoute t)
    t.ctl.queue = [⟨15, routeBytes⟩] ∧ t.ctl.marks.get 15 = true ∧ u.home.route = .both ∧ u.ctl.marks.get 15 = false
      ∧ u.ins.holds.get 0 = [⟨.write 0xFFFFF00438 [12, 1, 0, 0, 0, 0, 0, 0], .nothing⟩] := by
  decide +kernel

/-- R174: a second go-word write while the mark is set is ignored, with COMMAND_IGNORED. -/
theorem test_a_busy_slot_ignores_a_command :
    let s := { noticed with ctl := { noticed.ctl with marks := noticed.ctl.marks.set 15 true } }
    let t := after (exec (.requestAccept ⟨0xFFFFF00438, 0, .write [12]⟩) s)
    t.ctl.queue = [] ∧ t.ctl.unreleased = [.guard, .commandIgnored] := by
  decide +kernel

/-- A map whose PICTURE 0, SOUND 0 and NOTICES lie side by side. -/
def besideState : State := setAp 1 0x200000 4096 (setAp 5 0x201000 4096 (setAp 13 0x202000 4096 mapped))

/-- Writes of several pieces: none and a guarded one; PICTURE and SOUND; the release word; the last slot byte of
COMMANDS with bytes past it; one byte of a go word. -/
theorem witness_GuardedWritesAndCommandSlotsAreTaken_pieces :
    mapped.port.held = [] ∧ acrossRing.lengthOk = true ∧ acrossRing.inSpace = true
      ∧ acrossRing.op = .write (List.replicate 128 7) ∧ canAccept acrossRing mapped = true
      ∧ (piecesOf acrossRing 0 mapped).map (fun p => (p.fn, p.guarded)) = [(none, false), (some (.path 0), true)]
      ∧ besideState.port.held = []
      ∧ [(0x200FC0, 128), (0x202008, 8), (0xFFFFF0043F, 2), (0xFFFFF00078, 1)].all (fun x =>
        (Request.mk (BitVec.ofNat 40 x.1) 0 (.write (zeros x.2))).lengthOk
          && (Request.mk (BitVec.ofNat 40 x.1) 0 (.write (zeros x.2))).inSpace
          && canAccept ⟨BitVec.ofNat 40 x.1, 0, .write (zeros x.2)⟩ besideState) = true
      ∧ [(0x200FC0, 128), (0x202008, 8), (0xFFFFF0043F, 2), (0xFFFFF00078, 1)].map (fun x =>
        (piecesOf ⟨BitVec.ofNat 40 x.1, 0, .write (zeros x.2)⟩ 0 besideState).map fun p => (p.fn, p.guarded, p.off))
        = [[(some (.picture 0), false, 4032), (some (.sound 0), false, 0)], [(some .notices, false, 8)],
          [(some .commands, false, 1087)], [(some .commands, false, 120)]] := by
  decide +kernel

/-- The shadow and the slot lists that the law of the command shadow names exist for every piece from offset 64 on. A go
word alone at offset 120; slots 0 and 1 in one piece, slot 1 busy; the byte before a go word; the first offset past the
slots. -/
theorem witness_GuardedWritesAndCommandSlotsAreTaken_slots :
    (∀ (s : State) off (b : List Byte), 64 ≤ off →
      ∃ (bs : List Byte) (sh : Table Byte 1024) (code : Fin 16 → Nat) (covered came ignored : List (Fin 16)),
        bs = b.take (1088 - off)
        ∧ (∀ j, j < 1024 → sh.items.getD j 0 = if off - 64 ≤ j ∧ j < off - 64 + bs.length then bs.getD (j - (off - 64)) 0
            else s.ctl.shadow.items.getD j 0)
        ∧ (∀ n, code n = (sh.items.getD (64 * n.val + 56) 0).toNat)
        ∧ covered = (List.finRange 16).filter (fun n =>
            decide (off ≤ 120 + 64 * n.val ∧ 120 + 64 * n.val < off + b.length ∧ code n ≠ 0))
        ∧ came = covered.filter (fun n => !s.ctl.marks.get n) ∧ ignored = covered.filter (fun n => s.ctl.marks.get n))
      ∧ (let s := { noticed with ctl := { noticed.ctl with marks := noticed.ctl.marks.set 1 true } }
        let at1 (off : Nat) (b : List Byte) : List Nat × List NoticeKind :=
          let t := takeCommands off b s
          (t.ctl.queue.map (·.code), t.ctl.unreleased)
        at1 120 [12] = ([12], [.guard]) ∧ at1 120 [0] = ([], [.guard]) ∧ at1 119 [12] = ([], [.guard])
          ∧ at1 120 (12 :: (zeros 63 ++ [13])) = ([12], [.guard, .commandIgnored])
          ∧ at1 1080 (12 :: zeros 200) = ([12], [.guard]) ∧ at1 1088 [12] = ([], [.guard])) := by
  refine ⟨fun s off b _ => ⟨_, Table.ofFn fun j => if off - 64 ≤ j.val ∧ j.val < off - 64 + (b.take (1088 - off)).length then
    (b.take (1088 - off)).getD (j.val - (off - 64)) 0 else s.ctl.shadow.items.getD j.val 0, _, _, _, _, rfl, fun j h => ?_,
    fun _ => rfl, rfl, rfl, rfl⟩, by decide +kernel⟩
  simp [Table.ofFn, h]

/-- `noticed` in WRITE mode. -/
def releaseState : State := { noticed with ctl := { noticed.ctl with mode := .write } }

/-- NOTICES UNSET, full at 126 and one short of full; release words of 1 (all there are) and 2 (more than written); reads
of 32 bytes at offset 64, which touch bytes 88 to 95 of slot 0, and of the 24 bytes before them. -/
theorem witness_NoticesAreWrittenAndReleased :
    Observed .notices 8 (le 8 1) ⟨0x300008, 0, .write (le 8 1)⟩ releaseState
      ∧ ap .notices started = none ∧ ap .notices noticed = some ⟨0x300000, 4096⟩ ∧ 4096 / 32 - 2 ≤ 126 - 0
      ∧ noticed.ctl.written - noticed.ctl.released < 4096 / 32 - 2
      ∧ (le 8 1).length = 8 ∧ 0 = releaseState.ctl.controlInit ∧ releaseState.ctl.released ≤ ofLe (le 8 1)
      ∧ ofLe (le 8 1) ≤ releaseState.ctl.written ∧ ¬ofLe (le 8 2) ≤ releaseState.ctl.written
      ∧ (after (exec (.requestAccept ⟨0x300008, 0, .write (le 8 1)⟩) releaseState)).ctl.unreleased = []
      ∧ (after (exec (.requestAccept ⟨0x300008, 0, .write (le 8 2)⟩) releaseState)).ctl.unreleased = [.guard]
      ∧ noticeState.port.granted = [.piece ⟨0, 0, some .notices, true, 64, 0x300040, 0, .read 32⟩]
      ∧ noticeState.ctl.mode = .read ∧ noticeState.ctl.released ≤ 0 ∧ 0 < noticeState.ctl.written
      ∧ (64 ≤ 88 ∧ 88 < 64 + 32 ∧ 88 + 32 * (0 % 126) ≤ 88 ∧ 88 < 96 + 32 * (0 % 126))
      ∧ (let s := { noticeState with port := { Port.reset with
            granted := [.piece ⟨0, 0, some .notices, true, 64, 0x300040, 0, .read 24⟩] } }
        (after (exec .readServed s)).ctl.unreleased = [.guard])
      ∧ (after (exec .readServed releaseState)).ctl.unreleased = [.guard] :=
  ⟨⟨mapOk_of _ (by decide +kernel) (by decide +kernel) (by decide +kernel) rfl, rfl, by decide +kernel, by decide +kernel,
    rfl, by decide +kernel, by decide +kernel, ⟨0x300000, 4096⟩, by decide +kernel⟩, by decide +kernel⟩

/-- 48 waiting entries behind a piece in flight, and one with none in flight. 47: the oldest piece goes first, a read, or
a write that is its request's last piece or not; and a head entry that overlaps a write accepted before it joined is
held back (R13). -/
theorem witness_GrantsReachDramInOrder :
    DramOk (arbiterState 48 [readPiece]) ∧ (arbiterState 48 [readPiece]).port.held = []
      ∧ (arbiterState 48 [readPiece]).port.granted = []
      ∧ (arbiterState 48 [readPiece]).ins.queue = ⟨.write 0x7000 [5, 6], 0⟩ :: List.replicate 47 ⟨.write 0x7000 [5, 6], 0⟩
      ∧ heldBack ⟨.write 0x7000 [5, 6], 0⟩ [readPiece] = false
      ∧ 48 ≤ (arbiterState 48 [readPiece]).ins.queue.length ∧ (arbiterState 1 []).port.inflight = []
      ∧ DramOk (arbiterState 47 [readPiece]) ∧ (arbiterState 47 [readPiece]).port.inflight = readPiece :: []
      ∧ (arbiterState 47 [readPiece]).ins.queue.length < 48 ∧ readPiece.op = .read 4
      ∧ (arbiterState 0 [writePiece]).ins.queue = [] ∧ writePiece.op = .write [1, 2]
      ∧ (arbiterState 0 [writePiece]).port.opens = ⟨1, 3, false, 1, []⟩ :: []
      ∧ heldBack ⟨.write 0x5FFF [9, 9], 2⟩ [writePiece] = true ∧ heldBack ⟨.write 0x5FFF [9, 9], 1⟩ [writePiece] = false
      ∧ heldBack ⟨.write 0x5FFE [9, 9], 2⟩ [writePiece] = false
      ∧ (let s := { arbiterState 0 [writePiece] with port := { (arbiterState 0 [writePiece]).port with
            opens := [⟨1, 3, false, 2, []⟩] } }
        (after (exec .downstreamGrant s)).port.opens = [⟨1, 3, false, 1, []⟩]
          ∧ (after (exec .downstreamGrant s)).port.answers = []) := by
  unfold DramOk; decide +kernel

/-- The worked example's rows: 46 waiting, the read is granted; 48 waiting, the head entry is; 47, piece 1 is, and its
write is answered. -/
theorem test_the_arbiter_takes_the_pieces_below_the_threshold :
    (after (exec .downstreamGrant (arbiterState 46 [readPiece, writePiece]))).port.granted = [.piece readPiece]
      ∧ (after (exec .downstreamGrant (arbiterState 48 [writePiece]))).ins.queue.length = 47
      ∧ (let t := after (exec .downstreamGrant (arbiterState 47 [writePiece]))
        t.dram = [(0x6000, 1), (0x6001, 2)] ∧ t.port.answers = [⟨1, 3, false, []⟩] ∧ t.port.inflight = []) := by
  decide +kernel

/-- A store read at the head of the insert queue, and grants behind a read piece or a store read not yet served. -/
theorem witness_GrantsReachDramInOrder_reads :
    let s := { arbiterState 47 [readPiece] with
      ins := { (arbiterState 47 [readPiece]).ins with
        queue := ⟨.read 0x200040 3, 0⟩ :: List.replicate 47 ⟨.write 0x7000 [5, 6], 0⟩ } }
    let behind (g : Granted) (u : State) : State := { u with port := { u.port with granted := [g] } }
    let granted (u : State) : List Granted × Memory :=
      ((after (exec .downstreamGrant u)).port.granted, (after (exec .downstreamGrant u)).dram)
    s.ins.queue.length = 48 ∧ granted s = ([.entry (.read 0x200040 3)], [])
      ∧ writeOf (.piece readPiece) = none ∧ writeOf (.entry (.read 0x200040 3)) = none
      ∧ granted (behind (.piece readPiece) s) = ([.piece readPiece, .entry (.read 0x200040 3)], [])
      ∧ granted (behind (.piece readPiece) (arbiterState 1 [])) = ([.piece readPiece, .entry (.write 0x7000 [5, 6])], [])
      ∧ granted (behind (.entry (.read 0x200040 3)) (arbiterState 47 [readPiece]))
        = ([.entry (.read 0x200040 3), .piece readPiece], [])
      ∧ granted (behind (.entry (.read 0x200040 3)) (arbiterState 0 [writePiece]))
        = ([.entry (.read 0x200040 3), .piece writePiece], []) := by
  decide +kernel

/-- A write piece granted behind an upstream read whose request is still open, and so stands before the write's. -/
theorem witness_GrantsReachDramInOrder_behind_an_open_read :
    let s (left : Nat) : State := { arbiterState 0 [writePiece] with port := { Port.reset with
      granted := [.piece readPiece], inflight := [writePiece]
      opens := [⟨0, 1, true, 1, []⟩] ++ ⟨1, 3, false, left, []⟩ :: [⟨2, 4, true, 1, []⟩] } }
    writeOf (.piece readPiece) = none ∧ writePiece.op = .write [1, 2] ∧ (1 : Nat) = writePiece.req
      ∧ (s 1).ins.queue = []
      ∧ (∀ x ∈ [(⟨0, 1, true, 1, []⟩ : OpenReq)] ++ [⟨2, 4, true, 1, []⟩], x.id ≠ writePiece.req)
      ∧ (after (exec .downstreamGrant (s 1))).port.opens = [⟨0, 1, true, 1, []⟩, ⟨2, 4, true, 1, []⟩]
      ∧ (after (exec .downstreamGrant (s 1))).port.answers = [⟨1, 3, false, []⟩]
      ∧ (after (exec .downstreamGrant (s 2))).port.opens.map (·.left) = [1, 1, 1]
      ∧ (after (exec .downstreamGrant (s 1))).dram = [] := by
  decide +kernel

theorem witness_ServedReadsAnswerWithDram :
    ({ Port.reset with granted := [.piece readPiece], opens := [⟨0, 1, true, 1, [8]⟩] } : Port).granted = [.piece readPiece]
      ∧ readPiece.op = .read 4 ∧ readPiece.fn = none ∧ (0 : Nat) = readPiece.req
      ∧ (∀ x ∈ ([] : List OpenReq), x.id ≠ readPiece.req) ∧ State.reset.port.granted = [] := by
  decide +kernel

/-- A read of LOG with two granted writes and then a store read behind it: the first piece of two, and the last. -/
theorem witness_ServedReadsAnswerWithDram_functions :
    let p : Piece := { readPiece with fn := some .log, guarded := true }
    let s (left : Nat) : State := { started with port := { Port.reset with
      granted := .piece p :: ([.entry (.write 0x5000 [7]), .piece writePiece] ++ [.entry (.read 0x200040 3)])
      opens := [⟨0, 1, true, left, [8]⟩] } }
    (∀ f, p.fn = some f → f ≠ .notices ∧ ∀ q, f ≠ .path q) ∧ p.op = .read 4 ∧ (0 : Nat) = p.req
      ∧ (∀ g ∈ [Granted.entry (.write 0x5000 [7]), .piece writePiece], (writeOf g).isSome = true)
      ∧ writeOf (.entry (.read 0x200040 3)) = none
      ∧ (after (exec .readServed (s 2))).port.opens = [⟨0, 1, true, 1, [8, 0, 0, 0, 0]⟩]
      ∧ (after (exec .readServed (s 1))).port.answers = [⟨0, 1, true, [8, 0, 0, 0, 0]⟩]
      ∧ (after (exec .readServed (s 1))).dram = [(0x5000, 7), (0x6000, 1), (0x6001, 2)]
      ∧ (after (exec .readServed (s 1))).port.granted = [.entry (.read 0x200040 3)] := by
  refine ⟨fun f h => ?_, by decide +kernel⟩
  cases h
  exact ⟨by decide, fun q => by simp⟩

/-- A read of two pieces: bytes in address order, the second joining what the first brought. -/
theorem test_a_read_is_answered_with_its_bytes :
    (after (exec .readServed { started with
      dram := [(0x5001, 4)]
      port := { Port.reset with granted := [.piece readPiece], opens := [⟨0, 1, true, 1, [8]⟩] } })).port.answers
      = [⟨0, 1, true, [8, 0, 4, 0, 0]⟩] := by
  decide +kernel

/-- The worked example "a ring filling": placed 123, published 123, consumed 20, one pending arm, on 127 cells. -/
def drainPath : HomePath :=
  { HomePath.reset with
    state := .running, consumer := 5, high := 100, low := 60, placed := 123, published := 123, consumed := 20
    units := [⟨20, 80, some 39⟩, ⟨100, 21, some 40⟩, ⟨121, 2, some 41⟩], nextSeq := 42, arm := false }

/-- The consumer reads positions 119 and 120: offset 64 × 120 of the ring, 128 bytes. -/
def drainPiece : Piece := ⟨0, 0, some (.path 0), true, 7680, 0x100001E00, 5, .read 128⟩

def drainState : State :=
  { mapped with
    home := { mapped.home with paths := mapped.home.paths.set 0 drainPath }
    port := { Port.reset with granted := [.piece drainPiece] } }

/-- `drainState` with its path changed and a piece read. -/
def readState (P : HomePath) (p : Piece) : State :=
  { drainState with
    home := { drainState.home with paths := drainState.home.paths.set 0 P }, port := { Port.reset with granted := [.piece p] } }

/-- Position 120 is the last cell of sequence 40: consumed becomes 121 and the arm is set, as in the worked example. Then
the same with the last entry placed and not published, read early; a STALLED path; another initiator; an OFF path; and
a read of the header alone. -/
theorem witness_ConsumerReadsConsume :
    PathsOk drainState ∧ drainPiece.op = .read 128 ∧ drainPiece.fn = some (.path 0) ∧ drainPiece.initiator = drainPath.consumer
      ∧ drainPath.state = .running ∧ pathCells 0 drainState = 127
      ∧ drainPath.units = [⟨20, 80, some 39⟩] ++ ⟨100, 21, some 40⟩ :: [⟨121, 2, some 41⟩] ∧ 100 + 21 ≤ drainPath.published
      ∧ touchedCells drainPiece.off 128 = [119, 120]
      ∧ (let t := (after (exec .readServed drainState)).home.paths.get 0
        t.consumed = 121 ∧ t.units = [⟨121, 2, some 41⟩] ∧ t.arm = true ∧ t.early = 0)
      ∧ (let P := { drainPath with published := 121 }
        let t := (after (exec .readServed (readState P { drainPiece with off := 64 * 122, op := .read 64 }))).home.paths.get 0
        t = { P with early := 1 })
      ∧ (let t := after (exec .readServed (readState { drainPath with state := .stalled, stallAt := 3 } drainPiece))
        (t.home.paths.get 0).state = .running ∧ t.ctl.lostTotal = 1)
      ∧ (after (exec .readServed (readState drainPath { drainPiece with initiator := 6 }))).home.paths.get 0 = drainPath
      ∧ (after (exec .readServed (readState .reset { drainPiece with initiator := 0 }))).home.paths.get 0 = .reset
      ∧ (after (exec .readServed (readState drainPath { drainPiece with off := 0, op := .read 64 }))).home.paths.get 0
          = drainPath :=
  ⟨pathsOk_of _ (by unfold pathOk; decide +kernel) (by decide +kernel), by decide +kernel⟩

/-- A path's consumer and the control initiator in NOTICES, each with a granted write behind its read and its request
between two others. -/
theorem witness_ServedReadsAnswerWithDram_owners :
    let opens : List OpenReq := [⟨5, 1, false, 1, []⟩, ⟨0, 5, true, 1, [8]⟩, ⟨6, 1, false, 1, []⟩]
    let s (p : Piece) (t : State) : State := { t with dram := [(0x300045, 9)], port := { Port.reset with
      granted := .piece p :: ([.entry (.write 0x5000 [7])] ++ []), opens := opens } }
    let path : Piece := { drainPiece with addr := 0x300040, op := .read 8 }
    let notices : Piece := ⟨0, 0, some .notices, true, 64, 0x300040, 0, .read 32⟩
    opens = [⟨5, 1, false, 1, []⟩] ++ ⟨0, 5, true, 1, [8]⟩ :: [⟨6, 1, false, 1, []⟩]
      ∧ (∀ x ∈ [(⟨5, 1, false, 1, []⟩ : OpenReq)] ++ [⟨6, 1, false, 1, []⟩], x.id ≠ path.req)
      ∧ (∀ g ∈ [Granted.entry (.write 0x5000 [7])], (writeOf g).isSome = true)
      ∧ path.fn = some (.path 0) ∧ notices.fn = some .notices ∧ path.req = 0 ∧ notices.req = 0
      ∧ (let t := after (exec .readServed (s path drainState))
        t.port.answers = [⟨0, 5, true, [8, 0, 0, 0, 0, 0, 9, 0, 0]⟩] ∧ t.dram = [(0x5000, 7), (0x300045, 9)]
          ∧ t.port.opens.map (·.id) = [5, 6])
      ∧ (let t := after (exec .readServed (s notices noticeState))
        t.dram = [(0x5000, 7), (0x300045, 9)] ∧ t.ctl.unreleased = []
          ∧ t.port.answers.map (·.data.length) = [33]) := by
  decide +kernel

/-- A sound unit of 4 cells. -/
def unit4 : MUnit := .sound 0 0 23 97 3 false false (zeros 184)

/-- 25 cells do not fit `drainPath`, which has 24 of 127 cells free. -/
theorem drainPath_full (pad : Nat) (passed : Bool) : ¬FitsAt 127 drainPath 25 pad passed := by
  rintro (⟨_, _, h, _⟩ | ⟨rfl, _, _, _, h⟩ | ⟨_, _, _, h, _⟩) <;> exact absurd h (by decide +kernel)

/-- A path on which pending tags and a held offer wait, in-use 2 and Y 2. -/
def waitState (tags : List MUnit) (offer : Option MUnit) : State :=
  { mapped with home := { mapped.home with paths := mapped.home.paths.set 0 { drainPath with
      ceiling := 2, consumed := 121, units := [⟨121, 2, some 41⟩], tags := tags, heldOffer := offer } } }

/-- Each form of a fit on 127 cells, in "a ring filling", and none; then a unit placed, shed, pending, dropped and held. -/
theorem witness_UnitsArePlacedShedOrHeld :
    FitsAt 127 { drainPath with placed := 100 } 21 0 false ∧ FitsAt 127 { drainPath with consumed := 121 } 21 4 false
      ∧ FitsAt 127 { drainPath with placed := 148, consumed := 148 } 120 106 true
      ∧ (∀ pad passed, ¬FitsAt 127 drainPath 25 pad passed)
      ∧ pathCells 0 drainState = 127 ∧ unit4.cells = 4 ∧ (MUnit.replay .sound (zeros 1600)).cells = 25
      ∧ FitsAt 127 drainPath 4 0 false ∧ drainPath.tags = [] ∧ 127 < (MUnit.replay .sound (zeros 8200)).cells
      ∧ (offerLive 4 unit4 0 drainState).home.paths.get 0
          = (placedAs 0 unit4 0 0 false drainState).home.paths.get 0
      ∧ ((offerLive 4 (.replay .sound (zeros 1600)) 0 drainState).home.paths.get 0).sheds.get 4 = 1
      ∧ ((offerTag unit4 0 (waitState [unit4] none)).home.paths.get 0).tags = [unit4, unit4]
      ∧ (offerTag (.tag 0 0 0 41 .opened []) 0 (waitState (List.replicate 4 unit4) none)).ctl.lostTotal = 1
      ∧ ((tryTags 0 [unit4, unit4] (waitState [unit4, unit4] none)).home.paths.get 0).nextSeq = 44
      ∧ replayAnswer 0 (.replay .sound (zeros 8200)) drainState = .oversize ∧ replayAnswer 0 unit4 drainState = .wait
      ∧ replayAnswer 0 unit4 (waitState [] none) = .placed
      ∧ ((reexamine 0 (waitState [] (some unit4))).home.paths.get 0).heldOffer = none
      ∧ ((reexamine 0 { drainState with home := { drainState.home with
          paths := drainState.home.paths.set 0 { drainPath with heldOffer := some unit4 } } }).home.paths.get 0).placed = 123 := by
  refine ⟨?_, ?_, ?_, drainPath_full, ?_⟩ <;> unfold FitsAt <;> decide +kernel

/-- The turn at block 4 (the mixer) with entries held by path A and the mixer; a full queue; empty holds. -/
def joinState : State :=
  { started with ins :=
      { queue := List.replicate 63 ⟨.write 0 [1], 0⟩, turn := 4
        holds := ((Table.fill 6 []).set 1 [⟨.write 1 [1], .publish 0 3⟩]).set 4 [⟨.write 2 [2], .nothing⟩] } }

/-- The turn at block 4 with entries held by path A and the mixer; then a join that publishes, and one that makes a unit
readable; a full queue; empty holds. -/
theorem witness_JoinsGoInTurn :
    joinState.ins.queue.length < 64 ∧ (∀ j : Fin 6, j < 0 → joinState.ins.holds.get (joinState.ins.turn + j) = [])
      ∧ joinState.ins.holds.get (joinState.ins.turn + 0) = ⟨.write 2 [2], .nothing⟩ :: []
      ∧ (after (exec .insertQueueJoin joinState)).ins.turn = 1
      ∧ (after (exec .insertQueueJoin joinState)).ins.queue.length = 64
      ∧ 64 ≤ (after (exec .insertQueueJoin joinState)).ins.queue.length
      ∧ (∀ b, State.reset.ins.holds.get b = [])
      ∧ (let s := { joinState with ins := { joinState.ins with turn := 5 } }
        (∀ j : Fin 6, j < 2 → s.ins.holds.get (s.ins.turn + j) = [])
          ∧ s.ins.holds.get (s.ins.turn + 2) = ⟨.write 1 [1], .publish 0 3⟩ :: []
          ∧ ((after (exec .insertQueueJoin s)).home.paths.get 0).published = 3)
      ∧ (let s := { stored with
            ins := { InsertPath.reset with holds := InsertPath.reset.holds.set 3 [⟨.write 0 [1], .readable 501⟩] }
            store := { stored.store with retained := [⟨0, 2, some ⟨501, some 0, 8000, false⟩⟩] } }
        s.ins.holds.get (s.ins.turn + 3) = ⟨.write 0 [1], .readable 501⟩ :: []
          ∧ (after (exec .insertQueueJoin s)).store.retained = [⟨0, 2, some ⟨501, some 0, 8000, true⟩⟩]) := by
  decide +kernel

/-- The last non-empty hold is emptied: the turn stands at the block after the one served, from block 4 and around from 5. -/
theorem witness_JoinsGoInTurn_empty :
    let s (b turn : Fin 6) : State := { started with ins := { InsertPath.reset with
      turn := turn, holds := InsertPath.reset.holds.set b [⟨.write 2 [2], .nothing⟩] } }
    let t (b turn : Fin 6) : State := after (exec .insertQueueJoin (s b turn))
    (s 4 1).ins.holds.get ((s 4 1).ins.turn + 3) = ⟨.write 2 [2], .nothing⟩ :: []
      ∧ (∀ b, (t 4 1).ins.holds.get b = []) ∧ (t 4 1).ins.turn = 5 ∧ (t 5 5).ins.turn = 0 := by
  decide +kernel

/-- A store of 1023 cells with one unit at 0 and its head at cell 1022, so that a unit of 4 cells needs a pad of 1 and
the place of that unit; and a state of the store. -/
def endState (st : StoreState) (log : ClipLog) : State :=
  { stored with log := log, store := { stored.store with state := st, head := 1022 } }

/-- Behind the head at 2 nothing leaves. At 1022 the unit at 0 leaves, and it lies in a SENDING clip's range or not. -/
theorem witness_StoreOffersStoreOrRefuse :
    stored.store.state ≠ .off ∧ storeCells stored = 1023 ∧ unit4.cells = 4 ∧ 4 ≤ 1023 - 2 % 1023
      ∧ stored.store.retained = [] ++ stored.store.retained
      ∧ (∀ e ∈ stored.store.retained, 2 + 0 + 4 ≤ 1023 + e.start)
      ∧ ¬4 ≤ 1023 - 1022 % 1023 ∧ 1023 - 1022 % 1023 = 1
      ∧ (endState .running (oneClip clip41)).store.retained = (endState .running (oneClip clip41)).store.retained ++ []
      ∧ (∀ e ∈ stored.store.retained, 1023 + e.start < 1022 + 1 + 4)
      ∧ within 500 500 503 = true ∧ clip41.state ≠ .sending
      ∧ (offerStore none 100 unit4 stored).store.head = 6
      ∧ (let t := offerStore none 100 unit4 (endState (.blocked 9) (oneClip clip41))
        t.store.state = .running ∧ t.store.retained.map (·.start) = [1022, 1023] ∧ (t.log.recs.get 0).state = .lost)
      ∧ (let t := offerStore none 100 unit4
            (endState .running (oneClip { clip41 with state := .sending, prior := some .closed }))
        t.store.state = .blocked 41 ∧ t.store.gaps = 1 ∧ t.store.head = 1022 ∧ t.ctl.lostTotal = 1) := by
  decide +kernel

/-- A row of lane 0 and frame 100 behind the frame-open mark: it makes the index entry that resolves a FIRST_PENDING clip
and then counts in its tally; with an entry of frame 100 there already it makes none. -/
theorem witness_StoreOffersStoreOrRefuse_rows :
    let waiting : Clip := { open41 with source := 0, first := none, firstPending := true }
    let s (last : W32) : State := { stored with
      log := oneClip waiting
      store := { stored.store with
        openMark := (Table.fill 4 false).set 0 true, index := (Table.fill 4 []).set 0 [⟨last, 500, 0⟩] } }
    let row : MUnit := .row 0 100 100 0 0 3 8 [0]
    let evicted : List IndexEntry := [⟨80, 500, 0⟩]
    (s 80).store.state ≠ .off ∧ (s 80).store.retained = [] ++ (s 80).store.retained ∧ row.cells = 1
      ∧ (s 80).store.openMark.get 0 = true ∧ (s 80).store.index.get 0 = evicted
      ∧ (evicted.getLast?.map fun x => decide (x.frame = (100 : W32))) ≠ some true
      ∧ (offerStore (some 0) 100 row (s 80)).log.recs.get 0
        = { waiting with first := some (501, 2), firstPending := false, tally := 1, rev := waiting.rev + 1 }
      ∧ (offerStore (some 0) 100 row (s 100)).log.recs.get 0 = waiting := by
  decide +kernel

/-- An OPEN clip of source 1 whose first unit must leave: its pointer is cleared, and pointer 0 stands. -/
theorem witness_StoreOffersStoreOrRefuse_pointers :
    let s := endState .running (oneClip open41)
    s.log.opens.get 1 = some 41 ∧ (s.log.recs.get 0).first = some (500, 10)
      ∧ (offerStore none 100 unit4 s).log.opens.get 1 = none
      ∧ (offerStore none 100 unit4 s).log.opens.get 0 = s.log.opens.get 0 := by
  decide +kernel

/-! ## The transfer engine's reads -/

/-- Clip 52 of the worked example "a transfer with a pause": unit 600 of lane 0, frame 8000, two cells at the store's
cells 0 and 1; path A RUNNING with Y 40. -/
def sendingState : State :=
  { stored with
    aps := { stored.aps with map := stored.aps.map.set 9 (some ⟨0x100000000, 8192⟩) }
    store := { stored.store with retained := [⟨0, 2, some ⟨600, some 0, 8000, true⟩⟩, ⟨2, 21, some ⟨601, none, 8000, true⟩⟩], index := Table.fill 4 []
                                 nextSeq := 608 }
    log := oneClip { Clip.free 1 with
      num := 52, state := .sending, prior := some .closed, inFrame := 8000, inTc := 8000, out := some (8001, 8001)
      stamp := some 4, first := some (600, 0), last := some (607, 21) }
    home := { stored.home with paths := stored.home.paths.set 0 { HomePath.reset with
      state := .running, ceiling := 40, high := 100, placed := 254, published := 254, consumed := 244, nextSeq := 200 } }
    xfer := { Transfer.reset with queue := [⟨52, 0⟩], cursor := 600, remaining := 8 } }

/-- `sendingState` with its reads made and one of the two granted. -/
def readingState (tag : Nat) : State :=
  { sendingState with
    xfer := { sendingState.xfer with issued := true }
    port := { Port.reset with granted := [.entry (.read 0x200040 tag)] } }

theorem witness_TransfersReadOfferAndAdvance :
    sendingState.xfer.queue = ⟨52, 0⟩ :: []
      ∧ retainedOf sendingState.xfer.cursor sendingState
          = some (⟨0, 2, some ⟨600, some 0, 8000, true⟩⟩, ⟨600, some 0, 8000, true⟩)
      ∧ sendingState.xfer.paused = false ∧ sendingState.xfer.issued = false ∧ cursorSelected sendingState = true
      ∧ (readingState 0).xfer.issued = true
      ∧ (readingState 0).port.granted = [.entry (.read 0x200040 (readingState 0).xfer.tag)]
      ∧ (readingState 0).xfer.buffer.length + 1 < 2 ∧ [zeros 64].length + 1 = 2
      ∧ (readingState 1).port.granted = [.entry (.read 0x200040 1)] ∧ 1 ≠ (readingState 1).xfer.tag
      ∧ replayAnswer 0 (.replay .pictureRow (zeros 100)) (readingState 0) = .placed
      ∧ replayAnswer 0 (.replay .pictureRow (zeros 8200)) (readingState 0) = .oversize
      ∧ replayAnswer 0 (.replay .pictureRow (zeros 100)) (waitState [] none) = .placed
      ∧ replayAnswer 0 (.replay .pictureRow (zeros 100)) drainState = .wait
      ∧ sendingState.xfer.remaining ≠ 0 ∧ findClip 52 sendingState = some 0
      ∧ (sendingState.log.recs.get 0).first = some (600, 0) ∧ (sendingState.log.recs.get 0).last = some (607, 21)
      ∧ (activate sendingState).xfer.remaining = 8
      ∧ (let s := { sendingState with store := { sendingState.store with
            retained := [⟨0, 2, some ⟨600, some 3, 8000, true⟩⟩, ⟨2, 21, some ⟨601, none, 8000, true⟩⟩] } }
        cursorSelected s = false ∧ (goOn s).xfer.cursor = 601 ∧ (goOn s).xfer.skipped = 1)
      ∧ (let s := { sendingState with xfer := { sendingState.xfer with remaining := 0 } }
        ((goOn s).log.recs.get 0).state = .sent ∧ ((goOn s).log.recs.get 0).sends = 1 ∧ (goOn s).xfer.queue = []) := by
  decide +kernel

/-- What the cursor selects: of the clip's own frames, 90 and 95 at their ends, rows of its source and sound. -/
theorem witness_TransfersReadOfferAndAdvance_selects :
    let at1 (source : Option (Fin 4)) (frame : W32) : Bool := clip41.selects ⟨500, source, frame, true⟩
    at1 (some 1) 90 = true ∧ at1 none 95 = true ∧ at1 (some 1) 89 = false ∧ at1 none 96 = false ∧ at1 (some 0) 92 = false
      ∧ open41.selects ⟨500, none, 92, true⟩ = false := by
  decide +kernel

/-- A store read with two writes to its own cell granted behind it, then a read and one more write: the data is that of
before, the two writes land, the rest stays granted. The engine paused, and no store read in front. -/
theorem witness_TransfersReadOfferAndAdvance_behind :
    let ws : List Granted := [.entry (.write 0x200040 [7]), .piece { writePiece with addr := 0x200041 }]
    let later : List Granted := [.piece readPiece, .entry (.write 0x200042 [9])]
    let s : State := { readingState 0 with
      dram := [(0x200040, 5)], port := { Port.reset with granted := .entry (.read 0x200040 0) :: (ws ++ later) } }
    let t := after (exec .storeReadServed s)
    (readingState 0).xfer.tag = 0 ∧ (∀ g ∈ ws, (writeOf g).isSome = true) ∧ writeOf (.piece readPiece) = none
      ∧ t.xfer.buffer = [5 :: zeros 63] ∧ t.dram = [(0x200040, 7), (0x200041, 1), (0x200042, 2)] ∧ t.port.granted = later
      ∧ (let p := { s with xfer := { s.xfer with paused := true } }
        (after (exec .storeReadServed p)).xfer.buffer = [] ∧ (after (exec .storeReadServed p)).port.granted = later)
      ∧ (∀ a k rest, State.reset.port.granted ≠ .entry (.read a k) :: rest) := by
  refine ⟨by decide +kernel, by decide +kernel, by decide +kernel, by decide +kernel, by decide +kernel, by decide +kernel,
    by decide +kernel, fun _ _ _ h => by simp [State.reset, Port.reset] at h⟩

/-- The two cells of unit 600 are read at the store's cells 0 and 1, behind its 64-byte header. -/
theorem test_the_cells_of_a_unit_are_read_in_order :
    (after (exec .transferReadIssue sendingState)).ins.holds.get 5
      = [⟨.read 0x200040 0, .nothing⟩, ⟨.read 0x200080 0, .nothing⟩] := by
  decide +kernel

/-- The last cell's return: the replay unit is PLACED at position 0 (in use 12, sequence 200), and the engine goes on to
601 with 7 remaining (the worked example's first row). -/
theorem test_a_read_unit_is_placed_as_replay :
    let s := { readingState 0 with
      dram := [(0x200040, 1), (0x200042, 100)], xfer := { (readingState 0).xfer with buffer := [[1, 0, 100] ++ zeros 61] } }
    let t := after (exec .storeReadServed s)
    (t.home.paths.get 0).placed = 256 ∧ (t.home.paths.get 0).nextSeq = 201 ∧ t.xfer.placed = 1 ∧ t.xfer.cursor = 601
      ∧ t.xfer.remaining = 7 := by
  decide +kernel

/-! ## Reset and start-up -/

theorem witness_LinkResetAndLinkUp :
    ap .commands State.reset = none ∧ ap .commands started = some ⟨0xFFFFF00000, 4096⟩ ∧ started.port.held = [] := by
  decide +kernel

/-- R15, R176: the link reset clears the command queue and brings the cause LINK (2) into the header. -/
theorem test_link_reset_clears_the_commands :
    let t := after (exec .linkReset (put (cmd 12 [2]) started))
    t.ctl.queue = [] ∧ t.ctl.marks.get 0 = false ∧ t.port.linkUp = false
      ∧ t.ins.holds.get 0
        = [⟨.write 0xFFFFF00000 ([0x40, 0x71, 1, 2, 1, 0, 0, 0, 0, 0, 0, 0] ++ List.replicate 52 0), .nothing⟩] := by
  decide +kernel

/-- R173: with CFGSEL low, part code 0x7140, revision 1, cause POWER_ON (1), load result NONE (0). -/
theorem test_power_on_without_a_load :
    let t := after (exec (.powerOnReset false) started)
    t.ctl.loader = .ended ∧ ap .commands t = some ⟨0xFFFFF00000, 4096⟩
      ∧ t.ins.holds.get 0
        = [⟨.write 0xFFFFF00000 ([0x40, 0x71, 1, 1, 0, 0, 0, 0, 0, 0, 0, 0] ++ List.replicate 52 0), .nothing⟩] := by
  decide +kernel

/-- One entry for each clause: tag 1 first, tag 2 after 1, tag 3 naming rate 2 with the reference on and a rate of 5, tag
4, tag 5 after 2, tag 255 at last; bad padding, a tag that does not rise, tags 0 and 6; entry 31; no acknowledge. -/
theorem witness_LoadEntriesAreTakenInTagOrder :
    State.reset.ctl.loader = .reading 0 none ∧ (0x0000000500000001 : BitVec 64).toNat % 256 = 1
      ∧ (0x0000000500000001 : BitVec 64).toNat / 256 % 2 ^ 24 = 0 ∧ tagRises 1 none = true
      ∧ (0x0000010500000001 : BitVec 64).toNat % 256 = 1 ∧ tagRises 2 (some 1) = true ∧ tagRises 5 (some 2) = true
      ∧ tagRises 255 (some 5) = true ∧ tagRises 1 (some 1) = false ∧ (30 : Nat) < 31
      ∧ (0x0000000500000101 : BitVec 64).toNat / 256 % 2 ^ 24 ≠ 0
      ∧ (0x0000000500000006 : BitVec 64).toNat % 256 = 6 ∧ started.ctl.loader = .ended
      ∧ (0x0000010200000003 : BitVec 64).toNat / 2 ^ 32 % 256 = (2 : Fin 5).val
      ∧ (0x0000010200000003 : BitVec 64).toNat / 2 ^ 32 / 256 % 256 ≠ 0 ∧ State.reset.clock.lock = .free
      ∧ 4 < (0x0000000500000003 : BitVec 64).toNat / 2 ^ 32 % 256
      ∧ (let t := after (exec (.configEntryRead (some 0x0000010200000003) 0) State.reset)
        t.clock.pendingRate = some 2 ∧ t.clock.lock = .seeking)
      ∧ (let t := after (exec (.configEntryRead (some 0x0000000500000003) 0) State.reset)
        t.clock = State.reset.clock)
      ∧ (let t := after (exec (.configEntryRead (some 0x0000001800000004) 0) State.reset)
        (t.pins.get 0).fn = .unused ∧ (t.pins.get 1).fn = .line ∧ (t.pins.get 2).fn = .mark)
      ∧ (let s := { State.reset with ctl := { State.reset.ctl with loader := .reading 31 (some 1) } }
        let t := after (exec (.configEntryRead (some 0x0000001800000004) 4) s)
        t.ctl.loadResult = .error ∧ t.ctl.loadErr = 32 ∧ (t.pins.get 2).confirmed = true) := by
  decide +kernel

/-- A load (R172): COMMANDS base 0x12_3450_0000 in two entries, control initiator 9, then the end. -/
theorem test_a_load_of_four_entries :
    let t1 := after (exec (.configEntryRead (some 0x0003450000000001) 0) State.reset)
    let t2 := after (exec (.configEntryRead (some 0x0000001200000002) 0) t1)
    let t3 := after (exec (.configEntryRead (some 0x0000000900000005) 0) t2)
    let t4 := after (exec (.configEntryRead (some 0x00000000000000FF) 0) t3)
    t4.ctl.loader = .ended ∧ t4.ctl.loadResult = .ok ∧ t4.ctl.applied = 3 ∧ t4.ctl.controlInit = 9
      ∧ ap .commands t4 = some ⟨0x1234500000, 4096⟩ := by
  decide +kernel

/-- No acknowledge at entry 0 is ABSENT; an entry with a tag that does not rise is ERROR with its index. -/
theorem test_a_load_that_fails :
    (after (exec (.configEntryRead none 0) State.reset)).ctl.loadResult = .absent
      ∧ (let t1 := after (exec (.configEntryRead (some 0x0000000900000005) 0) State.reset)
        let t2 := after (exec (.configEntryRead (some 0x0000001200000002) 0) t1)
        t2.ctl.loadResult = .error ∧ t2.ctl.loadErr = 1 ∧ t2.ctl.applied = 1) := by
  decide +kernel

/-! ## The station clock -/

/-- A clock at a frame boundary. -/
def atBoundary (c : Clock) : State := { started with clock := { c with pos := 0 } }

theorem witness_FrameTickOpensTheNextFrame :
    (atBoundary { Clock.reset with pendingRate := some 3 }).clock.pos = 0 ∧ clockState.clock.pos ≠ 0 := by
  decide +kernel

/-- Two tallies where the ring of 126 slots has just two left; the guards reported first, by default or by name; a
tally of 0. -/
theorem witness_FrameTickOpensTheNextFrame_guards :
    let s := setAp 13 0x300000 4096 { atBoundary Clock.reset with
      aps := { started.aps with
        guards := ((Table.fill 16 ⟨0, 0, 0⟩).set 9 ⟨1, 3, 0⟩).set 14 ⟨65535, 15, 4095⟩ }
      ctl := { started.ctl with written := 124 } }
    let ns := (List.finRange 16).filter (fun n => decide ((s.aps.guards.get n).count ≠ 0))
    s.clock.pos = 0 ∧ ap .notices s = some ⟨0x300000, 4096⟩ ∧ ns = [9, 14] ∧ s.ctl.released ≤ s.ctl.written
      ∧ s.ctl.written - s.ctl.released + ns.length ≤ 4096 / 32 - 2 ∧ (s.aps.guards.get 0).count = 0
      ∧ (after (exec (.frameTick ⟨0, [.guards, .status]⟩) s)).ctl.unreleased = [.guard, .guard] := by
  decide +kernel

/-- The default order of a frame tick, with no rate pending and with one; a cue due at the frame that opens, one due at
the next; a clip whose rows stored hold. -/
theorem witness_FrameTickOpensTheNextFrame_order :
    let full : Clip := { clip41 with tally := 3, rowsStored := 2 ^ 32 - 2 }
    let s (pending : Option (Fin 5)) : State := { atBoundary { Clock.reset with frame := 9, pendingRate := pending } with
      cues := [cueAt 5 10 10, cueAt 6 11 11], log := oneClip full }
    let t (pending : Option (Fin 5)) : State := after (exec (.frameTick lowTick) (s pending))
    (s none).clock.pos = 0 ∧ lowTick.order = [] ∧ (t none).cues.map (·.id) = [6] ∧ timecode (t none) = 10
      ∧ (t (some 3)).cues.map (·.id) = [] ∧ timecode (t (some 3)) = 20
      ∧ ((t none).log.recs.get 0).rowsStored = 2 ^ 32 - 1 ∧ ((t none).log.recs.get 0).rev = full.rev + 1 := by
  decide +kernel

/-- The worked example "a rate change": frame 999 999 with rate code 3 pending becomes frame 1 000 000 with timecode
2 000 000 and offset 1 000 000. -/
theorem test_a_rate_change_keeps_the_time_of_day :
    let t := after (exec (.frameTick lowTick) (atBoundary { Clock.reset with frame := 999999, pendingRate := some 3 }))
    t.clock.frame = 1000000 ∧ t.clock.rate = 3 ∧ t.clock.offset = 1000000 ∧ timecode t = 2000000
      ∧ Clock.convertTimecode 3 0 1000001 = 480000 := by
  decide +kernel

/-- The worked example "timecode across midnight and the count wrap". -/
def wrapState : State := atBoundary { Clock.reset with frame := 4294967295, offset := 1279990 }

/-- Frame 4 294 960 009 of the same example, at 2 159 999, with NOTICES SET. -/
def midnightState : State :=
  { noticed with clock := { Clock.reset with frame := 4294960009, offset := 1279990 } }

theorem witness_WrapKeepsTimecodeAndMidnightIsNoticed :
    wrapState.clock.pos = 0 ∧ wrapState.clock.frame = 4294967295 ∧ wrapState.clock.pendingRate = none
      ∧ timecode wrapState = 7285 ∧ (after (exec (.frameCountWrap lowTick) wrapState)).clock.offset = 7286
      ∧ timecode (after (exec (.frameCountWrap lowTick) wrapState)) = 7286 ∧ State.reset.clock.frame ≠ 4294967295
      ∧ midnightState.clock.pos = 0 ∧ midnightState.clock.pendingRate = none ∧ timecode midnightState + 1 = dayFrames midnightState
      ∧ (TickIn.mk 0 [.midnight]).order = .midnight :: [] ∧ ap .notices midnightState = some ⟨0x300000, 4096⟩
      ∧ midnightState.ctl.written - midnightState.ctl.released < 4096 / 32 - 2
      ∧ (after (exec (.midnight ⟨0, [.midnight]⟩) midnightState)).ctl.unreleased = [.guard, .midnight]
      ∧ timecode started + 1 ≠ dayFrames started := by
  decide +kernel

/-- A clock with a pulse run and an interval count. -/
def refState (lock : LockState) (run interval : Nat) : State :=
  { started with clock := { Clock.reset with lock := lock, run := run, interval := interval, pos := 700 } }

/-- The worked example's frame tick opening 903: REF_LOST. -/
def lossState : State := atBoundary { Clock.reset with frame := 902, lock := .locked, run := 2, miss := 1, mark := false }

/-- The clauses at the boundaries of their ranges: 1918 and 1922 ticks are in step with one frame, 3838 and 3842 with
two, 1917, 1923 and 3837 with neither; the worked example's pulses at 2520 and 1921 ticks, and its loss. -/
theorem witness_RefPulsesAndLossesMoveTheLock :
    (refState .free 0 65535).clock.lock = .free ∧ (refState .seeking 0 65535).clock.run ≠ 1
      ∧ (refState .seeking 1 1918).clock.inStep 1 = true ∧ (refState .holdover 1 1922).clock.inStep 1 = true
      ∧ (refState .seeking 1 1917).clock.inStep 1 = false ∧ (refState .locked 2 1923).clock.inStep 1 = false
      ∧ (refState .locked 2 3838).clock.inStep 2 = true ∧ (refState .locked 2 3837).clock.inStep 2 = false
      ∧ (after (exec .refPulse (refState .seeking 1 2520))).clock.rejected = 1
      ∧ (after (exec .refPulse (refState .seeking 1 1921))).clock.lock = .locked
      ∧ (after (exec .refPulse (refState .locked 2 3842))).clock.steer = some 700
      ∧ (after (exec .refPulse (refState .locked 2 3843))).clock.rejected = 1
      ∧ lossState.clock.pos = 0 ∧ lossState.clock.lock = .locked ∧ lossState.clock.mark = false ∧ lossState.clock.miss = 1
      ∧ (after (exec (.refLost lowTick) lossState)).clock.lock = .holdover
      ∧ (after (exec (.refLost lowTick) lossState)).clock.frame = 903
      ∧ (atBoundary { lossState.clock with mark := true }).clock.mark = true
      ∧ (atBoundary { lossState.clock with miss := 0 }).clock.miss = 0 ∧ State.reset.clock.lock ≠ .locked := by
  decide +kernel

/-- STATUS SET at a frame boundary, with no order named. -/
theorem witness_StatusIsWrittenAtTheFrameTick :
    ap .status started = none ∧ ap .status (setAp 14 0x700000 4096 started) = some ⟨0x700000, 4096⟩
      ∧ (setAp 14 0x700000 4096 started).clock.pos = 0 ∧ lowTick.order = []
      ∧ (((after (exec (.frameTick lowTick) (setAp 14 0x700000 4096 started))).ins.holds.get 0).map fun e =>
          match e.op with
          | .write a d => (a, d.length)
          | .read _ _ => (0, 0)) = (List.range 7).map fun i => (0x700000 + 64 * i, if i = 6 then 52 else 64) := by
  decide +kernel

/-! ## Sound -/

/-- Inputs, taps and buses of the worked example "one tick of a mix". -/
def mixState : State :=
  let input (a b : Int) : SoundInput := { SoundInput.reset with intake := .seeking, slot := [a, b], fresh := true }
  let tap (i : Fin 4) (c : Fin 16) (b : Fin 8) (g : Nat) : Tap := ⟨true, i, c, b, g, g, 1⟩
  setAp 15 0x400000 4096 { started with
    clock := { Clock.reset with pos := 80 }
    snd := { Sound.reset with
      inputs := ((Table.fill 4 .reset).set 0 (input 4000000 (-1000001))).set 1 (input 0 5000000)
      taps := ((((Table.fill 128 .reset).set 0 (tap 0 0 0 32768)).set 1 (tap 1 1 0 49152)).set 2 (tap 0 1 1 16384)).set 3
        (tap 1 2 1 32768)
      buses := ((Table.fill 8 .reset).set 0 { Bus.reset with sent := true, monitor := true }).set 1
        { Bus.reset with monitor := true } } }

/-- Bus 0 saturates from 11 500 000, bus 1 puts out −500 000, and the monitor record and the unit take them. -/
theorem test_one_tick_of_a_mix :
    unityDiv (busSum 0 mixState.snd) = 11500000 ∧ unityDiv (busSum 1 mixState.snd) = -500000
      ∧ (let t := after (exec (.sampleTick lowTick) mixState)
        (t.snd.buses.get 0).clips = 1 ∧ (t.snd.buses.get 0).arm = false
          ∧ t.snd.acc.map (fun a => (a.mask, a.start, a.samples)) = some (1, 80, [8388607])
          ∧ t.ins.holds.get 4
            = [⟨.write 0x400000 ([0xFF, 0xFF, 0x7F, 0, 0xE0, 0x5E, 0xF8, 0xFF] ++ List.replicate 24 0), .nothing⟩]) := by
  decide +kernel

/-- The worked example "a fade": 64 steps of 512 from 32 768 to 0. -/
theorem test_a_fade_lands_at_its_64th_step :
    let t : Tap := ⟨true, 0, 0, 0, 32768, 0, 512⟩
    (Tap.stepped^[1] t).gain = 32256 ∧ (Tap.stepped^[32] t).gain = 16384 ∧ (Tap.stepped^[63] t).gain = 512
      ∧ (Tap.stepped^[64] t).gain = 0 ∧ (Tap.stepped^[65] t).gain = 0 := by
  decide +kernel

/-- Sound input 2 as in "a late and then an early embedder": seven slips, then silence. -/
def starvedState : State :=
  { started with
    clock := { Clock.reset with pos := 5 }
    snd := { Sound.reset with inputs := (Table.fill 4 .reset).set 2 { SoundInput.reset with
      intake := .running 0 [], slot := [1, 2], starve := 7, slips := 7, overruns := 1 } } }

theorem witness_StarvedInputsFallSilent :
    (starvedState.snd.inputs.get 2).enabled = true ∧ (starvedState.snd.inputs.get 2).fresh = false
      ∧ (starvedState.snd.inputs.get 2).silent = false ∧ (starvedState.snd.inputs.get 2).starve = 7
      ∧ (starvedState.snd.inputs.get 0).enabled = false
      ∧ ((after (exec (.soundSilent 2 lowTick) starvedState)).snd.inputs.get 2).silent = true
      ∧ ((after (exec (.soundSilent 2 lowTick) starvedState)).snd.inputs.get 2).slips = 7 := by
  decide +kernel

/-- Inputs fresh, late and starved to the eighth tick, silent, and disabled; MONITOR SET and UNSET; a bus that saturates. -/
theorem witness_SampleTicksAdvanceAndMix :
    clockState.clock.pos ≠ 0 ∧ mixState.clock.pos ≠ 0 ∧ starvedState.clock.pos ≠ 0
      ∧ (mixState.snd.inputs.get 0).enabled = true ∧ (mixState.snd.inputs.get 0).fresh = true
      ∧ (starvedState.snd.inputs.get 2).enabled = true ∧ (starvedState.snd.inputs.get 2).fresh = false
      ∧ (starvedState.snd.inputs.get 2).silent = false ∧ 7 ≤ (starvedState.snd.inputs.get 2).starve
      ∧ (starvedState.snd.inputs.get 0).enabled = false
      ∧ ap .monitor mixState = some ⟨0x400000, 4096⟩ ∧ ap .monitor starvedState = none
      ∧ (mixState.snd.buses.get 0).mute = false ∧ 8388607 < (busSum 0 mixState.snd + 16384) / 32768
      ∧ ((after (exec (.sampleTick lowTick) starvedState)).snd.inputs.get 2).silent = true
      ∧ (let s := { starvedState with snd := { starvedState.snd with
            inputs := starvedState.snd.inputs.modify 2 fun X => { X with starve := 6 } } }
        let t := (after (exec (.sampleTick lowTick) s)).snd.inputs.get 2
        t.starve = 7 ∧ t.slips = 8 ∧ t.silent = false) := by
  decide +kernel

/-- `starvedState` with NOTICES SET: SOUND_SILENT with 7 slips and 1 overrun, and SOUND_BACK once a sample frame has come;
a bus that saturates with its arm set. -/
theorem witness_StarvedInputsFallSilent_notices :
    let s := setAp 13 0x300000 4096 starvedState
    let record (n : Nat) (kind : NoticeKind) (tc : Nat) : InsEntry := ⟨.write (0x300040 + 32 * n)
      (noticeRecord kind 2 0 0 tc [b4 7, b4 1]), .nothing⟩
    let t := after (exec (.soundSilent 2 lowTick) s)
    let u := after (exec (.sampleTick lowTick) { t with snd := { t.snd with
      inputs := t.snd.inputs.modify 2 fun X => { X with fresh := true } } })
    s.clock.pos ≠ 0 ∧ ap .notices s = some ⟨0x300000, 4096⟩ ∧ s.ctl.written - s.ctl.released < 4096 / 32 - 2
      ∧ (s.snd.inputs.get 0).enabled = false ∧ (s.snd.inputs.get 1).enabled = false
      ∧ (t.ins.holds.get 0).head? = some (record 0 .soundSilent 0) ∧ t.ctl.unreleased = [.soundSilent]
      ∧ (u.ins.holds.get 0)[2]? = some (record 1 .soundBack 0) ∧ u.ctl.unreleased = [.soundSilent, .soundBack]
      ∧ (mixState.snd.buses.get 0).arm = true ∧ mixState.snd.acc = none := by
  decide +kernel

/-- R73 to R76: a sample frame that completes while the slot is fresh overruns; one word with its invalid bit set. -/
theorem test_a_sample_frame_overruns :
    let i := { SoundInput.reset with intake := .running 8 [], slot := [1, 2], fresh := true }
    let j := i.take 4096 8 [0xFF, 0xFF, 0xFF, 0x80, 5, 0, 0, 0]
    j.slot = [-1, 5] ∧ j.overruns = 1 ∧ j.fresh = true ∧ j.invalid = true ∧ j.intake = .running 16 [] := by
  decide +kernel

/-- The tick at position 119 of "sound units across a change of the sent mask": 22 ticks of buses 0 and 1 collected. -/
def unitState : State :=
  { started with
    clock := { Clock.reset with pos := 119 }
    snd := { Sound.reset with
      acc := some ⟨3, 97, 0, 0, 22, List.replicate 44 0, false, false⟩
      buses := ((Table.fill 8 .reset).set 0 { Bus.reset with sent := true }).set 1 { Bus.reset with sent := true } } }

/-- The same with a RUNNING store that retains nothing. -/
def unitStoreState : State :=
  setAp 11 0x200000 65536 { unitState with store := { Store.reset with state := .running, nextSeq := 7 } }

theorem witness_SoundUnitsCloseAtTheBoundary :
    unitState.snd.acc = some ⟨3, 97, 0, 0, 22, List.replicate 44 0, false, false⟩ ∧ (unitState.clock.pos + 1) % 40 = 0
      ∧ unitState.store.state = .off ∧ unitStoreState.store.state = .running ∧ unitStoreState.store.retained = []
      ∧ (∀ p, (unitState.pins.get p).fn ≠ .mark) ∧ (∀ p, (unitStoreState.pins.get p).fn ≠ .mark)
      ∧ State.reset.snd.acc = none ∧ State.reset.snd.sentMask = 0 := by
  decide +kernel

/-- A unit that opens and closes at position 119 after a restart; one that opens at position 80; an OPEN one at 118; a
restart mark with an empty mask; the frame tick. -/
theorem witness_SoundUnitsCloseAtTheBoundary_opening :
    let at1 (pos : Nat) (acc : Option Accumulator) (restart : Bool) : State :=
      { unitState with clock := { Clock.reset with pos := pos }, snd := { unitState.snd with acc := acc, restart := restart } }
    let a (pos : Nat) : Accumulator := ⟨3, pos, 0, 0, 0, [], false, false⟩
    let shown (t : State) : Option (BitVec 8 × Nat × Nat) × Bool :=
      (t.snd.acc.map fun x => (x.mask, x.start, x.ticks), t.snd.restart)
    OpenUnit unitState ⟨3, 97, 0, 0, 22, List.replicate 44 0, false, false⟩ false
      ∧ OpenUnit (at1 119 none true) (a 119) false ∧ (119 + 1) % 40 = 0
      ∧ shown (after (exec (.soundUnitClose lowTick) (at1 119 none true))) = (none, false)
      ∧ OpenUnit (at1 80 none false) (a 80) false ∧ (80 + 1) % 40 ≠ 0
      ∧ shown (after (exec (.sampleTick lowTick) (at1 80 none false))) = (some (3, 80, 1), false)
      ∧ OpenUnit (at1 118 (some (a 97)) true) (a 97) true
      ∧ shown (after (exec (.sampleTick lowTick) (at1 118 (some (a 97)) true))) = (some (3, 97, 1), true)
      ∧ (∀ x r, ¬OpenUnit { started with clock := { Clock.reset with pos := 1 }, snd := { Sound.reset with restart := true } } x r)
      ∧ (at1 0 none true).clock.pos = 0 ∧ (at1 0 none true).snd.acc = none ∧ (at1 0 none true).snd.sentMask ≠ 0
      ∧ shown (after (exec (.frameTick lowTick) (at1 0 none true))) = (some (3, 0, 1), false) := by
  refine ⟨.inl ⟨rfl, rfl⟩, .inr ⟨rfl, by decide +kernel, .inr rfl, by decide +kernel, rfl⟩, by decide, by decide +kernel,
    .inr ⟨rfl, by decide +kernel, .inl (by decide), by decide +kernel, rfl⟩, by decide, by decide +kernel, .inl ⟨rfl, rfl⟩,
    by decide +kernel, fun x r h => ?_, by decide +kernel⟩
  rcases h with ⟨h, _⟩ | ⟨_, h, _⟩
  · exact absurd h (by simp [Sound.reset])
  · exact h (by decide +kernel)

/-- Its unit is 212 bytes, in 4 cells. -/
theorem test_the_unit_of_23_ticks :
    (after (exec (.soundUnitClose lowTick) unitStoreState)).store.retained.map (fun e => (e.start, e.cells)) = [(0, 4)]
      ∧ (MUnit.sound 0 0 23 97 3 false false (zeros 184)).length = 212 := by
  decide +kernel

/-! ## Event pins -/

/-- EP3 of "a clip from press to send": RISING, filter 6, confirmed low. -/
def pin3 : Pin := { Pin.reset 3 with fn := .mark, edge := .rising, filter := 6, action := .toggle, input := 1, preroll := 50 }

/-- The bounce: high, low, high, high, high, high; the window restarts at each change and is confirmed at the sixth
tick, with the captures of the first. -/
theorem test_a_bouncing_contact_is_confirmed :
    let run (P : Pin) (levels : List Bool) : Pin := levels.foldl (fun P l => (P.sampled l 12000 1080000).1) P
    ((run pin3 [true]).cand = some ⟨12000, 1080000, 3⟩)
      ∧ (run pin3 [true, false, true]).cand = some ⟨12000, 1080000, 3⟩
      ∧ (run pin3 [true, false, true, true, true]).cand = some ⟨12000, 1080000, 1⟩
      ∧ (run pin3 [true, false, true, true, true, true]).confirmed = true
      ∧ (run pin3 [true, false, true, true, true, true]).edges = 1
      ∧ (run pin3 [true, false, true, true, true, true]).cand = none := by
  decide +kernel

/-- The pin one tick before its test, high or back at low. -/
def pinState (last : Bool) : State :=
  { started with
    clock := { Clock.reset with pos := 105, frame := 12000 }
    pins := started.pins.set 3 { pin3 with cand := some ⟨12000, 12000, 1⟩, last := last } }

theorem witness_EdgesAreConfirmedAfterTheWindow :
    ((pinState true).pins.get 3).fn = .mark ∧ ((pinState true).pins.get 3).cand = some ⟨12000, 12000, 1⟩
      ∧ (Candidate.mk 12000 12000 1).left ≤ 1 ∧ (8 : BitVec 12).getLsbD 3 = ((pinState true).pins.get 3).last
      ∧ (0 : BitVec 12).getLsbD 3 = ((pinState false).pins.get 3).last
      ∧ ((after (exec (.markConfirm 3 ⟨8, []⟩) (pinState true))).pins.get 3).edges = 1
      ∧ ((after (exec (.markConfirm 3 ⟨8, []⟩) (pinState true))).log.recs.get 0).inFrame = 11950
      ∧ ((after (exec (.markConfirm 3 ⟨0, []⟩) (pinState false))).pins.get 3).glitches = 1
      ∧ ((pinState true).pins.get 2).fn ≠ .mark := by
  decide +kernel

/-- A level seen with no candidate, equal to the confirmed one or not, at filters 1 and 2; a candidate at a change of
level at filters 1 and 2, and at the same level with 2 ticks and with 1 left. -/
theorem witness_EdgesAreConfirmedAfterTheWindow_candidates :
    let s (P : Pin) : State := { pinState true with pins := started.pins.set 3 P }
    let P (filter : Nat) (left : Option Nat) : Pin := { pin3 with filter := filter, cand := left.map fun n => ⟨5, 5, n⟩ }
    let seen (Q : Pin) (high : Bool) : Option Nat × Bool × W16 × W16 :=
      let t := (after (exec (.sampleTick ⟨if high then 8 else 0, []⟩) (s Q))).pins.get 3
      (t.cand.map (·.left), t.confirmed, t.edges, t.glitches)
    (s (P 2 none)).clock.pos ≠ 0 ∧ (P 2 none).fn = .mark ∧ (P 2 none).confirmed = false ∧ (P 2 none).last = false
      ∧ (8 : BitVec 12).getLsbD 3 = true ∧ (0 : BitVec 12).getLsbD 3 = false
      ∧ seen (P 2 none) false = (none, false, 0, 0) ∧ seen (P 2 none) true = (some 1, false, 0, 0)
      ∧ seen (P 1 none) true = (none, true, 1, 0) ∧ seen (P 2 (some 9)) true = (some 1, false, 0, 0)
      ∧ seen (P 1 (some 9)) true = (none, true, 1, 0) ∧ seen (P 2 (some 2)) false = (some 1, false, 0, 0)
      ∧ seen (P 2 (some 1)) false = (none, false, 0, 1) := by
  decide +kernel

/-- The sample of pin 3 one tick before its test with the level high, of a pin of filter 1 that goes high, and of one that
shows its confirmed level; pin 3 as the only MARK pin. -/
theorem witness_EdgesAreConfirmedAfterTheWindow_arrivals :
    let s : State := { pinState true with epIn := 8 }
    let at1 : Pin := { pin3 with filter := 1 }
    Confirms (s.pins.get 3) true s.clock.frame (timecode s) ⟨12000, 12000, 1⟩
      ∧ true ≠ (s.pins.get 3).confirmed ∧ (s.pins.get 3).edge = .rising ∧ s.epIn.getLsbD 3 = true
      ∧ (samplePin 3 s).log.opens.get 1 = some 1
      ∧ Confirms at1 true 7 8 ⟨7, 8, 0⟩ ∧ (∀ c, ¬Confirms pin3 false 7 8 c)
      ∧ (s.clock.pos ≠ 0 ∧ (s.clock.pos + 1) % 40 ≠ 0 ∧ ∀ q, q ≠ 3 → (s.pins.get q).fn ≠ .mark) := by
  refine ⟨.inl ⟨by decide +kernel, .inr (by decide +kernel)⟩, by decide +kernel, by decide +kernel, by decide +kernel,
    by decide +kernel, .inr ⟨rfl, by decide, by decide, rfl⟩, fun c h => ?_, by decide +kernel⟩
  rcases h with ⟨h, _⟩ | ⟨_, h, _⟩
  · exact absurd h (by simp [pin3, Pin.reset])
  · exact h rfl

/-! ## Home paths -/

/-- "failover and restore": A_THEN_B, path A with a stall limit of 3 and 40 cells in use, its timer at 2. -/
def stallState : State :=
  { noticed with home :=
      { paths := ((Table.fill 2 .reset).set 0 { HomePath.reset with
          state := .running, limit := 3, stall := 2, placed := 40, published := 40 }).set 1
            { HomePath.reset with state := .running }
        route := .aThenB } }

/-- The clauses of a path's frame tick: OFF, nothing in use, below the limit (2 of 3), and at it. -/
theorem witness_PathsStallAtTheirLimit :
    stallState.clock.pos = 0 ∧ (stallState.home.paths.get 0).state = .running
      ∧ (stallState.home.paths.get 0).consumed < (stallState.home.paths.get 0).placed
      ∧ (stallState.home.paths.get 0).limit ≤ (stallState.home.paths.get 0).stall + 1
      ∧ ((after (exec (.stall 0 lowTick) stallState)).home.paths.get 0).state = .stalled
      ∧ effectiveRoute (after (exec (.stall 0 lowTick) stallState)) = [1]
      ∧ (after (exec (.stall 0 lowTick) stallState)).ctl.unreleased = [.guard, .stall, .failover]
      ∧ (State.reset.home.paths.get 1).state ≠ .running ∧ (stallState.home.paths.get 1).inUse = 0
      ∧ (stallState.home.paths.get 1).state = .running
      ∧ (stallState.home.paths.get 1).placed ≤ (stallState.home.paths.get 1).consumed
      ∧ (let s := { stallState with home := { stallState.home with
            paths := stallState.home.paths.modify 0 fun P => { P with stall := 1 } } }
        (s.home.paths.get 0).stall + 1 < (s.home.paths.get 0).limit
          ∧ ((stallTick 0 s).home.paths.get 0).stall = 2 ∧ ((stallTick 0 s).home.paths.get 0).state = .running) := by
  decide +kernel

/-- "a ring filling": the fits of the example's rows on 127 cells. -/
theorem test_the_fits_of_a_ring_filling :
    let P (placed consumed : Nat) : HomePath := { HomePath.reset with placed := placed, consumed := consumed }
    fitOf 127 (P 100 20) 21 = .plain ∧ fitOf 127 (P 121 20) 2 = .plain ∧ fitOf 127 (P 123 20) 21 = .no
      ∧ fitOf 127 (P 123 121) 21 = .padded 4 ∧ fitOf 127 (P 148 148) 120 = .passedOver 106 ∧ fitOf 127 (P 374 374) 3 = .plain
      ∧ fitOf 127 (P 0 0) 128 = .no := by
  decide +kernel

/-! ## Host commands: settings -/

/-- `mapped` with path A RUNNING, and lane 0 of a slot region of 8192 bytes. -/
def busy : State :=
  { mapped with
    home := { mapped.home with paths := mapped.home.paths.set 0 { HomePath.reset with state := .running } }
    lanes := mapped.lanes.set 0 { Lane.reset with geom := some ⟨64, 32, 2⟩ } }

/-- Every check of R5 and R31 at the boundary of its range, in order. -/
theorem witness_SetApertureSetsOrRefuses :
    AtHead (cmd 1 [9]) (put (cmd 1 [9]) busy) ∧ (cmd 1 [9]).code = 1 ∧ (cmd 1 [9]).word 0 = (9 : Fin 16).val
      ∧ answersAs .setAperture 1 busy
        [([0], .refused .badField 1), ([16], .refused .badField 1), ([11, 0, 0x200001, 0, 65536, 0], .refused .badField 2),
          ([11, 0, 0x200000, 0, 61440, 0], .refused .badField 3), ([14, 0, 0x200000, 0, 4097, 0], .refused .badField 3),
          ([14, 0, 0x200000, 0, 4096, 16], .refused .badField 3), ([14, 0, 0xFFFFF000, 0xFF, 8192, 0], .refused .badField 3),
          ([1, 0, 0x200000, 0, 4096, 0], .refused .badField 3), ([9, 0, 0x200000, 0, 4096, 0], .refused .active 0),
          ([14, 0, 0xFFFFF000, 0, 8192, 0], .refused .overlap 9), ([14, 0, 0xFFF00000, 0xFF, 4096, 0], .refused .overlap 0),
          ([14, 0, 0xFFFFF000, 0xFF, 4096, 0], .done 0), ([1, 0, 0x200000, 0, 8192, 0], .done 0),
          ([12, 0, 0x200000, 0, 16384, 0], .done 0), ([13, 0, 0x200000, 0, 4096, 0], .done 0)] = true :=
  ⟨atHead_put _ _, by decide +kernel⟩

/-- A move of NOTICES with a record still held for its old range, one for another range beside it. -/
def moveState : State :=
  { noticed with ins := { noticed.ins with
      holds := noticed.ins.holds.set 0 [⟨.write 0x300040 (zeros 32), .nothing⟩, ⟨.write 0x301000 (zeros 32), .nothing⟩] } }

/-- R6: the held write of the old range goes, the other stays, and the written count of 0 is written in the new one. -/
theorem test_a_move_drops_the_old_range :
    let t := after (exec .setAperture (put (cmd 1 [13, 0, 0x800000, 0, 4096, 0]) moveState))
    ((t.ins.holds.get 0).map fun e => match e.op with | .write a d => (a, d.length) | .read _ _ => (0, 0))
        = [(0x301000, 32), (0x800000, 8), (0xFFFFF00078, 8)]
      ∧ t.ctl.unreleased = [] ∧ t.ctl.lostTotal = 1 ∧ t.ctl.attn = false := by
  decide +kernel

/-- The go word of OVERLAP with PATH_A, byte by byte (Command area layout): code 1, REFUSED 3, reason OVERLAP 5, detail 9. -/
theorem test_a_result_write_by_bytes :
    answerOf .setAperture 1 [14, 0, 0xFFFFF000, 0, 8192, 0] busy = [1, 3, 5, 0, 9, 0, 0, 0] := by
  decide +kernel

theorem witness_ClearApertureUnsetsOrRefuses :
    AtHead (cmd 2 [13]) (put (cmd 2 [13]) noticed) ∧ (cmd 2 [13]).code = 2 ∧ (cmd 2 [13]).word 0 = (13 : Fin 16).val
      ∧ answersAs .clearAperture 2 busy
        [([0], .refused .badField 1), ([16], .refused .badField 1), ([9], .refused .active 0), ([15], .done 0)] = true
      ∧ (let t := after (exec .clearAperture (put (cmd 2 [13]) noticed))
        ap .notices t = none ∧ t.ctl.lostTotal = 1 ∧ t.ctl.written = 0 ∧ t.ctl.attn = false) :=
  ⟨atHead_put _ _, by decide +kernel⟩

/-- The preset of "timecode across midnight and the count wrap", with a cue that stays and one that is now past. -/
def presetState : State :=
  { started with
    clock := { Clock.reset with frame := 4294960000, offset := 1279980 }
    cues := [cueAt 5 2159985 4294960005, cueAt 6 2159995 4294960015] }

theorem witness_ClockCommandsNameRateAndTimecode :
    AtHead (cmd 3 [4, 1]) (put (cmd 3 [4, 1]) started) ∧ AtHead (cmd 4 [2159990]) (put (cmd 4 [2159990]) presetState)
      ∧ (cmd 3 [4, 1]).code = 3 ∧ (cmd 3 [4, 1]).word 0 = (4 : Fin 5).val ∧ (cmd 3 [4, 1]).word 1 ≤ 1
      ∧ answersAs .setClock 3 started
        [([5, 0], .refused .badField 1), ([4, 2], .refused .badField 2), ([4, 1], .done 0), ([1, 0], .done 0)] = true
      ∧ answersAs .setClock 3 selectorState [([0, 0], .refused .active 1)] = true
      ∧ answersAs .setClock 3 starvedState [([0, 0], .refused .active 2)] = true
      ∧ answersAs .setClock 3 busy [([0, 0], .refused .active 3)] = true
      ∧ answersAs .setClock 3 stored [([0, 0], .refused .active 4)] = true
      ∧ (cmd 4 [2159990]).code = 4 ∧ (cmd 4 [2159990]).word 0 < dayFrames presetState
      ∧ answersAs .presetTimecode 4 presetState [([2160000], .refused .badField 1), ([2159999], .done 0)] = true
      ∧ (let t := after (exec .presetTimecode (put (cmd 4 [2159990]) presetState))
        t.clock.offset = 1279990 ∧ timecode t = 2159990 ∧ t.cues = [cueAt 6 2159995 4294960005])
      ∧ started.cues = [] :=
  ⟨atHead_put _ _, atHead_put _ _, by decide +kernel⟩

theorem witness_SetLaneWritesClampedSettings :
    AtHead (cmd 6 [0, 1, 64, 1024, 16, 5, 7, 1]) (put (cmd 6 [0, 1, 64, 1024, 16, 5, 7, 1]) busy)
      ∧ (cmd 6 [0, 1, 64, 1024, 16, 5, 7, 1]).code = 6 ∧ (cmd 6 [0, 1, 64, 1024, 16, 5, 7, 1]).word 0 = (0 : Fin 4).val
      ∧ (cmd 6 [0, 1, 64, 1024, 16, 5, 7, 1]).word 1 ≤ 1 ∧ (cmd 6 [0, 1, 64, 1024, 16, 5, 7, 1]).word 7 ≤ 1
      ∧ (busy.lanes.get 0).intake = .disabled ∧ (laneState.lanes.get 0).intake ≠ .disabled
      ∧ answersAs .setLane 6 busy
        [([4, 0, 64, 1024, 16, 0, 0, 0], .refused .badField 1), ([0, 2, 64, 1024, 16, 0, 0, 0], .refused .badField 2),
          ([0, 1, 64, 1024, 16, 0, 0, 2], .refused .badField 3), ([1, 1, 64, 1024, 16, 0, 0, 0], .refused .state 1),
          ([0, 1, 64, 1024, 16, 0, 0, 0], .refused .state 2), ([0, 0, 63, 1023, 15, 6, 8, 0], .doneClamped 31),
          ([0, 0, 64, 1024, 16, 5, 7, 1], .done 0), ([0, 0, 1048575, 16777215, 1048575, 5, 7, 1], .done 0),
          ([0, 0, 1048576, 16777216, 1048576, 5, 7, 1], .doneClamped 7)] = true
      ∧ answersAs .setLane 6 (setAp 1 0x500000 8192 busy) [([0, 1, 64, 1024, 16, 5, 7, 1], .done 0)] = true
      ∧ answersAs .setLane 6 laneState [([0, 0, 64, 1024, 16, 5, 7, 1], .done 0)] = true :=
  ⟨atHead_put _ _, by decide +kernel⟩

/-- A lane that records, with an OPEN clip whose first unit is resolved or one that is FIRST_PENDING: the record flag
cleared, and the lane disabled. -/
theorem witness_SetLaneWritesClampedSettings_recording :
    let s (R : Clip) : State := { stored with
      lanes := (Table.fill 4 .reset).set 0 { midFrame with record := true }, log := oneClip R }
    let ending : Clip := { open41 with source := 0, endPending := false, tally := 3 }
    let waiting : Clip := { open41 with source := 0, first := none, firstPending := true }
    let run (enable : Nat) (R : Clip) : Clip :=
      (after (exec .setLane (put (cmd 6 [0, enable, 64, 1024, 16, 5, 7, 0]) (s R)))).log.recs.get 0
    ((s ending).lanes.get 0).intake ≠ .disabled ∧ ((s ending).lanes.get 0).record = true
      ∧ (cmd 6 [0, 1, 64, 1024, 16, 5, 7, 0]).word 7 = 0
      ∧ run 1 ending = { ending with last := some (500, 0), rowsStored := 3, tally := 0, rev := 19 }
      ∧ run 0 waiting = { waiting with firstPending := false, endPending := false, logOnly := true, rev := 19 } := by
  decide +kernel

/-- A pending lane and the programme lane disabled. -/
theorem witness_SetLaneWritesClampedSettings_selector :
    let t (l : Nat) : State := after (exec .setLane
      (put (cmd 6 [l, 0, 1024, 65536, 4096, 0, 3, 0]) (setAp 13 0x300000 4096 selectorState)))
    let shown (l : Nat) (items : List Item) : InsEntry := ⟨.write 0x300040 (noticeRecord .programSwitched l 0 0 0 items), .nothing⟩
    (t 0).sel.programme = none ∧ (t 1).sel.waiting = none
      ∧ ((t 0).ins.holds.get 0).head? = some (shown 0 [b1 2]) ∧ ((t 1).ins.holds.get 0).head? = some (shown 1 [b1 1, b1 0, b4 0]) := by
  decide +kernel

/-- The bounds of a geometry; "a cut between cameras": SET_PROGRAM 1 makes lane 1 pending, 2 is refused, 0 cancels. -/
theorem witness_GeometrySwitchAndRouteRequests :
    AtHead (cmd 5 [3, 7680, 2160, 8]) (put (cmd 5 [3, 7680, 2160, 8]) started)
      ∧ AtHead (cmd 7 [1]) (put (cmd 7 [1]) selectorState) ∧ AtHead (cmd 12 [3]) (put (cmd 12 [3]) started)
      ∧ (cmd 5 [3, 7680, 2160, 8]).code = 5 ∧ (cmd 5 [3, 7680, 2160, 8]).word 0 = (3 : Fin 4).val
      ∧ answersAs .setPicture 5 (setAp 2 0x500000 4096 selectorState)
        [([4, 16, 1, 1], .refused .badField 1), ([3, 12, 1, 1], .refused .badField 2), ([3, 7684, 1, 1], .refused .badField 2),
          ([3, 18, 1, 1], .refused .badField 2), ([3, 16, 0, 1], .refused .badField 3), ([3, 16, 2161, 1], .refused .badField 3),
          ([3, 16, 1, 0], .refused .badField 4), ([3, 16, 1, 9], .refused .badField 4), ([0, 16, 1, 1], .refused .active 0),
          ([3, 16, 1, 1], .done 0), ([3, 7680, 2160, 8], .done 0)] = true
      ∧ answersAs .setPicture 5 (setAp 2 0x500000 4096 started)
        [([1, 16, 32, 4], .done 0), ([1, 16, 32, 5], .refused .badField 5)] = true
      ∧ (cmd 7 [1]).code = 7 ∧ (cmd 7 [1]).word 0 = (1 : Fin 4).val ∧ (cmd 12 [3]).code = 12 ∧ (cmd 12 [3]).word 0 = 3
      ∧ answersAs .setProgram 7 selectorState
        [([4], .refused .badField 1), ([2], .refused .state 1), ([1], .done 0), ([0], .done 0)] = true
      ∧ (after (exec .setProgram (put (cmd 7 [0]) selectorState))).sel.waiting = none
      ∧ answersAs .setRoute 12 started [([4], .refused .badField 1), ([0], .done 0), ([3], .done 0)] = true :=
  ⟨atHead_put _ _, atHead_put _ _, atHead_put _ _, by decide +kernel⟩

/-- The four routes with both paths RUNNING, path A STALLED, and both STALLED. -/
theorem witness_GeometrySwitchAndRouteRequests_sets :
    let s (r : Route) (a b : PathState) : State := { started with home := { started.home with
      route := r, paths := ((Table.fill 2 .reset).set 0 { HomePath.reset with state := a }).set 1
        { HomePath.reset with state := b } } }
    let sets (a b : PathState) : List (List (Fin 2)) := [Route.a, .b, .both, .aThenB].map fun r => effectiveRoute (s r a b)
    sets .running .running = [[0], [1], [0, 1], [0]] ∧ sets .stalled .running = [[0], [1], [0, 1], [1]]
      ∧ sets .stalled .stalled = [[0], [1], [0, 1], [0]] ∧ sets .off .stalled = [[], [1], [1], []] := by
  decide +kernel

theorem witness_SetSoundActsByState :
    AtHead (cmd 8 [0, 16, 1]) (put (cmd 8 [0, 16, 1]) started) ∧ (cmd 8 [0, 16, 1]).code = 8
      ∧ (cmd 8 [0, 16, 1]).word 0 = (0 : Fin 4).val
      ∧ answersAs .setSound 8 started
        [([4, 2, 0], .refused .badField 1), ([0, 0, 0], .refused .badField 2), ([0, 17, 0], .refused .badField 2),
          ([0, 2, 2], .refused .badField 3), ([0, 2, 1], .refused .state 0), ([0, 16, 0], .done 0), ([0, 1, 0], .done 0)] = true
      ∧ answersAs .setSound 8 (setAp 5 0x600000 4096 started) [([0, 16, 1], .done 0)] = true
      ∧ answersAs .setSound 8 starvedState [([2, 3, 1], .refused .active 0), ([2, 2, 1], .done 0), ([2, 3, 0], .done 0)] = true :=
  ⟨atHead_put _ _, by decide +kernel⟩

theorem witness_SetTapAndSetBusReplaceTheirFields :
    AtHead (cmd 9 [127, 1, 3, 15, 7, 65535, 1, 0]) (put (cmd 9 [127, 1, 3, 15, 7, 65535, 1, 0]) started)
      ∧ (cmd 9 [127, 1, 3, 15, 7, 65535, 1, 0]).code = 9
      ∧ AtHead (cmd 10 [0, 0, 0, 1]) (put (cmd 10 [0, 0, 0, 1]) unitState) ∧ (cmd 10 [0, 0, 0, 1]).code = 10
      ∧ unitState.snd.acc ≠ none ∧ decide ((cmd 10 [0, 0, 0, 1]).word 2 = 1) ≠ (unitState.snd.buses.get 0).sent
      ∧ decide ((cmd 10 [0, 0, 1, 1]).word 2 = 1) = (unitState.snd.buses.get 0).sent
      ∧ answersAs .setTap 9 started
        [([128], .refused .badField 1), ([127, 2], .refused .badField 2), ([127, 1, 4], .refused .badField 3),
          ([127, 1, 3, 16], .refused .badField 4), ([127, 1, 3, 15, 8], .refused .badField 5),
          ([127, 1, 3, 15, 7, 65535, 1, 0], .doneClamped 0), ([127, 1, 3, 15, 7, 65535, 1, 65536], .doneClamped 0),
          ([0, 0, 0, 0, 0, 0, 0, 65535], .done 0)] = true
      ∧ answersAs .setBus 10 unitState
        [([8], .refused .badField 1), ([7, 2], .refused .badField 2), ([7, 1, 2], .refused .badField 3),
          ([7, 1, 1, 2], .refused .badField 4), ([7, 1, 1, 1], .done 0)] = true
      ∧ (after (exec .setBus (put (cmd 10 [0, 0, 0, 1]) unitState))).snd.restart = true := by
  refine ⟨atHead_put _ _, ?_, atHead_put _ _, ?_⟩ <;> decide +kernel

/-- Bus 0 leaves the sent mask while a unit is open, with the store OFF and RUNNING. -/
theorem witness_SetTapAndSetBusReplaceTheirFields_units :
    let c := cmd 10 [0, 0, 0, 1]
    AtHead c (put c unitStoreState) ∧ c.code = 10 ∧ c.word 0 = (0 : Fin 8).val ∧ c.word 1 ≤ 1 ∧ c.word 2 ≤ 1 ∧ c.word 3 ≤ 1
      ∧ (put c unitStoreState).snd.acc = some ⟨3, 97, 0, 0, 22, List.replicate 44 0, false, false⟩
      ∧ decide (c.word 2 = 1) ≠ ((put c unitStoreState).snd.buses.get 0).sent
      ∧ unitState.store.state = .off
      ∧ (after (exec .setBus (put c unitStoreState))).store.retained.map (fun e => (e.start, e.cells)) = [(0, 4)] := by
  refine ⟨atHead_put _ _, ?_⟩
  decide +kernel

theorem witness_SetPathEnablesTunesOrDisables :
    AtHead (cmd 11 [0, 1, 15, 127, 126, 127, 250]) (put (cmd 11 [0, 1, 15, 127, 126, 127, 250]) mapped)
      ∧ (cmd 11 [0, 1, 15, 127, 126, 127, 250]).code = 11
      ∧ (cmd 11 [0, 1, 15, 127, 126, 127, 250]).word 2 = (15 : Fin 16).val
      ∧ ap (.path 0) mapped = some ⟨0x100000000, 8192⟩ ∧ 8192 / 64 - 1 = 127 ∧ ap (.path 1) mapped = none
      ∧ (mapped.home.paths.get 0).state = .off ∧ (busy.home.paths.get 0).state ≠ .off
      ∧ (busy.home.paths.get 0).heldOffer = none ∧ busy.xfer.queue = []
      ∧ answersAs .setPath 11 mapped
        [([2, 0, 0], .refused .badField 1), ([0, 2, 0], .refused .badField 2), ([0, 1, 16], .refused .badField 3),
          ([1, 1, 15, 10, 5, 5, 5], .refused .state 0), ([0, 1, 15, 127, 126, 127, 250], .done 0),
          ([0, 0, 15, 128, 200, 128, 251], .doneClamped 15), ([0, 1, 0, 0, 5, 0, 0], .doneClamped 11)] = true
      ∧ answersAs .setPath 11 busy [([0, 1, 15, 127, 126, 127, 250], .done 0), ([0, 0, 15, 1, 0, 0, 1], .done 0)] = true
      ∧ (let offerAt (Y : Nat) :=
          ((after (exec .setPath (put (cmd 11 [0, 1, 5, 100, 60, Y, 250]) (waitState [] (some unit4))))).home.paths.get 0).heldOffer
        offerAt 1 = some unit4 ∧ offerAt 2 = none) :=
  ⟨atHead_put _ _, by decide +kernel⟩

/-- R98, R113: an enable makes a header write of published 0, 127 cells, epoch 1. -/
theorem test_an_enabled_path_writes_its_header :
    (after (exec .setPath (put (cmd 11 [0, 1, 15, 127, 126, 127, 250]) mapped))).ins.holds.get 1
      = [⟨.write 0x100000000 (List.replicate 8 0 ++ [127, 0, 0, 0, 1, 0, 0, 0] ++ List.replicate 48 0), .nothing⟩] := by
  decide +kernel

theorem witness_SetStoreEnablesOrDisables :
    AtHead (cmd 13 [1]) (put (cmd 13 [1]) started) ∧ (cmd 13 [1]).code = 13 ∧ (cmd 13 [1]).word 0 = 1
      ∧ started.store.state = .off ∧ ap .store started = none
      ∧ ap .store (setAp 11 0x200000 65536 started) = some ⟨0x200000, 65536⟩ ∧ (cmd 13 [0]).word 0 = 0
      ∧ stored.store.state ≠ .off
      ∧ answersAs .setStore 13 started [([2], .refused .badField 1), ([1], .refused .state 0), ([0], .done 0)] = true
      ∧ answersAs .setStore 13 (setAp 11 0x200000 65536 started) [([1], .done 0)] = true
      ∧ answersAs .setStore 13 stored [([1], .done 0), ([0], .done 0)] = true :=
  ⟨atHead_put _ _, by decide +kernel⟩

/-- A disable with an OPEN clip of a resolved first unit, with one that is FIRST_PENDING, and with neither. -/
theorem witness_SetStoreEnablesOrDisables_clips :
    let waiting : Clip := { open41 with first := none, firstPending := true }
    let s (R : Clip) : State := put (cmd 13 [0]) { stored with log := oneClip R }
    let run (R : Clip) : State := after (exec .setStore (s R))
    LogOk (s open41) ∧ LogOk (s waiting) ∧ LostWithStore open41 ∧ ¬LostWithStore waiting
      ∧ (run open41).log.recs.get 0 = lostClip open41 ∧ (run waiting).log.recs.get 0 = logOnlyClip waiting := by
  refine ⟨logOk_of _ open41 rfl (by unfold clipOk; decide +kernel) (.inl ⟨rfl, by decide⟩),
    logOk_of _ { open41 with first := none, firstPending := true } rfl (by unfold clipOk; decide +kernel)
      (.inl ⟨rfl, by decide⟩), .inr ⟨rfl, .inl rfl⟩, ?_, by decide +kernel⟩
  unfold LostWithStore
  decide +kernel

/-- "Lamps on the pins": EP4 LINE in TALLY mode, EP5 LINE in BLINK mode, EP6 MARK; frame 50 020, programme lane 0. -/
def lamps : State :=
  { started with
    clock := { Clock.reset with frame := 50020 }, sel := { Selector.reset with programme := some 0 }
    pins := ((started.pins.set 4 { Pin.reset 4 with fn := .line, mode := .tally, tally := 1 }).set 5
      { Pin.reset 5 with fn := .line, mode := .blink }).set 6 { Pin.reset 6 with fn := .mark } }

theorem witness_PinsAreSetAndLinesDriven :
    AtHead (cmd 14 [11, 1, 2, 255, 3, 3, 1, 250]) (put (cmd 14 [11, 1, 2, 255, 3, 3, 1, 250]) started)
      ∧ (cmd 14 [11, 1, 2, 255, 3, 3, 1, 250]).code = 14
      ∧ (cmd 14 [11, 1, 2, 255, 3, 3, 1, 250]).word 0 = (11 : Fin 12).val
      ∧ AtHead (cmd 15 [0x70, 0x70]) (put (cmd 15 [0x70, 0x70]) lamps) ∧ (cmd 15 [0x70, 0x70]).code = 15
      ∧ answersAs (.setPin 0) 14 started
        [([12], .refused .badField 1), ([0, 3], .refused .badField 2), ([11, 0], .done 0),
          ([0, 1, 3], .refused .badField 3), ([0, 1, 2, 0, 4], .refused .badField 4), ([0, 1, 2, 0, 3, 4], .refused .badField 5),
          ([0, 1, 2, 0, 3, 3, 0], .refused .badField 6), ([11, 1, 2, 255, 3, 3, 1, 250], .done 0),
          ([0, 1, 0, 0, 0, 0, 0, 251], .doneClamped 0), ([0, 2, 0, 0, 0, 0, 0, 0, 3], .refused .badField 7),
          ([0, 2, 0, 0, 0, 0, 0, 0, 1, 4, 2, 2], .refused .badField 8), ([0, 2, 0, 0, 0, 0, 0, 0, 2, 3, 250, 250], .done 0),
          ([0, 2, 0, 0, 0, 0, 0, 0, 2, 3, 1, 2], .doneClamped 0), ([0, 2, 0, 0, 0, 0, 0, 0, 2, 3, 251, 0], .doneClamped 0),
          ([0, 2, 0, 0, 0, 0, 0, 0, 2, 3, 2, 3], .doneClamped 0),
          ([0, 2, 0, 0, 0, 0, 0, 0, 0, 4, 2, 2], .done 0)] = true
      ∧ drivenLevel 5 { lamps with ctl := { lamps.ctl with loader := .reading 0 none } } = none
      ∧ answersAs .setLineLevels 15 lamps
        [([4096, 0], .refused .badField 1), ([4095, 4096], .refused .badField 2), ([0x70, 0x70], .done 0x30)] = true := by
  refine ⟨atHead_put _ _, ?_, ?_, atHead_put _ _, ?_⟩ <;> decide +kernel

/-- The levels of that example: before, after SET_LINE_LEVELS and after EP4 is put in LEVEL mode. -/
theorem test_lamps_on_the_pins :
    let t := after (exec .setLineLevels (put (cmd 15 [0x70, 0x70]) lamps))
    let u := after (exec (.setPin 0) (put (cmd 14 [4, 2, 0, 0, 0, 0, 0, 0, 0, 1, 50, 25]) t))
    drivenLevel 4 lamps = some false ∧ drivenLevel 5 lamps = some true ∧ drivenLevel 6 lamps = none
      ∧ (t.pins.get 4).level = true ∧ (t.pins.get 6).level = false ∧ drivenLevel 4 t = some false
      ∧ drivenLevel 4 u = some true
      ∧ drivenLevel 5 { lamps with clock := { lamps.clock with frame := 50025 } } = some false := by
  decide +kernel

theorem witness_SetNoticesAndUnknownCommands :
    AtHead (cmd 24 [1, 0x7FFFFFFE]) (put (cmd 24 [1, 0x7FFFFFFE]) noticed) ∧ (cmd 24 [1, 0x7FFFFFFE]).code = 24
      ∧ (cmd 24 [1, 0x7FFFFFFE]).word 0 ≤ 1 ∧ ((cmd 24 [1, 0x7FFFFFFE]).word 1).testBit 0 = false
      ∧ ((cmd 24 [1, 0x7FFFFFFE]).word 1).testBit 31 = false
      ∧ AtHead (cmd 26 []) (put (cmd 26 []) started) ∧ 25 < (cmd 26 []).code
      ∧ answersAs .setNotices 24 noticed
        [([2, 0], .refused .badField 1), ([0, 1], .refused .badField 2), ([0, 0x80000000], .refused .badField 2),
          ([1, 0x7FFFFFFE], .done 0)] = true
      ∧ answersAs .unknownCommand 26 started [([], .refused .unknown 0)] = true
      ∧ answersAs .unknownCommand 255 started [([], .refused .unknown 0)] = true := by
  refine ⟨atHead_put _ _, ?_, ?_, ?_, ?_, atHead_put _ _, ?_⟩ <;> decide +kernel

/-! ## Host commands: cues -/

/-- "A running order": frame 50 000 at timecode 1 000 000, lanes 0 and 1 enabled, lane 0 the programme lane, EP0 and EP1
LINE pins, tap 5 enabled. -/
def orderState : State :=
  { selectorState with
    pending := []
    clock := { Clock.reset with frame := 50000, offset := 950000 }, sel := { Selector.reset with programme := some 0 }
    snd := { Sound.reset with taps := Sound.reset.taps.set 5 ⟨true, 0, 0, 0, 32768, 32768, 1⟩ }
    pins := (selectorState.pins.set 0 { Pin.reset 0 with fn := .line }).set 1 { Pin.reset 1 with fn := .line } }

/-- The bodies of its ADD_CUE commands, and one whose fourth slot has kind 7. -/
def fadeAndOpen : List Nat := [7, 1000010, 2 + 65536 * 5, 0, 512, 4 + 65536 * 1, 0, 0]
def switchAndLines : List Nat := [3, 1000005, 1 + 65536 * 2, 0, 0, 3 + 65536 * 1, 1, 0]
def closeAndLabel : List Nat := [7, 1000010, 5 + 65536 * 1, 0, 0, 6 + 65536 * 1, 7, 0]
def lateLines (flags : Nat) : List Nat := [9 + 256 * flags, 999990, 3 + 65536 * 3, 2, 0]
def badFourth : List Nat := [9, 1000010, 0, 0, 0, 0, 0, 0, 0, 0, 0, 7, 0, 0]

/-- An ADD_CUE carried out. -/
def added (ws : List Nat) (s : State) : State := after (exec .addCue (put (cmd 16 ws) s))

/-- The table after the four admissions of the example. -/
def order4 : State := added (lateLines 1) (added closeAndLabel (added switchAndLines (added fadeAndOpen orderState)))

theorem witness_AddCueAdmitsInOrder :
    AtHead (cmd 16 switchAndLines) (put (cmd 16 switchAndLines) orderState) ∧ (cmd 16 switchAndLines).code = 16
      ∧ answersAs .addCue 16 orderState
        [(fadeAndOpen, .done 0), (switchAndLines, .done 0), (lateLines 0, .refused .past 0), (lateLines 1, .done 256),
          ([9, 2160000], .refused .badField 1), ([9 + 256 * 2, 5], .refused .badField 2), (badFourth, .refused .badField 6),
          ([9, 0], .done 0), ([9, 1000000], .refused .past 0), ([9, 910000], .done 0), ([9, 910001], .refused .past 0)] = true
      ∧ answersAs .addCue 16 (added switchAndLines (added fadeAndOpen orderState)) [(closeAndLabel, .done 2)] = true
      ∧ answersAs .addCue 16 { orderState with cues := List.replicate 32 (cueAt 1 1000001 50001) }
        [(switchAndLines, .refused .full 0)] = true
      ∧ order4.cues.map (fun e => (e.id, e.due, e.late)) = [(9, 50001, true), (3, 50005, false), (7, 50010, false), (7, 50010, false)] :=
  ⟨atHead_put _ _, by decide +kernel⟩

/-- A cue of one action in slot 2, due at the frame that opens next. -/
def soloState (a : CueAct) : State := { order4 with cues := [⟨9, 0, 50001, false, (Table.fill 4 .none).set 2 a⟩] }

theorem witness_DueCuesFireAtTheFrameTick :
    order4.clock.pos = 0 ∧ order4.clock.pendingRate = none ∧ order4.cues = order4.cues.getD 0 (cueAt 0 0 0) :: order4.cues.tail
      ∧ atOrBefore (order4.cues.getD 0 (cueAt 0 0 0)).due (order4.clock.frame + 1) = true ∧ orderState.cues = []
      ∧ (∀ x ∈ order4.cues.tail, atOrBefore x.due (order4.clock.frame + 1) = false)
      ∧ (∀ k, k ≠ 0 → (order4.cues.getD 0 (cueAt 0 0 0)).acts.get k = .none)
      ∧ (order4.lanes.get 1).enabled = true ∧ (order4.snd.taps.get 5).enabled = true ∧ (order4.pins.get 1).fn = .line
      ∧ (let t := after (exec (.cueFiring lowTick) order4)
        t.cues.map (·.id) = [3, 7, 7] ∧ (t.pins.get 0).level = false ∧ (t.pins.get 1).level = true)
      ∧ (after (exec (.cueFiring lowTick) (soloState (.switch 1)))).sel.waiting = some 1
      ∧ (after (exec (.cueFiring lowTick) (soloState (.switch 0)))).sel.waiting = none
      ∧ ((after (exec (.cueFiring lowTick) (soloState (.fade 5 0 512)))).snd.taps.get 5).step = 512
      ∧ ((after (exec (.cueFiring lowTick) (soloState (.fade 5 0 0)))).snd.taps.get 5).step = 1 := by
  decide +kernel

/-- Cue 3 forced: SWITCH 2 fails, so slot 0 is in the detail; cue 7 forced: no slot fails, and the first of the two goes. -/
theorem witness_CuesAreCancelledOrForced :
    AtHead (cmd 17 [7]) (put (cmd 17 [7]) order4) ∧ (cmd 17 [7]).code = 17
      ∧ AtHead (cmd 18 [7]) (put (cmd 18 [7]) order4) ∧ (cmd 18 [7]).code = 18
      ∧ order4.cues.find? (fun e => e.id = (cmd 18 [4]).word 0) = none
      ∧ order4.cues = order4.cues.take 2 ++ order4.cues.getD 2 (cueAt 0 0 0) :: order4.cues.drop 3
      ∧ (∀ x ∈ order4.cues.take 2, x.id ≠ (cmd 17 [7]).word 0) ∧ (order4.cues.getD 2 (cueAt 0 0 0)).id = 7
      ∧ (order4.lanes.get 1).intake ≠ .disabled ∧ (order4.lanes.get 2).intake = .disabled
      ∧ (applyAct 3 (.switch 2) order4).2 = some .state ∧ (applyAct 3 (.fade 6 0 1) order4).2 = some .state
      ∧ (applyAct 3 (.clipOut 0) order4).2 = some .orphanOut ∧ (applyAct 3 (.label 0 7) order4).2 = some .orphanLabel
      ∧ answersAs .cancelCue 17 order4 [([4], .refused .notFound 0), ([7], .done 1000010)] = true
      ∧ answersAs .forceCue 18 order4 [([4], .refused .notFound 0), ([3], .done 1)] = true
      ∧ (let t := after (exec .forceCue (put (cmd 18 [7]) order4))
        (t.snd.taps.get 5).target = 0 ∧ (t.snd.taps.get 5).step = 512 ∧ t.log.opens.get 1 = some 1
          ∧ t.cues.map (·.id) = [9, 3, 7]) := by
  refine ⟨atHead_put _ _, ?_, atHead_put _ _, ?_⟩ <;> decide +kernel

/-! ## Host commands: clips and media -/

/-- `started` at frame 100 with clip 41 as the only record. -/
def clipState (R : Clip) : State := { started with clock := { Clock.reset with frame := 100 }, log := oneClip R }

/-- IN with a preroll of 250 for input 0 beside an OPEN clip of input 1, OUT for input 1, and OUT for input 0. -/
theorem witness_ClipMarkOpensAndCloses :
    AtHead (cmd 19 [0, 0, 0, 250]) (put (cmd 19 [0, 0, 0, 250]) (clipState open41)) ∧ (cmd 19 [0, 0, 0, 250]).code = 19
      ∧ LogOk (put (cmd 19 [0, 0, 0, 250]) (clipState open41))
      ∧ (cmd 19 [0, 0, 0, 250]).word 3 ≤ 250 ∧ (clipState open41).log.opens.get 0 = none
      ∧ ((clipState open41).log.recs.get 1).state = .free
      ∧ (∀ j : Fin 256, j < 1 → ((clipState open41).log.recs.get j).state ≠ .free)
      ∧ ((clipState open41).log.recs.get 0).state = .opened ∧ ((clipState open41).log.recs.get 0).source = 1
      ∧ atOrBefore open41.inFrame (clipState open41).clock.frame = true
      ∧ answersAs .clipMark 19 (clipState open41)
        [([4, 0], .refused .badField 1), ([3, 4, 1], .refused .badField 2), ([3, 0, 0], .refused .badField 3),
          ([0, 0, 0, 250], .done 42), ([0, 0, 0, 251], .doneClamped 42), ([1, 1], .done 41), ([1, 0], .refused .state 1),
          ([3, 1, 7], .done 41), ([3, 0, 7], .refused .state 1)] = true :=
  ⟨atHead_put _ _, by decide +kernel, logOk_of _ open41 rfl (by unfold clipOk; decide +kernel) (.inl ⟨rfl, by decide⟩),
    by decide +kernel⟩

/-- R140, R141, R143: the notices of an IN and an OUT of pin 3 for input 1 at frame 100 carry it as their last item. -/
theorem test_the_mark_notices_carry_their_origin :
    let held (m : MarkAction) (s : State) : Option InsOp := ((markArrival m 1 0 100 100 0 (.pin 3) s).1.ins.holds.get 0).head?.map (·.op)
    let flags (m : MarkAction) (s : State) : Nat := ((markArrival m 1 0 100 100 0 (.pin 3) s).1.log.recs.get 0).flags.toNat
    let open1 : State := { noticed with log := oneClip open41 }
    held .markIn noticed = some (.write 0x300060 (noticeRecord .clipOpened 1 0 0 0
        [b1 1, b4 100, b1 0, b2 0, b1 (flags .markIn noticed), b2 (0 + 256 * 3)]))
      ∧ held .markOut open1 = some (.write 0x300060 (noticeRecord .clipClosed 41 0 0 0
          [b1 1, b4 100, b1 (flags .markOut open1), b2 (0 + 256 * 3)])) := by
  decide +kernel

/-- A log of 256 clips of one state, numbered from 1, none of them OPEN. -/
def fullLog (st : ClipState) : ClipLog :=
  { ClipLog.reset with
    recs := Table.ofFn fun i => { clip41 with num := i.val + 1, state := st }, nextNum := 255 }

theorem logOk_fullLog (s : State) (st : ClipState) (h : st = .sent ∨ st = .lost ∨ st = .closed)
    (hlog : s.log = fullLog st) (hq : s.xfer.queue = []) : LogOk s := by
  have hg : ∀ i, s.log.recs.get i = { clip41 with num := i.val + 1, state := st } := by
    intro i
    rw [hlog]
    exact Table.get_ofFn _ _
  have hs : st ≠ .free ∧ st ≠ .opened ∧ st ≠ .sending := by rcases h with h | h | h <;> subst h <;> decide
  refine ⟨⟨fun i => ?_, by rw [hlog]; exact (by decide : 1 ≤ 255), by rw [hlog]; exact (by decide : 255 ≤ 65535),
    fun i j _ hn => ?_⟩, fun src n => ?_, by simp [hq], by simp [hq], by simp [hq], fun i hi => ?_⟩
  · rw [hg]
    exact ⟨⟨fun e => absurd e hs.1, fun e => absurd e (Nat.succ_ne_zero _)⟩, by show i.val + 1 ≤ 65535; omega, .inl rfl⟩
  · rw [hg, hg] at hn
    exact Fin.ext (Nat.succ.inj hn)
  · have ho : s.log.opens.get src = none := by rw [hlog]; exact Table.get_fill _ _
    rw [ho]
    refine ⟨fun e => absurd e (by simp), fun ⟨i, e, _⟩ => ?_⟩
    rw [hg] at e
    exact absurd e hs.2.1
  · rw [hg] at hi
    exact absurd hi hs.2.2

/-- A MARK arrival in a full log of one state. -/
def fullState (st : ClipState) : State := { started with clock := { Clock.reset with frame := 100 }, log := fullLog st }

/-- With no FREE record the first of 256 SENT or LOST clips of one in-frame is taken over, and 256 CLOSED ones leave
none; from 255 on, number 256 is the last one held, so the new clip is 257. -/
theorem witness_ClipMarkOpensAndCloses_full :
    LogOk (fullState .sent) ∧ LogOk (fullState .lost) ∧ LogOk (fullState .closed)
      ∧ TakesRecord 0 (fullState .sent) ∧ TakesRecord 0 (fullState .lost)
      ∧ (∀ src, (fullState .sent).log.opens.get src = none)
      ∧ (∀ i, ((fullState .closed).log.recs.get i).state ≠ .free ∧ ((fullState .closed).log.recs.get i).state ≠ .sent
        ∧ ((fullState .closed).log.recs.get i).state ≠ .lost)
      ∧ (markArrival .markIn 0 0 100 100 250 .command (fullState .sent)).2 = .done 257
      ∧ (markArrival .markIn 0 0 100 100 250 .command (fullState .closed)).2 = .logFull := by
  refine ⟨logOk_fullLog _ _ (.inl rfl) rfl rfl, logOk_fullLog _ _ (.inr (.inl rfl)) rfl rfl,
    logOk_fullLog _ _ (.inr (.inr rfl)) rfl rfl, .inr (.inl ?_), .inr (.inr ?_), ?_⟩
  · unfold EarliestIn; decide +kernel
  · unfold EarliestIn; decide +kernel
  · decide +kernel

/-- TOGGLE with an OPEN clip, IN with one (closed one frame before, or at its own in-frame), OUT before the in-frame, the
log consistent; TOGGLE of input 3 and the largest LABEL code as a command. -/
theorem witness_ClipMarkOpensAndCloses_chaining :
    LogOk (clipState open41) ∧ (clipState open41).log.opens.get 1 = some 41
      ∧ TakesRecord 1 (clipState open41)
      ∧ earlier 89 open41.inFrame = true ∧ earlier 90 open41.inFrame = false ∧ earlier 88 open41.inFrame = true
      ∧ (let m (a : MarkAction) (n : Fin 4) (g : W32) (p : Nat) : Option (W32 × Nat) × MarkOutcome :=
          let r := markArrival a n 0 g 100 p .command (clipState open41)
          ((r.1.log.recs.get 0).out, r.2)
        m .toggle 1 100 0 = (some (100, 100), .done 41) ∧ m .markIn 1 100 9 = (some (90, 90), .done 42)
          ∧ m .markIn 1 100 11 = (some (90, 90), .done 42) ∧ m .markOut 1 89 0 = (some (90, 90), .done 41))
      ∧ (cmd 19 [2, 3, 0, 250]).word 0 = 2 ∧ (cmd 19 [2, 3, 0, 250]).word 1 = (3 : Fin 4).val
      ∧ (cmd 19 [3, 0, 65535]).low16 2 = 65535 := by
  refine ⟨logOk_of _ open41 rfl (by unfold clipOk; decide +kernel) (.inl ⟨rfl, by decide⟩), by decide +kernel,
    .inl (by decide +kernel), by decide +kernel⟩

/-- Clip 41 with six labels. -/
def labelled41 : Clip := { clip41 with labels := [7, 1, 2, 3, 4, 5] }

theorem witness_ClipsAreLabelledAndDeleted :
    AtHead (cmd 20 [41, 0, 9]) (put (cmd 20 [41, 0, 9]) (clipState clip41)) ∧ (cmd 20 [41, 0, 9]).code = 20
      ∧ (cmd 20 [41, 0, 9]).word 1 ≤ 1 ∧ (cmd 20 [41, 0, 9]).low16 2 ≠ 0
      ∧ AtHead (cmd 21 [41]) (put (cmd 21 [41]) (clipState clip41)) ∧ (cmd 21 [41]).code = 21
      ∧ findClip 41 (clipState clip41) = some 0 ∧ findClip 40 (clipState clip41) = none ∧ findClip 0 (clipState clip41) = none
      ∧ clip41.labels.length < 6 ∧ 6 ≤ labelled41.labels.length ∧ (9 : W16) ∉ labelled41.labels
      ∧ answersAs .clipLabel 20 (clipState clip41)
        [([41, 2, 9], .refused .badField 1), ([41, 0, 65536], .refused .badField 2), ([40, 0, 9], .refused .notFound 1),
          ([41, 0, 9], .done 0), ([41, 1, 9], .refused .notFound 2), ([41, 0, 7], .done 0), ([41, 1, 7], .done 0)] = true
      ∧ answersAs .clipLabel 20 (clipState labelled41) [([41, 0, 9], .refused .full 0)] = true
      ∧ answersAs .clipDelete 21 (clipState clip41) [([41], .done 0)] = true
      ∧ answersAs .clipDelete 21 sending41 [([41], .refused .state 1)] = true := by
  refine ⟨atHead_put _ _, ?_, ?_, ?_, atHead_put _ _, ?_⟩ <;> decide +kernel

/-- A LABEL arrival for an OPEN clip, for the one CLOSED clip, for the latest of 256 stamps that are equal (the first of
them), and for an input that has neither; six labels. -/
theorem witness_ClipsAreLabelledAndDeleted_arrivals :
    LogOk (clipState open41) ∧ LogOk (clipState clip41) ∧ LogOk (clipState labelled41)
      ∧ (clipState clip41).log.opens.get 1 = none
      ∧ (∀ j : Fin 256, j ≠ 0 → ((clipState clip41).log.recs.get j).state = .free)
      ∧ ((clipState clip41).log.recs.get 0).stamp = some 0
      ∧ (∀ j : Fin 256, j ≠ 0 → ((fullState .closed).log.recs.get j).stamp = some 0 ∧ earlier 0 (0 : W32) = false ∧ ¬j < 0)
      ∧ (let m (R : Clip) (n : Fin 4) (k : W16) : List W16 × Nat × MarkOutcome :=
          let r := markArrival .label n k 100 100 0 .command (clipState R)
          ((r.1.log.recs.get 0).labels, (r.1.log.recs.get 0).labelsDropped, r.2)
        m clip41 1 9 = ([7, 9], 0, .done 41) ∧ m labelled41 1 9 = (labelled41.labels, 1, .labelDropped 41)
          ∧ m clip41 0 9 = ([7], 0, .orphanLabel)) := by
  refine ⟨logOk_of _ open41 rfl (by unfold clipOk; decide +kernel) (.inl ⟨rfl, by decide⟩),
    logOk_of _ clip41 rfl (by unfold clipOk; decide +kernel) (.inl ⟨rfl, by decide⟩),
    logOk_of _ labelled41 rfl (by unfold clipOk; decide +kernel) (.inl ⟨rfl, by decide⟩), by decide +kernel⟩

/-- Path A RUNNING, the store holding the first unit of clip 41, and a send queue. -/
def sendState (R : Clip) (queue : List Send) : State :=
  { busy with
    aps := { busy.aps with map := busy.aps.map.set 11 (some ⟨0x200000, 65536⟩) }
    store := { Store.reset with
      state := .running, head := 12, nextSeq := 504, retained := [⟨10, 2, some ⟨500, some 1, 90, false⟩⟩] }
    log := oneClip R, xfer := { Transfer.reset with queue := queue } }

theorem witness_ClipsAreQueuedAndAborted :
    AtHead (cmd 22 [41, 0]) (put (cmd 22 [41, 0]) (sendState clip41 [])) ∧ (cmd 22 [41, 0]).code = 22
      ∧ (cmd 22 [41, 0]).word 1 = (0 : Fin 2).val ∧ LogOk (sendState clip41 [])
      ∧ AtHead (cmd 23 [41]) (put (cmd 23 [41]) sending41) ∧ (cmd 23 [41]).code = 23
      ∧ findClip 41 (sendState clip41 []) = some 0 ∧ clip41.first = some (500, 10) ∧ clip41.last = some (503, 16)
      ∧ (503 : W32) - 500 + 1 ≠ 0
      ∧ retainedOf 500 (sendState clip41 []) = some (⟨10, 2, some ⟨500, some 1, 90, false⟩⟩, ⟨500, some 1, 90, false⟩)
      ∧ clip41.selects ⟨500, some 1, 90, false⟩ = true
      ∧ (sendState clip41 [⟨9, 1⟩]).xfer.queue ≠ [] ∧ sending41.xfer.queue = ⟨41, 0⟩ :: []
      ∧ (sending41.log.recs.get 0).prior = some .closed ∧ (Send.mk 9 1).clip ≠ (cmd 23 [41]).word 0
      ∧ answersAs .sendClip 22 (sendState clip41 [])
        [([41, 2], .refused .badField 1), ([40, 0], .refused .notFound 1), ([41, 1], .refused .state 3), ([41, 0], .done 0)] = true
      ∧ answersAs .sendClip 22 (sendState clip41 [⟨9, 1⟩]) [([41, 0], .done 1)] = true
      ∧ answersAs .sendClip 22 (sendState clip41 (List.replicate 8 ⟨9, 1⟩)) [([41, 0], .refused .full 0)] = true
      ∧ answersAs .sendClip 22 (sendState open41 []) [([41, 0], .refused .state 1)] = true
      ∧ answersAs .sendClip 22 (sendState { clip41 with logOnly := true } []) [([41, 0], .refused .noData 0)] = true
      ∧ answersAs .sendClip 22 (sendState { clip41 with endPending := true } []) [([41, 0], .refused .state 2)] = true
      ∧ answersAs .abortSend 23 sending41 [([40], .refused .notFound 1), ([41], .done 1)] = true
      ∧ answersAs .abortSend 23 { sending41 with xfer := { sending41.xfer with queue := [⟨9, 1⟩, ⟨41, 0⟩] } }
        [([41], .done 0)] = true
      ∧ answersAs .abortSend 23 (clipState clip41) [([41], .refused .state 1)] = true := by
  refine ⟨atHead_put _ _, ?_, ?_, logOk_of _ clip41 rfl (by unfold clipOk; decide +kernel) (.inl ⟨rfl, by decide⟩),
    atHead_put _ _, ?_⟩ <;> decide +kernel

/-- Clips 41 and 42 SENDING to two paths, the first of them PAUSED on an offer that path A holds. -/
def twoSends (p q : Fin 2) : State :=
  let S : Clip := { clip41 with state := .sending, prior := some .closed }
  let w := sendState S [⟨41, p⟩, ⟨42, q⟩]
  { w with
    log := twoClips S { S with num := 42, prior := some .sent }
    home := { w.home with paths := w.home.paths.modify 0 fun P => { P with heldOffer := some unit4 } }
    xfer := { w.xfer with cursor := 502, remaining := 2, placed := 1, paused := true } }

theorem twoSends_ok (c : Command) (p q : Fin 2) : LogOk (put c (twoSends p q)) :=
  logOk_two _ { clip41 with state := .sending, prior := some .closed }
    { clip41 with state := .sending, prior := some .sent, num := 42 } p q rfl (by unfold clipOk; decide +kernel)
    (by unfold clipOk; decide +kernel) rfl rfl (by decide) rfl

theorem readsFirst_twoSends (c : Command) : ReadsFirst ⟨42, 1⟩ 500 503 (put c (twoSends 0 1)) :=
  show ReadsFirst ⟨42, 1⟩ 500 503 (twoSends 0 1) from
    ⟨1, _, ⟨10, 2, some ⟨500, some 1, 90, false⟩⟩, ⟨500, some 1, 90, false⟩, by decide +kernel, rfl, by decide +kernel⟩

/-- The active one of two transfers aborted: the next is read from its first unit. -/
theorem witness_ClipsAreQueuedAndAborted_next :
    AtHead (cmd 23 [41]) (put (cmd 23 [41]) (twoSends 0 1)) ∧ LogOk (put (cmd 23 [41]) (twoSends 0 1))
      ∧ ReadsFirst ⟨42, 1⟩ 500 503 (put (cmd 23 [41]) (twoSends 0 1))
      ∧ findClip 41 (twoSends 0 1) = some 0 ∧ ((twoSends 0 1).log.recs.get 0).prior = some .closed
      ∧ (let t := after (exec .abortSend (put (cmd 23 [41]) (twoSends 0 1)))
        t.xfer.queue = [⟨42, 1⟩] ∧ t.xfer.cursor = 500 ∧ t.xfer.remaining = 4 ∧ (t.home.paths.get 0).heldOffer = none) :=
  ⟨atHead_put _ _, twoSends_ok _ _ _, readsFirst_twoSends _, by decide +kernel⟩

/-- Path A disabled beneath the active one of two transfers, and beneath the one queued behind it. -/
theorem witness_SetPathEnablesTunesOrDisables_transfers :
    AtHead (cmd 11 [0, 0]) (put (cmd 11 [0, 0]) (twoSends 0 1)) ∧ (cmd 11 [0, 0]).word 1 = 0
      ∧ (∀ p q, LogOk (put (cmd 11 [0, 0]) (twoSends p q))) ∧ ReadsFirst ⟨42, 1⟩ 500 503 (put (cmd 11 [0, 0]) (twoSends 0 1))
      ∧ ap (.path 0) (twoSends 0 1) = some ⟨0x100000000, 8192⟩ ∧ ((twoSends 0 1).home.paths.get 0).state = .running
      ∧ (∀ x ∈ (twoSends 0 1).xfer.queue.filter (fun x => decide (x.path = 0)), findClip x.clip (twoSends 0 1) = some 0)
      ∧ (∀ x ∈ (twoSends 1 0).xfer.queue.filter (fun x => decide (x.path = 0)), findClip x.clip (twoSends 1 0) = some 1)
      ∧ (let t := after (exec .setPath (put (cmd 11 [0, 0]) (twoSends 0 1)))
        t.xfer.queue = [⟨42, 1⟩] ∧ t.xfer.cursor = 500 ∧ (t.log.recs.get 0).state = .closed)
      ∧ (let t := after (exec .setPath (put (cmd 11 [0, 0]) (twoSends 1 0)))
        t.xfer.queue = [⟨41, 1⟩] ∧ t.xfer.cursor = 502 ∧ (t.log.recs.get 1).state = .sent) :=
  ⟨atHead_put _ _, by decide, fun _ _ => twoSends_ok _ _ _, readsFirst_twoSends _, by decide +kernel⟩

theorem witness_ClearMediaEmptiesTheMedia :
    AtHead (cmd 25 []) (put (cmd 25 []) stored) ∧ (cmd 25 []).code = 25
      ∧ answersAs .clearMedia 25 stored [([], .done 1)] = true :=
  ⟨atHead_put _ _, by decide +kernel⟩

/-- A SENDING clip with the store OFF, an OPEN clip with and without a first unit while it is RUNNING, and nothing to
report. -/
theorem witness_ClearMediaEmptiesTheMedia_clips :
    let run (s : State) : State := after (exec .clearMedia (put (cmd 25 []) s))
    let waiting : Clip := { open41 with first := none, firstPending := true }
    LogOk (put (cmd 25 []) sending41) ∧ LogOk (put (cmd 25 []) { stored with log := oneClip open41 })
      ∧ LogOk (put (cmd 25 []) { stored with log := oneClip waiting })
      ∧ ((run sending41).log.recs.get 0).state = .lost
      ∧ (run { stored with log := oneClip open41 }).log.opens.get 1 = none
      ∧ ((run { stored with log := oneClip waiting }).log.recs.get 0).logOnly = true
      ∧ (clipState open41).store.state = .off
      ∧ started.xfer.queue = [] ∧ started.store.state = .off ∧ (∀ i, (started.log.recs.get i).state = .free)
      ∧ (∀ p, (started.home.paths.get p).state = .off) := by
  refine ⟨logOk_of _ { clip41 with state := .sending, prior := some .closed } rfl (by unfold clipOk; decide +kernel)
    (.inr ⟨0, rfl, rfl⟩), logOk_of _ open41 rfl (by unfold clipOk; decide +kernel) (.inl ⟨rfl, by decide⟩),
    logOk_of _ { open41 with first := none, firstPending := true } rfl (by unfold clipOk; decide +kernel)
      (.inl ⟨rfl, by decide⟩), by decide +kernel⟩

/-- A SENDING clip made LOST with LOG SET: its record is the one mirror write. -/
theorem witness_ClearMediaEmptiesTheMedia_mirror :
    LogOk (put (cmd 25 []) (setAp 12 0x300000 16384 sending41))
      ∧ ap .log (setAp 12 0x300000 16384 sending41) = some ⟨0x300000, 16384⟩
      ∧ (let t := after (exec .clearMedia (put (cmd 25 []) (setAp 12 0x300000 16384 sending41)))
        (t.ins.holds.get 0).head? = some ⟨.write 0x300000 (clipRecord (t.log.recs.get 0)), .nothing⟩) :=
  ⟨logOk_of _ { clip41 with state := .sending, prior := some .closed } rfl (by unfold clipOk; decide +kernel)
    (.inr ⟨0, rfl, rfl⟩), by decide +kernel⟩
/-! ## Coding, charging, mixing -/

/-- Two transfers ended by the store's end and by CLEAR_MEDIA, of a RUNNING and of a BLOCKED store. -/
theorem witness_SetStoreEnablesOrDisables_transfers :
    let s (st : StoreState) : State := { twoSends 0 1 with store := { (twoSends 0 1).store with state := st } }
    let idx : Send → Fin 256 := fun x => if x.clip = 41 then 0 else 1
    let off := after (exec .setStore (put (cmd 13 [0]) (s .running)))
    let cleared := after (exec .clearMedia (put (cmd 25 []) (s (.blocked 41))))
    ((s .running).xfer.queue.map (·.clip)).Nodup
      ∧ (∀ x ∈ (s .running).xfer.queue, findClip x.clip (s .running) = some (idx x))
      ∧ (off.log.recs.get 0).state = .lost ∧ (off.log.recs.get 1).state = .lost ∧ off.xfer.queue = []
      ∧ (cleared.log.recs.get 1).state = .lost ∧ cleared.store.state = .running := by
  decide +kernel

/-- "A coded row": 16 samples at q 1, kbase 3. -/
def workedRow : List Nat := [520, 600, 500, 610, 530, 640, 498, 600, 530, 600, 498, 600, 530, 600, 498, 600]

/-- 94 bits, cost 96, beginning 11000, in one cell of 40 bytes. -/
theorem test_a_coded_row :
    (codeRow 1 3 workedRow).length = 94 ∧ rowCost 94 = 96
      ∧ (codeRow 1 3 workedRow).take 5 = [true, true, false, false, false]
      ∧ (payloadOf (codeRow 1 3 workedRow)).length = 12
      ∧ (MUnit.row 2 0 0 0 1 2 94 (payloadOf (codeRow 1 3 workedRow))).length = 40 := by
  decide +kernel

/-- "The limits of the coder", and each clause of the bounds at the ends of its range. -/
theorem witness_RowsAreCodedWithinBounds :
    quantize 5 (1023 - 0) = 32 ∧ reconstruct 0 32 5 = 1023 ∧ mapCount 32 = 64 ∧ (riceCode 0 64).length = 34
      ∧ quantize 5 (0 - 1023) = -32 ∧ reconstruct 1023 (-32) 5 = 0 ∧ mapCount (-32) = 63
      ∧ quantize 1 (-12) = -6 ∧ mapCount (-6) = 11 ∧ riceCode 2 11 = [true, true, false, true, true]
      ∧ 22 / 2 ^ 0 ≤ 22 ∧ 22 < 23 / 2 ^ 0 ∧ 2943 / 2 ^ 7 ≤ 22 ∧ 22 < 2944 / 2 ^ 7 ∧ (riceCode 7 2943).length = 30 := by
  decide +kernel

/-- Lane 2 of "the row of the previous chapter, charged": T 80, B 1024, S 32. -/
def chargeState (fullness : Int) (q used : Nat) : State :=
  { started with
    lanes := started.lanes.set 2 { Lane.reset with target := 80, bound := 1024, span := 32, fullness := fullness, q := q }
    sel := { Selector.reset with programme := some 2 }
    home := { Home.reset with paths := Home.reset.paths.set 0 { HomePath.reset with
      state := .running, high := 10, placed := used } } }

/-- Rows a, b, d and e of that example, and the row of "fullness at its bound". -/
theorem witness_RowsAreCountedChargedAndOffered :
    let row (f : Int) (q used c : Nat) : Int × Nat :=
      let L := (chargeRow 2 c (chargeState f q used)).lanes.get 2
      (L.fullness, L.q)
    (chargeState 88 2 11).sel.programme = some 2 ∧ effectiveRoute (chargeState 88 2 11) = [0]
      ∧ ((chargeState 88 2 11).home.paths.get 0).high < 11 - 0
      ∧ row 40 1 10 96 = (56, 1) ∧ row 56 1 10 128 = (104, 3) ∧ row 88 2 11 96 = (104, 4) ∧ row 104 4 11 32 = (56, 2)
      ∧ row 1000 5 0 900 = (1024, 5) := by
  decide +kernel

theorem witness_OutputsSaturateAndRampsLand :
    (Tap.mk true 0 0 0 32768 0 512).enabled = true ∧ 1 ≤ (Tap.mk true 0 0 0 32768 0 512).step
      ∧ (Tap.mk true 0 0 0 0 65535 1).enabled = true ∧ 1 ≤ (Tap.mk true 0 0 0 0 65535 1).step := by
  decide +kernel

/-! ## Picture intake, records -/

/-- "Following the intake of a lane": lane 1 with W 16, L 2, N 2, just enabled at frame 7000. -/
def intakeState : State :=
  setAp 2 0x500000 4096 { started with
    clock := { Clock.reset with frame := 7000 }
    lanes := started.lanes.set 1 { Lane.reset with geom := some ⟨16, 2, 2⟩, intake := .waiting } }

/-- A write into that lane's aperture. -/
def feed (off len : Nat) (s : State) : State :=
  after (exec (.requestAccept ⟨BitVec.ofNat 40 (0x500000 + off), 4, .write (zeros len)⟩) s)

/-- Rows of that example, in its order: the stray, a frame start in slot 1, a skew, the odd
write, a whole frame in slot 0 with 32 bytes over. -/
theorem test_following_the_intake_of_a_lane :
    let s1 := feed 64 32 (feed 40 24 intakeState)
    let s2 := feed 32 32 s1
    let s3 := feed 65 2 { s2 with lanes := s2.lanes.set 1 { s2.lanes.get 1 with rowsThis := 0 } }
    (s1.lanes.get 1).intake = .inFrame 1 96 1 [] ∧ (s1.lanes.get 1).strays = 1 ∧ (s1.lanes.get 1).frameNo = 7000
      ∧ (s2.lanes.get 1).intake = .waiting ∧ (s2.lanes.get 1).skews = 1 ∧ (s3.lanes.get 1).skews = 2
      ∧ (let t := (feed 0 96 s3).lanes.get 1
        (t.intake, t.strays, t.rowsThis) = (.waiting, 2, 2)) := by
  decide +kernel

/-- `intakeState` with the switch to lane 1 pending from lane 0, and a closed clip of lane 1 that waits for its end. -/
def switchState : State :=
  { intakeState with
    sel := { Selector.reset with programme := some 0, waiting := some 1 }
    log := oneClip { clip41 with endPending := true, last := none } }

/-- `intakeState` with lane 1 in slot 1 at row 0 or 1, and an OPEN clip of lane 1. -/
def inFrameState (row : Nat) : State :=
  { intakeState with
    lanes := intakeState.lanes.set 1 { intakeState.lanes.get 1 with intake := .inFrame 1 (64 + 32 * row) row [] }
    log := oneClip open41 }

/-- An observed write of each kind: while the lane waits, odd, stray and at slot 1's first byte; in a frame, short of the
line, the line of row 0 and the last line with 4 bytes over, and pieces that abandon the frame: odd, at another offset
and at a slot start. -/
theorem witness_PictureWritesDriveTheIntake :
    Observed (.picture 1) 64 (zeros 32) ⟨0x500040, 4, .write (zeros 32)⟩ intakeState
      ∧ NumbersOk (inFrameState 0) ∧ PointersOk (inFrameState 0)
      ∧ (intakeState.lanes.get 0).intake = .disabled ∧ (intakeState.lanes.get 1).geom = some ⟨16, 2, 2⟩
      ∧ (intakeState.lanes.get 1).intake = .waiting ∧ (∀ k, k < 2 → 40 ≠ k * (16 * 2 * 2)) ∧ 64 = 1 * (16 * 2 * 2)
      ∧ ((inFrameState 1).lanes.get 1).intake = .inFrame 1 96 1 [] ∧ (zeros 24).length < 16 * 2 - 0
      ∧ 16 * 2 - 0 ≤ (zeros 36).length ∧ 0 + 1 ≠ 2
      ∧ ((inFrameState 0).log.recs.get 0).state = .opened ∧ ((inFrameState 0).log.recs.get 0).source = 1
      ∧ isAfter 7000 95 = true ∧ isAfter 95 95 = false
      ∧ (feed 65 2 intakeState).lanes.get 1 = { intakeState.lanes.get 1 with skews := 1 }
      ∧ (let t := feed 64 32 switchState
        t.sel.programme = some 1 ∧ t.sel.waiting = none ∧ t.store.openMark.get 1 = true
          ∧ (t.log.recs.get 0).endPending = false ∧ (t.lanes.get 1).intake = .inFrame 1 96 1 [])
      ∧ ((feed 96 24 (inFrameState 1)).lanes.get 1).intake = .inFrame 1 120 1 (zeros 24)
      ∧ ((feed 64 36 (inFrameState 0)).lanes.get 1).intake = .inFrame 1 100 1 (zeros 4)
      ∧ (let t := (feed 96 36 (inFrameState 1)).lanes.get 1
        (t.intake, t.strays, t.rowsThis) = (.waiting, 1, 1))
      ∧ ((feed 97 2 (inFrameState 1)).log.recs.get 0).damaged = 1
      ∧ ((feed 98 2 (inFrameState 1)).lanes.get 1).intake = .waiting
      ∧ ((feed 0 32 (inFrameState 1)).lanes.get 1).intake = .inFrame 0 32 1 [] :=
  have h := logOk_of (inFrameState 0) open41 rfl (by unfold clipOk; decide +kernel) (.inl ⟨rfl, by decide⟩)
  ⟨⟨mapOk_of _ (by decide +kernel) (by decide +kernel) (by decide +kernel) rfl, rfl, by decide +kernel, by decide +kernel,
    rfl, by decide +kernel, rfl, ⟨0x500000, 4096⟩, by decide +kernel⟩, h.1, h.2.1, by decide +kernel⟩

/-- A piece that abandons the frame at row 1 for each reason, with NOTICES SET: the record shows ODD, RESTART and OFFSET;
a clip of the lane with no first unit that waits for its end; the most recent unit of an empty and of a filled store. -/
theorem witness_PictureWritesDriveTheIntake_notices :
    let s (off : Nat) : State := feed off 2 (setAp 13 0x300000 4096 (inFrameState 1))
    let shown (off reason : Nat) : Option InsEntry :=
      some ⟨.write 0x300040 (noticeRecord .skew 1 0 7000 7000 [b1 reason, b5 96, b5 off, b4 1]), .nothing⟩
    (inFrameState 1).log.opens.get 1 = some 41 ∧ intakeState.log.opens.get 1 = none
      ∧ ((s 97).ins.holds.get 0).head? = shown 97 2 ∧ ((s 98).ins.holds.get 0).head? = shown 98 0
      ∧ ((s 64).ins.holds.get 0).head? = shown 64 1
      ∧ (switchState.log.recs.get 0).endPending = true ∧ (switchState.log.recs.get 0).source = 1
      ∧ (switchState.log.recs.get 0).first.isSome = true ∧ intakeState.store.retained = []
      ∧ stored.store.retained ≠ [] ∧ (∀ e ∈ stored.store.retained, e.unit.isSome = true) := by
  decide +kernel

/-- `started` with the aperture of sound input 0 and the input SEEKING. -/
def seekState : State :=
  setAp 5 0x600000 4096 { started with snd := { started.snd with
    inputs := started.snd.inputs.set 0 { SoundInput.reset with intake := .seeking } } }

/-- Two channels on a ring of 4096 bytes, so frames of 8 bytes: offsets 4 and 4096 are no boundary below the ring end, 8
and 4088 are; 7 bytes fall short of a frame and 8 fill one, at 4088 to the ring end. -/
theorem witness_SoundWritesFillTheSlots :
    Observed (.sound 0) 8 (zeros 8) ⟨0x600008, 4, .write (zeros 8)⟩ seekState
      ∧ SoundInput.reset.intake = .disabled ∧ (seekState.snd.inputs.get 0).intake = .seeking
      ∧ (seekState.snd.inputs.get 0).channels = 2 ∧ 4 % 8 ≠ 0 ∧ 4096 / 8 * 8 ≤ 4096 ∧ 8 % 8 = 0 ∧ 4088 < 4096 / 8 * 8
      ∧ (zeros 7).length < 2 * 4 - 0 ∧ 2 * 4 - 0 ≤ (zeros 8).length ∧ 4088 + 8 = 4096 / (2 * 4) * (2 * 4)
      ∧ (let X : SoundInput := { SoundInput.reset with intake := .seeking }
        let R (n : Nat) : SoundInput := { SoundInput.reset with intake := .running n [] }
        X.take 4096 4 (zeros 8) = X ∧ (X.take 4096 8 (zeros 8)).intake = .running 16 []
          ∧ (R 8).take 4096 12 (zeros 8) = { X with skews := 1 } ∧ ((R 8).take 4096 16 (zeros 8)).intake = .running 24 []
          ∧ ((R 8).take 4096 8 (zeros 7)).intake = .running 15 (zeros 7)
          ∧ ((R 4088).take 4096 4088 (zeros 16)).intake = .running 0 []
          ∧ ((R 8).take 4096 8 (zeros 20)).intake = .running 28 (zeros 4))
      ∧ (sampleWords [0xFE, 0xFF, 0xFF, 0x7F]).getD 0 0 = -2 ∧ anyInvalid [0, 0, 0, 0x80] = true
      ∧ anyInvalid [0, 0, 0, 0x7F] = false :=
  ⟨⟨mapOk_of _ (by decide +kernel) (by decide +kernel) (by decide +kernel) rfl, rfl, by decide +kernel, by decide +kernel,
    rfl, by decide +kernel, rfl, ⟨0x600000, 4096⟩, by decide +kernel⟩, by decide +kernel⟩

/-- "Overwrite, protection and resume": a unit of 21 cells at head 3000 makes 500 and 501 leave and stops at 502. -/
theorem test_the_units_that_must_leave :
    let e (seq : W32) (start cells : Nat) : Retained := ⟨start, cells, some ⟨seq, none, 8000, true⟩⟩
    storePad 1023 3000 21 = 0
      ∧ (splitLeaving 1023 3000 21 [e 500 1977 3, e 501 1980 21, e 502 2001 5, e 503 2006 4]).1.map (·.start) = [1977, 1980]
      ∧ (splitLeaving 1023 3021 4 [e 502 2001 5, e 503 2006 4]).1.map (·.start) = [2001] := by
  decide +kernel

/-- The GUARD notice of chapter 1's example, byte by byte: kind 1, subject 9, tally 1, initiator 3, offset 0. -/
theorem test_a_guard_notice_by_bytes :
    noticeRecord .guard 9 0 258 5 [b2 1, b1 3, b5 0, b4 257]
      = [1, 0, 9, 0, 0, 0, 0, 0, 2, 1, 0, 0, 5, 0, 0, 0, 1, 0, 3, 0, 0, 0, 0, 0, 1, 1, 0, 0, 0, 0, 0, 0] := by
  decide +kernel

/-- Every record of a fixed size has it: unit header 16, clip record 64, notice 32, status block 436. -/
theorem test_record_sizes :
    (unitHeader .pad 0 64 0 0 0 0).length = 16 ∧ (clipRecord clip41).length = 64 ∧ (clipRecord (Clip.free 5)).length = 64
      ∧ (noticeRecord .midnight 0 0 0 0 [b1 1]).length = 32 ∧ (statusBlock State.reset).length = 436 := by
  decide +kernel

end Sys2Proof.Tests
end

section
/-! Steps: what a step runs, which commands stop, and what every command leaves as it was (R1, R2, R12, R13, R175). -/

namespace Sys2Proof.Machine

open Sys2Proof.Safety

/-! ## A step is the front command's -/

/-- An invariant that does not look at the queue of waiting commands, and that every command keeps, every step keeps. -/
theorem keptByStep_of_exec {Inv : State → Prop} (hq : ∀ s l, Inv s → Inv { s with pending := l })
    (h : ∀ c, KeptBy Inv c) : KeptByStep Inv := by
  intro s t hs ht
  cases hp : s.pending with
  | nil =>
    rw [step_nil s hp] at ht
    cases ht
    exact hs
  | cons c rest =>
    rw [step_cons s hp] at ht
    exact h c _ _ (hq s rest hs) ht

/-! ## Outcomes of the two rows that are not plain functions of the state -/

theorem exec_requestAccept {r : Request} {s : State} (hl : r.lengthOk = true) (hi : r.inSpace = true) :
    exec (.requestAccept r) s = .next (acceptHeld (s.modPort fun q => { q with held := q.held ++ [r] })) := by
  simp [exec, execRequestAccept, hl, hi]

theorem exec_requestAccept_refused {r : Request} (s : State) (hl : r.lengthOk = false) :
    exec (.requestAccept r) s = .refused .malformedRequest := by
  simp [exec, execRequestAccept, hl]

theorem exec_requestAccept_fault {r : Request} (s : State) (hl : r.lengthOk = true) (hi : r.inSpace = false) :
    exec (.requestAccept r) s = .fault .outsideAddressSpace := by
  simp [exec, execRequestAccept, hl, hi]

/-- A request that the port takes in has a legal length and range. -/
theorem exec_requestAccept_next {r : Request} {s t : State} (h : exec (.requestAccept r) s = .next t) :
    t = acceptHeld (s.modPort fun q => { q with held := q.held ++ [r] }) := by
  cases hl : r.lengthOk with
  | false => rw [exec_requestAccept_refused s hl] at h; cases h
  | true =>
    cases hi : r.inSpace with
    | false => rw [exec_requestAccept_fault s hl hi] at h; cases h
    | true => rw [exec_requestAccept hl hi] at h; cases h; rfl

theorem exec_configEntryRead_reading {i : Nat} {last : Option Nat} {s : State} (e : Option (BitVec 64)) (b : BitVec 12)
    (h : s.ctl.loader = .reading i last) :
    exec (.configEntryRead e b) s = .next (acceptHeld (loadEntry i last e b s)) := by
  simp [exec, execConfigEntryRead, h]

theorem exec_configEntryRead_ended {s : State} (e : Option (BitVec 64)) (b : BitVec 12) (h : s.ctl.loader = .ended) :
    exec (.configEntryRead e b) s = .next s := by
  simp [exec, execConfigEntryRead, h]

theorem exec_powerOnReset (b : Bool) (s : State) :
    ∃ t, exec (.powerOnReset b) s = .next t ∧ t.pending = s.pending ∧ t.dram = s.dram := by
  refine ⟨_, rfl, ?_⟩
  cases b <;> simp

theorem exec_linkReset (s : State) : ∃ t, exec .linkReset s = .next t ∧ t.pending = s.pending ∧ t.dram = s.dram :=
  ⟨_, rfl, by simp, by simp⟩

/-! ## Frames of the tick rows -/

@[simp] theorem tickWhen_frame (b : Bool) (t : TickIn) (s : State) :
    (tickWhen b t s).pending = s.pending ∧ (tickWhen b t s).dram = s.dram := by
  cases b <;> simp [tickWhen]

/-! ## The queue of waiting commands and DRAM (R2) -/

/-- Whatever the command, a next state has the same queue of waiting commands. -/
theorem exec_pending {c : Instr} {s t : State} (h : exec c s = .next t) : t.pending = s.pending := by
  cases c with
  | powerOnReset b =>
    obtain ⟨u, hu, hp, -⟩ := exec_powerOnReset b s
    rw [hu] at h; cases h; exact hp
  | linkReset =>
    obtain ⟨u, hu, hp, -⟩ := exec_linkReset s
    rw [hu] at h; cases h; exact hp
  | configEntryRead e b =>
    cases hl : s.ctl.loader with
    | reading i last => rw [exec_configEntryRead_reading e b hl] at h; cases h; simp
    | ended => rw [exec_configEntryRead_ended e b hl] at h; cases h; rfl
  | requestAccept r => rw [exec_requestAccept_next h]; simp
  | _ => simp at h; subst h; simp

/-- DRAM is the same after every command but the three at which granted writes land. -/
theorem exec_dram {c : Instr} {s t : State} (h : exec c s = .next t) (hg : c ≠ .downstreamGrant) (hr : c ≠ .readServed)
    (hs : c ≠ .storeReadServed) : t.dram = s.dram := by
  cases c with
  | powerOnReset b =>
    obtain ⟨u, hu, -, hd⟩ := exec_powerOnReset b s
    rw [hu] at h; cases h; exact hd
  | linkReset =>
    obtain ⟨u, hu, -, hd⟩ := exec_linkReset s
    rw [hu] at h; cases h; exact hd
  | configEntryRead e b =>
    cases hl : s.ctl.loader with
    | reading i last => rw [exec_configEntryRead_reading e b hl] at h; cases h; simp
    | ended => rw [exec_configEntryRead_ended e b hl] at h; cases h; rfl
  | requestAccept r => rw [exec_requestAccept_next h]; simp
  | downstreamGrant => exact absurd rfl hg
  | readServed => exact absurd rfl hr
  | storeReadServed => exact absurd rfl hs
  | _ => simp at h; subst h; simp

/-! ## DRAM in canonical form (R2, R13) -/

theorem serveRead_wf {s : State} (h : Mem.wf s.dram = true) : Mem.wf (serveRead s).dram = true := by
  unfold serveRead
  split
  · split
    · exact h
    · refine settleWrites_wf ?_
      split <;> simpa using h
  · exact h

theorem serveStoreRead_wf {s : State} (h : Mem.wf s.dram = true) : Mem.wf (serveStoreRead s).dram = true := by
  unfold serveStoreRead
  split
  · exact settleWrites_wf (by simpa using h)
  · exact h

/-- Every command keeps DRAM in canonical form: the three that change it do so by the granted writes alone. -/
theorem exec_dramOk (c : Instr) : KeptBy DramOk c := by
  intro s t hs ht
  by_cases hg : c = .downstreamGrant
  · subst hg
    cases ht
    simpa [DramOk] using settleWrites_wf (s := grant s) (by simpa [DramOk] using hs)
  by_cases hr : c = .readServed
  · subst hr; cases ht; exact serveRead_wf hs
  by_cases hv : c = .storeReadServed
  · subst hv; cases ht; exact serveStoreRead_wf hs
  · unfold DramOk
    rw [exec_dram ht hg hr hv]
    exact hs

/-- Settles O1. -/
theorem stepRunsTheFrontCommand : Obligations.StepRunsTheFrontCommand :=
  ⟨fun s _ _ h => step_cons s h, step_nil⟩

/-- Settles O2. -/
theorem onlyMalformedRequestsStop : Obligations.OnlyMalformedRequestsStop := by
  refine ⟨fun c s hw => ?_, fun _ s h => exec_requestAccept_refused s h, fun _ s hl hi => exec_requestAccept_fault s hl hi⟩
  cases c with
  | requestAccept r =>
    simp only [Instr.wf, Bool.and_eq_true] at hw
    exact ⟨_, exec_requestAccept hw.1 hw.2⟩
  | configEntryRead e b =>
    cases hl : s.ctl.loader with
    | reading i last => exact ⟨_, exec_configEntryRead_reading e b hl⟩
    | ended => exact ⟨_, exec_configEntryRead_ended e b hl⟩
  | _ => exact ⟨_, rfl⟩

/-- Settles O3. -/
theorem onlyTheMemoryPathChangesDram : Obligations.OnlyTheMemoryPathChangesDram :=
  fun _ _ _ h => ⟨exec_pending h, exec_dram h⟩

/-- Settles O5: the bytes of DRAM change by `Mem.writeBytes` alone, which keeps the form. -/
theorem dramStaysCanonical : Obligations.DramStaysCanonical :=
  keptByStep_of_exec (fun _ _ h => h) exec_dramOk

end Sys2Proof.Machine
end

section
/-! The resets: the state after power-on (R14, R28, R172), the link reset and the link coming up (R15, R176). -/

namespace Sys2Proof.Table

variable {α : Type} {n : Nat}

/-- Each of some places changed once: what every place then holds. -/
theorem get_foldl_modify (f : Fin n → α → α) {l : List (Fin n)} (hl : l.Nodup) (t : Table α n) (i : Fin n) :
    (l.foldl (fun u k => u.modify k (f k)) t).get i = if i ∈ l then f i (t.get i) else t.get i := by
  induction l generalizing t with
  | nil => simp
  | cons k l ih =>
    rw [List.nodup_cons] at hl
    rw [List.foldl_cons, ih hl.2, get_modify]
    by_cases hk : k = i
    · subst hk; simp [hl.1]
    · simp [hk, Ne.symm hk]

/-- Every place changed once. -/
theorem foldl_modify_finRange (f : Fin n → α → α) (t : Table α n) :
    (List.finRange n).foldl (fun u k => u.modify k (f k)) t = ofFn fun i => f i (t.get i) := by
  apply ext_get
  intro i
  simp [get_foldl_modify f (List.nodup_finRange n)]

/-- A table is the table of its entries. -/
@[simp] theorem ofFn_get (t : Table α n) : (ofFn fun i => t.get i) = t := ext_get fun i => get_ofFn _ i

end Sys2Proof.Table

namespace Sys2Proof.Machine

open Sys2Proof.Safety

/-! ## The state after power-on reset meets every invariant (R14) -/

@[simp] theorem ap_reset (f : Fn) : ap f State.reset = none := Table.get_fill _ _

theorem reset_mapOk : MapOk State.reset := by
  simp [MapOk, LoadOk, State.reset, Control.reset, Config.defaultCommandsBase, ap, Apertures.reset]

theorem reset_clockOk : ClockOk State.reset := by
  simp [ClockOk, State.reset, Clock.reset, Config.ticksPerFrame, Config.framesPerDay, Config.framesPerSecond]

theorem reset_lanesOk : LanesOk State.reset := by
  intro l
  simp [laneOk, State.reset, Lane.reset, Lane.enabled]

theorem reset_selectorOk : SelectorOk State.reset := by
  simp [SelectorOk, State.reset, Selector.reset]

theorem reset_noticesOk : NoticesOk State.reset := by
  simp [NoticesOk, State.reset, Control.reset, attnOf]

theorem reset_cuesOk : CuesOk State.reset := by
  simp [CuesOk, State.reset]

theorem reset_logOk : LogOk State.reset := by
  simp [LogOk, NumbersOk, PointersOk, SendOk, clipOk, State.reset, ClipLog.reset, Clip.free, Transfer.reset]

theorem reset_pathsOk : PathsOk State.reset := by
  simp [PathsOk, pathOk, publishOk, State.reset, Home.reset, HomePath.reset, InsertPath.reset]

theorem reset_hasCells : HasCells State.reset := by
  simp [HasCells, State.reset, Home.reset, HomePath.reset]

theorem reset_indexOk : IndexOk State.reset := by
  simp [IndexOk, State.reset, Store.reset]

/-- Settles O4. -/
theorem resetMeetsEveryInvariant : Obligations.ResetMeetsEveryInvariant :=
  ⟨Mem.reset_wf, reset_mapOk, reset_clockOk, reset_lanesOk, reset_selectorOk, reset_noticesOk, reset_cuesOk, reset_logOk,
    reset_pathsOk, reset_hasCells, reset_indexOk⟩

/-! ## The end of the start-up load (R131, R172, R173) -/

/-- A pin after the load has ended: a MARK pin takes the level it shows (R131). -/
def settledPin (levels : BitVec 12) (p : Fin 12) (P : Pin) : Pin :=
  if P.fn = .mark then P.settle (levels.getLsbD p.val) else P

theorem forEach_settleMarkPin (levels : BitVec 12) (l : List (Fin 12)) (s : State) :
    forEach l (settleMarkPin levels) s
      = { s with pins := l.foldl (fun u p => u.modify p (settledPin levels p)) s.pins } := by
  induction l generalizing s with
  | nil => rfl
  | cons p l ih => rw [forEach_cons, ih]; rfl

/-- The end of the load, written out. -/
theorem endLoad_eq (result : LoadResult) (err : Nat) (levels : BitVec 12) (s : State) :
    endLoad result err levels s =
      { s with
        ctl := { s.ctl with loader := .ended, loadResult := result, loadErr := err }
        aps := { s.aps with map := s.aps.map.set 0 (some ⟨s.ctl.cmdBase, 4096⟩) }
        pins := Table.ofFn fun p => settledPin levels p (s.pins.get p)
        ins := { s.ins with holds := s.ins.holds.modify 0 (· ++ [⟨.write s.ctl.cmdBase (headerRecord
          { s.ctl with loader := .ended, loadResult := result, loadErr := err, cause := .powerOn }), .nothing⟩]) } } := by
  rw [← Table.foldl_modify_finRange]
  simp only [endLoad, forEach_settleMarkPin]
  rfl

/-- No pin is a MARK pin after reset, so a load that ends at once settles none. -/
theorem settledPin_reset (levels : BitVec 12) (p : Fin 12) : settledPin levels p (State.reset.pins.get p) = Pin.reset p := by
  simp [settledPin, State.reset, Pin.reset]

/-- Settles O28. -/
theorem powerOnResetRestoresEveryBlock : Obligations.PowerOnResetRestoresEveryBlock := by
  refine ⟨fun s => ⟨rfl, _, rfl, ?_⟩, ?_⟩
  · simp only [Bool.false_eq_true, if_false, endLoad_eq, State.modCtl, settledPin_reset]
    rfl
  · simp [State.reset, Apertures.reset, Clock.reset, Lane.reset, Selector.reset, Sound.reset, SoundInput.reset, Tap.reset,
      Bus.reset, Home.reset, HomePath.reset, Store.reset, Pin.reset, pinInput, ClipLog.reset, Clip.free, Transfer.reset,
      Control.reset, Port.reset, InsertPath.reset]

/-! ## LINK_RESET and LINK_UP (R15, R51, R93, R114, R150, R176) -/

theorem Lane.toWaiting_eq (L : Lane) :
    L.toWaiting = { L with intake := if L.intake = .disabled then .disabled else .waiting } := by
  unfold Lane.toWaiting Lane.enabled
  by_cases h : L.intake = .disabled <;> simp [h]
  rw [← h]

theorem SoundInput.toSeeking_eq (X : SoundInput) :
    X.toSeeking = { X with intake := if X.intake = .disabled then .disabled else .seeking } := by
  unfold SoundInput.toSeeking SoundInput.enabled
  by_cases h : X.intake = .disabled <;> simp [h]
  rw [← h]

/-- What LINK_RESET does to every block but the insert path, which takes the header record. -/
def linkResetBlocks (s : State) : State :=
  { s with
    port := s.port.linkReset, lanes := s.lanes.map Lane.toWaiting
    snd := { s.snd with inputs := s.snd.inputs.map SoundInput.toSeeking }
    home := { s.home with paths := s.home.paths.map fun P => { P with stall := 0 } }
    pins := s.pins.map fun P => { P with cand := none }, ctl := s.ctl.linkReset }

theorem exec_linkReset_eq (s : State) : exec .linkReset s = .next (writeHeader (linkResetBlocks s)) := rfl

theorem writeHeader_eq (s : State) : writeHeader s = { s with ins := (writeHeader s).ins } := by
  unfold writeHeader
  split <;> rfl

/-- The header record stands last in the control block's hold, when COMMANDS is SET (R173). -/
theorem writeHeader_ins_set {s : State} {a : Aperture} (h : ap .commands s = some a) :
    (writeHeader s).ins
      = { s.ins with holds := s.ins.holds.modify 0 (· ++ [⟨.write a.base (headerRecord s.ctl), .nothing⟩]) } := by
  simp [writeHeader, h]; rfl

theorem writeHeader_ins_unset {s : State} (h : ap .commands s = none) : (writeHeader s).ins = s.ins := by
  simp [writeHeader, h]

/-- Settles O29. -/
theorem linkResetAndLinkUp : Obligations.LinkResetAndLinkUp := by
  refine ⟨fun s => ⟨_, exec_linkReset_eq s, ?_, ?_, ?_, ?_, ?_, ?_, ?_⟩, exec_linkUp⟩
  · simp only [writeHeader_frame]
    exact writeHeader_eq (linkResetBlocks s)
  · intro l
    simp [linkResetBlocks, Lane.toWaiting_eq]
  · intro i
    simp [linkResetBlocks, SoundInput.toSeeking_eq]
  · intro p
    simp [linkResetBlocks]
  · intro p
    simp [linkResetBlocks]
  · intro h
    exact writeHeader_ins_unset (s := linkResetBlocks s) h
  · intro a h
    simp only [writeHeader_frame]
    exact writeHeader_ins_set (s := linkResetBlocks s) h

end Sys2Proof.Machine
end

section
/-! The insert queue's joins in turn (R12, R101, R117). -/

namespace Sys2Proof.Machine

open Sys2Proof.Safety

/-! ## The first of the blocks in turn -/

/-- The first of the numbers below `n` that has a property. -/
theorem find?_finRange {n : Nat} {p : Fin n → Bool} {k : Fin n} (hk : p k = true) (hlt : ∀ j, j < k → p j = false) :
    (List.finRange n).find? p = some k := by
  rw [List.find?_eq_some_iff_getElem]
  refine ⟨hk, k.val, by simp, by simp, fun j hj => ?_⟩
  simpa using hlt ⟨j, by omega⟩ hj

/-- The first block from `b` on that has a property. -/
theorem find?_turnFrom {b k : Fin 6} {p : Fin 6 → Bool} (hk : p (b + k) = true) (hlt : ∀ j, j < k → p (b + j) = false) :
    (turnFrom b).find? p = some (b + k) := by
  rw [turnFrom, List.find?_map, find?_finRange (p := p ∘ (b + ·)) (k := k) hk hlt, Option.map_some]

theorem find?_turnFrom_none {b : Fin 6} {p : Fin 6 → Bool} (h : ∀ c, p c = false) : (turnFrom b).find? p = none := by
  simp [List.find?_eq_none, h]

/-- The turn stands at the first block behind the one served whose hold is not empty. -/
theorem turnAfter_eq {b j : Fin 6} {holds : Table (List InsEntry) 6} (hj : holds.get (b + 1 + j) ≠ [])
    (hlt : ∀ i, i < j → holds.get (b + 1 + i) = []) : turnAfter b holds = b + 1 + j := by
  rw [turnAfter, find?_turnFrom (k := j) (by simpa using hj) (by simpa using hlt), Option.getD_some]

/-- With every hold empty the turn stands at the block behind the one served (log 10). -/
theorem turnAfter_empty {b : Fin 6} {holds : Table (List InsEntry) 6} (h : ∀ c, holds.get c = []) :
    turnAfter b holds = b + 1 := by
  rw [turnAfter, find?_turnFrom_none (by simp [h]), Option.getD_none]

theorem nextProducer_eq {q : InsertPath} {k : Fin 6} (hk : q.holds.get (q.turn + k) ≠ [])
    (hlt : ∀ j, j < k → q.holds.get (q.turn + j) = []) : nextProducer q = some (q.turn + k) :=
  find?_turnFrom (by simpa using hk) (by simpa using hlt)

theorem nextProducer_empty {q : InsertPath} (h : ∀ b, q.holds.get b = []) : nextProducer q = none :=
  find?_turnFrom_none (by simp [h])

/-! ## A join -/

/-- The insert path after the oldest entry `e` of block `b`'s hold has joined, `rest` staying in the hold. -/
def InsertPath.joined (q : InsertPath) (b : Fin 6) (e : InsEntry) (rest : List InsEntry) (after : Nat) : InsertPath :=
  ⟨q.queue ++ [⟨e.op, after⟩], q.holds.set b rest, turnAfter b (q.holds.set b rest)⟩

/-- The change tied to a joining touches a path's published count or a unit's readable mark alone. -/
theorem joinEffect_eq (e : JoinEffect) (s : State) :
    joinEffect e s = { s with
      home := match e with
        | .publish p v => { s.home with paths := s.home.paths.modify p fun P => { P with published := max P.published v } }
        | .nothing | .readable _ => s.home
      store := match e with
        | .readable seq =>
          { s.store with retained := s.store.retained.map fun x =>
              { x with unit := x.unit.map fun u => if u.seq = seq then { u with readable := true } else u } }
        | .nothing | .publish _ _ => s.store } := by
  cases e <;> rfl

/-- With room, the first block in turn that has an entry has its oldest one join (R12). -/
theorem joinOne_eq {s : State} {k : Fin 6} {e : InsEntry} {rest : List InsEntry} (hroom : s.ins.queue.length < 64)
    (hlt : ∀ j, j < k → s.ins.holds.get (s.ins.turn + j) = []) (hk : s.ins.holds.get (s.ins.turn + k) = e :: rest) :
    joinOne s = joinEffect e.eff { s with ins := s.ins.joined (s.ins.turn + k) e rest s.port.nextPiece } := by
  have hn : nextProducer s.ins = some (s.ins.turn + k) := nextProducer_eq (by simp [hk]) hlt
  simp only [joinOne, Config.insertRoom, hroom, if_true, hn, joinFrom, hk]
  rfl

theorem joinOne_full {s : State} (h : 64 ≤ s.ins.queue.length) : joinOne s = s :=
  if_neg (Nat.not_lt.2 h)

theorem joinOne_empty {s : State} (h : ∀ b, s.ins.holds.get b = []) : joinOne s = s := by
  simp [joinOne, nextProducer_empty h]

/-- Settles O25. -/
theorem joinsGoInTurn : Obligations.JoinsGoInTurn := by
  refine ⟨fun s k e rest hroom hlt hk => ?_, fun s h => ?_, fun s h => ?_⟩
  · obtain ⟨t, ht⟩ : ∃ t, t = joinEffect e.eff { s with ins := s.ins.joined (s.ins.turn + k) e rest s.port.nextPiece } :=
      ⟨_, rfl⟩
    have hins : t.ins = s.ins.joined (s.ins.turn + k) e rest s.port.nextPiece := by simp [ht]
    refine ⟨t, by rw [exec_insertQueueJoin, joinOne_eq hroom hlt hk, ht], ?_, ?_, ?_, ?_, ?_⟩
    · rw [hins]; rfl
    · rw [hins]; rfl
    · intro j hj hi
      rw [hins] at hj hi ⊢
      exact turnAfter_eq hj hi
    · intro h
      rw [hins] at h ⊢
      exact turnAfter_empty h
    · rw [hins, ht]
      exact joinEffect_eq e.eff _
  · rw [exec_insertQueueJoin, joinOne_full h]
  · rw [exec_insertQueueJoin, joinOne_empty h]

end Sys2Proof.Machine
end

section
/-! The downstream port: what the arbiter grants, and the granted writes that reach DRAM (R1, R2, R13). -/

namespace Sys2Proof.Machine

open Sys2Proof.Safety

/-! ## Reading DRAM after a granted write (R2) -/

namespace Mem

/-- Exactly the written bytes change. -/
theorem read_writeBytes_range {m : Memory} (h : wf m = true) (a : Nat) (bs : List Byte) (x : Nat) :
    read (writeBytes m a bs) x = if a ≤ x ∧ x < a + bs.length then bs.getD (x - a) 0 else read m x := by
  rw [read_writeBytes h]
  by_cases ha : a ≤ x
  · by_cases hx : x < a + bs.length
    · rw [if_pos ha, if_pos ⟨ha, hx⟩, List.getD_eq_getElem _ _ (by omega), List.getD_eq_getElem _ _ (by omega)]
    · rw [if_pos ha, if_neg (fun h => hx h.2), List.getD_eq_default _ _ (by omega)]
  · rw [if_neg ha, if_neg (fun h => ha h.1)]

end Mem

/-! ## The granted writes at the front (R13; log 9) -/

/-- A granted write at the front lands. -/
theorem applyWrites_write {g : Granted} {a : Nat} {d : List Byte} (h : writeOf g = some (a, d)) (gs : List Granted)
    (m : Memory) : applyWrites (g :: gs) m = applyWrites gs (Mem.writeBytes m a d) := by
  cases g with
  | piece p =>
    cases hp : p.op with
    | read n => simp [writeOf, hp] at h
    | write b =>
      simp only [writeOf, hp, Option.some.injEq, Prod.mk.injEq] at h
      simp [applyWrites, hp, h]
  | entry op =>
    cases op with
    | read b t => simp [writeOf] at h
    | write b c =>
      simp only [writeOf, Option.some.injEq, Prod.mk.injEq] at h
      simp [applyWrites, h]

/-- A granted read at the front stops the writes behind it. -/
theorem applyWrites_read {g : Granted} (h : writeOf g = none) (gs : List Granted) (m : Memory) :
    applyWrites (g :: gs) m = (g :: gs, m) := by
  cases g with
  | piece p =>
    cases hp : p.op with
    | read n => simp [applyWrites, hp]
    | write b => simp [writeOf, hp] at h
  | entry op =>
    cases op with
    | read b t => rfl
    | write b c => simp [writeOf] at h

/-- A list of granted requests that no write leads. -/
def ReadLeads (l : List Granted) : Prop := ∀ g gs, l = g :: gs → writeOf g = none

theorem ReadLeads.nil : ReadLeads [] := fun _ _ h => by cases h

theorem ReadLeads.cons {g : Granted} {gs : List Granted} (h : writeOf g = none) : ReadLeads (g :: gs) := by
  intro g' gs' e
  cases e
  exact h

/-- A granted read behind a list that no write leads. -/
theorem ReadLeads.append_read {l : List Granted} (h : ReadLeads l) {g : Granted} (hg : writeOf g = none) :
    ReadLeads (l ++ [g]) := by
  cases l with
  | nil => exact .cons hg
  | cons x xs => exact .cons (h x xs rfl)

theorem applyWrites_readLeads {l : List Granted} (h : ReadLeads l) (m : Memory) : applyWrites l m = (l, m) := by
  cases l with
  | nil => rfl
  | cons g gs => exact applyWrites_read (h g gs rfl) gs m

/-- Writes in front of a list that no write leads land in order. -/
theorem applyWrites_append {ws later : List Granted} (hw : ∀ g ∈ ws, (writeOf g).isSome = true) (hl : ReadLeads later)
    (m : Memory) : applyWrites (ws ++ later) m
      = (later, (ws.filterMap writeOf).foldl (fun m w => Mem.writeBytes m w.1 w.2) m) := by
  induction ws generalizing m with
  | nil => exact applyWrites_readLeads hl m
  | cons g ws ih =>
    obtain ⟨⟨a, d⟩, hg⟩ := Option.isSome_iff_exists.1 (hw g (by simp))
    rw [List.cons_append, applyWrites_write hg, ih fun x hx => hw x (by simp [hx])]
    simp [hg]

theorem settleWrites_eq (s : State) : settleWrites s = { s with
    dram := (applyWrites s.port.granted s.dram).2
    port := { s.port with granted := (applyWrites s.port.granted s.dram).1 } } := rfl

/-- With no write in front nothing reaches DRAM. -/
theorem settleWrites_readLeads {s : State} (h : ReadLeads s.port.granted) : settleWrites s = s := by
  rw [settleWrites_eq, applyWrites_readLeads h]

theorem Port.granted_nil {q : Port} (h : q.granted = []) : { q with granted := [] } = q := by
  rw [← h]

/-- A request put last among those granted (R13). -/
def Port.put (g : Granted) (q : Port) : Port := { q with granted := q.granted ++ [g] }

/-- With nothing granted and unserved, a granted write is in DRAM at once, exactly its bytes changing (log 9). -/
theorem settleWrites_put_write {s : State} {g : Granted} {a : Nat} {d : List Byte} (hs : DramOk s)
    (hn : s.port.granted = []) (hg : writeOf g = some (a, d)) :
    ∃ m, settleWrites (s.modPort (Port.put g)) = { s with dram := m }
      ∧ ∀ x, Mem.read m x = if a ≤ x ∧ x < a + d.length then d.getD (x - a) 0 else Mem.read s.dram x := by
  refine ⟨_, ?_, Mem.read_writeBytes_range hs a d⟩
  simp only [settleWrites_eq, State.modPort, Port.put, hn, List.nil_append, applyWrites_write hg, applyWrites,
    Port.granted_nil hn]

/-! ## Hold-back (R13) -/

theorem heldBack_iff (q : Queued) (ps : List Piece) :
    heldBack q ps = true ↔ ∃ a d, q.op = .write a d ∧ ∃ p ∈ ps, ∃ b, p.op = .write b ∧ p.serial < q.after
      ∧ a < p.addr + b.length ∧ p.addr < a + d.length := by
  cases hq : q.op with
  | read a n => simp [heldBack, hq]
  | write a d =>
    simp only [heldBack, hq, List.any_eq_true, overlaps, Bool.and_eq_true, decide_eq_true_eq, InsOp.write.injEq]
    constructor
    · rintro ⟨p, hp, ⟨hw, hs⟩, h1, h2⟩
      cases hb : p.op with
      | read n => simp [hb, opWrites] at hw
      | write b =>
        rw [hb] at h1
        exact ⟨a, d, ⟨rfl, rfl⟩, p, hp, b, hb, hs, h1, h2⟩
    · rintro ⟨_, _, ⟨rfl, rfl⟩, p, hp, b, hb, hs, h1, h2⟩
      exact ⟨p, hp, ⟨by simp [hb, opWrites], hs⟩, by rw [hb]; exact h1, h2⟩

/-! ## A piece of a request done (R1) -/

/-- The last piece done answers its request, wherever it stands among the open ones; an earlier one leaves it waiting for
one piece less. -/
theorem donePiece_eq {q : Port} {id : Nat} {os qs : List OpenReq} {o : OpenReq} (data : List Byte)
    (h : q.opens = os ++ o :: qs) (ho : o.id = id) (hx : ∀ x ∈ os ++ qs, x.id ≠ id) :
    Port.donePiece id data q = { q with
      opens := if o.left ≤ 1 then os ++ qs else os ++ { o with left := o.left - 1, data := o.data ++ data } :: qs
      answers := if o.left ≤ 1 then q.answers ++ [⟨o.id, o.initiator, o.isRead, o.data ++ data⟩] else q.answers } := by
  have hos : ∀ x ∈ os, x.id ≠ id := fun x h => hx x (by simp [h])
  have hqs : ∀ x ∈ qs, x.id ≠ id := fun x h => hx x (by simp [h])
  have hfind : q.opens.find? (fun x => x.id = id) = some o := by
    rw [h, List.find?_append, List.find?_eq_none.2 (by simpa using hos)]
    simp [ho]
  have hfilter : q.opens.filter (fun x => x.id ≠ id) = os ++ qs := by
    rw [h, List.filter_append, List.filter_cons_of_neg (by simp [ho]), List.filter_eq_self.2 (by simpa using hos),
      List.filter_eq_self.2 (by simpa using hqs)]
  have hsame : ∀ l : List OpenReq, (∀ x ∈ l, x.id ≠ id) →
      l.map (fun x => if x.id = id then { x with left := x.left - 1, data := x.data ++ data } else x) = l := by
    intro l hl
    exact (List.map_congr_left fun x hx => if_neg (hl x hx)).trans (List.map_id l)
  simp only [Port.donePiece, hfind, hfilter]
  split
  · rfl
  · rw [h, List.map_append, List.map_cons, hsame os hos, hsame qs hqs, if_pos ho]

/-! ## The grant (R13) -/

/-- The head of the insert queue is granted. -/
theorem grant_entry {s : State} {e : Queued} {rest : List Queued} (hq : s.ins.queue = e :: rest)
    (hb : heldBack e s.port.inflight = false) (h : 48 ≤ s.ins.queue.length ∨ s.port.inflight = []) :
    grant s = State.modPort (Port.put (.entry e.op)) { s with ins := { s.ins with queue := rest } } := by
  have hg : grantsEntry e s = true := by
    rcases h with h | h
    · simp [grantsEntry, hb, Config.arbiterThreshold, h]
    · rw [h] at hb; simp [grantsEntry, hb, h]
  simp only [grant, hq, List.head?_cons, hg, if_true, grantEntry]
  rfl

/-- When the head of the insert queue may not be granted, or there is none, the oldest piece is. -/
theorem grant_piece {s : State} {p : Piece} {rest : List Piece} (hp : s.port.inflight = p :: rest)
    (h : s.ins.queue = []
      ∨ ∃ e es, s.ins.queue = e :: es ∧ (heldBack e s.port.inflight = true ∨ s.ins.queue.length < 48)) :
    grant s = grantPiece s := by
  rcases h with h | ⟨e, es, hq, h⟩
  · simp [grant, h]
  · have hg : grantsEntry e s = false := by
      rcases h with h | h
      · simp [grantsEntry, h]
      · simp only [grantsEntry, Config.arbiterThreshold, hp, List.isEmpty_cons, Bool.or_false]
        simp [Nat.not_le.2 h]
    simp [grant, hq, hg]

theorem grantPiece_read {s : State} {p : Piece} {rest : List Piece} {n : Nat} (hp : s.port.inflight = p :: rest)
    (ho : p.op = .read n) :
    grantPiece s = State.modPort (Port.put (.piece p)) { s with port := { s.port with inflight := rest } } := by
  simp only [grantPiece, hp, ho, opWrites]
  rfl

/-- A granted write piece: its request is answered with the last piece and waits for one less before. -/
theorem grantPiece_write {s : State} {p : Piece} {rest : List Piece} {d : List Byte} {os qs : List OpenReq} {o : OpenReq}
    (hp : s.port.inflight = p :: rest) (ho : p.op = .write d) (h : s.port.opens = os ++ o :: qs) (hid : o.id = p.req)
    (hl : 1 ≤ o.left) (hx : ∀ x ∈ os ++ qs, x.id ≠ p.req) :
    grantPiece s = State.modPort (Port.put (.piece p)) { s with port := { s.port with
      inflight := rest
      opens := if o.left = 1 then os ++ qs else os ++ { o with left := o.left - 1 } :: qs
      answers := if o.left = 1 then s.port.answers ++ [⟨o.id, o.initiator, o.isRead, o.data⟩] else s.port.answers } } := by
  have hd := donePiece_eq (q := { s.port with inflight := rest, granted := s.port.granted ++ [.piece p] }) [] h hid hx
  have he : (o.left ≤ 1) = (o.left = 1) := propext ⟨fun h => by omega, fun h => by omega⟩
  simp only [grantPiece, hp, ho, opWrites, if_true, State.modPort, hd, Port.put, List.append_nil, he]

theorem writeOf_piece_write {p : Piece} {d : List Byte} (h : p.op = .write d) :
    writeOf (.piece p) = some (p.addr, d) := by
  simp [writeOf, h]

theorem writeOf_piece_read {p : Piece} {n : Nat} (h : p.op = .read n) : writeOf (.piece p) = none := by
  simp [writeOf, h]

/-! ## What a grant leads to (R13; logs 8, 9) -/

section
variable {s u : State} {g : Granted} (hg : grant s = u.modPort (Port.put g))
include hg

/-- A granted write with nothing unserved before it is in DRAM. -/
theorem exec_grant_write {a : Nat} {d : List Byte} (hu : DramOk u) (hn : u.port.granted = [])
    (hw : writeOf g = some (a, d)) :
    ∃ m, exec .downstreamGrant s = .next (acceptHeld { u with dram := m })
      ∧ ∀ x, Mem.read m x = if a ≤ x ∧ x < a + d.length then d.getD (x - a) 0 else Mem.read u.dram x := by
  obtain ⟨m, hm, hr⟩ := settleWrites_put_write hu hn hw
  exact ⟨m, by rw [exec_downstreamGrant, hg, hm], hr⟩

/-- A granted read stands last among those granted. -/
theorem exec_grant_read (hn : ReadLeads u.port.granted) (hr : writeOf g = none) :
    exec .downstreamGrant s = .next (acceptHeld (u.modPort (Port.put g))) := by
  rw [exec_downstreamGrant, hg, settleWrites_readLeads (hn.append_read hr)]

/-- Behind a read that is not yet served any grant stands last, and DRAM stays. -/
theorem exec_grant_behind {x : Granted} {xs : List Granted} (hn : u.port.granted = x :: xs) (hx : writeOf x = none) :
    exec .downstreamGrant s = .next (acceptHeld (u.modPort (Port.put g))) := by
  rw [exec_downstreamGrant, hg, settleWrites_readLeads (by simpa [Port.put, hn] using ReadLeads.cons hx)]

end

/-- Settles O21. -/
theorem grantsReachDramInOrder : Obligations.GrantsReachDramInOrder := by
  refine ⟨heldBack_iff, ⟨?_, ?_⟩, ?_, ?_⟩
  · intro s a d n rest hs hn hq hb h
    obtain ⟨m, hm, hr⟩ := exec_grant_write (grant_entry hq hb h) hs hn rfl
    exact ⟨_, hm, rfl, hr⟩
  · intro s p rest hs hn hp h
    have hg := grant_piece hp h
    refine ⟨fun n ho => ?_, fun d o os qs ho hop hid hl hx => ?_⟩
    · have hr := exec_grant_read (hg.trans (grantPiece_read hp ho)) (by simpa [hn] using ReadLeads.nil)
        (writeOf_piece_read ho)
      simpa [State.modPort, Port.put, hn] using hr
    · obtain ⟨m, hm, hr⟩ := exec_grant_write (hg.trans (grantPiece_write hp ho hop hid hl hx)) hs hn
        (writeOf_piece_write ho)
      exact ⟨_, hm, rfl, hr⟩
  · intro s a n k rest hn hq h
    exact exec_grant_read (grant_entry hq rfl h) hn rfl
  · intro s x xs hn hx
    refine ⟨fun e rest hq hb h => exec_grant_behind (grant_entry hq hb h) hn hx, fun p rest hp h => ?_⟩
    have hg := grant_piece hp h
    exact ⟨fun n ho => exec_grant_behind (hg.trans (grantPiece_read hp ho)) hn hx,
      fun d o os qs ho hop hid hl hy => exec_grant_behind (hg.trans (grantPiece_write hp ho hop hid hl hy)) hn hx⟩

end Sys2Proof.Machine
end

section
/-! The service of reads (R1, R2, R11, R13). The owner that a served read is handed to does not look at the port, so what
it does is the same whatever else is granted. -/

namespace Sys2Proof.Machine

open Sys2Proof.Safety

/-! ## What does not look at the port -/

/-- An operation that neither looks at the port nor changes it. -/
def OffPort (f : State → State) : Prop := ∀ s g, f (s.modPort g) = (f s).modPort g

section
variable (s : State) (g : Port → Port)

@[simp] theorem ap_modPort (f : Fn) : ap f (s.modPort g) = ap f s := rfl
@[simp] theorem pathCells_modPort (p : Fin 2) : pathCells p (s.modPort g) = pathCells p s := rfl
@[simp] theorem storeCells_modPort : storeCells (s.modPort g) = storeCells s := rfl
@[simp] theorem fits_modPort (p : Fin 2) (u : MUnit) : fits p u (s.modPort g) = fits p u s := rfl
@[simp] theorem replayAnswer_modPort (p : Fin 2) (u : MUnit) : replayAnswer p u (s.modPort g) = replayAnswer p u s := rfl
@[simp] theorem findClip_modPort (n : Nat) : findClip n (s.modPort g) = findClip n s := rfl
@[simp] theorem activeClip_modPort : activeClip (s.modPort g) = activeClip s := rfl
@[simp] theorem cursorSelected_modPort : cursorSelected (s.modPort g) = cursorSelected s := rfl
@[simp] theorem newestTouched_modPort (o n : Nat) : newestTouched o n (s.modPort g) = newestTouched o n s := rfl

end

theorem modPath_offPort (p : Fin 2) (f : HomePath → HomePath) : OffPort (State.modPath p f) := fun _ _ => rfl
theorem modXfer_offPort (f : Transfer → Transfer) : OffPort (State.modXfer f) := fun _ _ => rfl

theorem raise_offPort (k : NoticeKind) (j : Nat) (d : List Item) : OffPort (raise k j d) := by
  intro s g
  simp only [raise, raiseAt, ap_modPort, State.modPort_ctl]
  cases ap .notices s with
  | none => rfl
  | some a =>
    dsimp only
    split
    · next h => exact (if_pos h).trans rfl
    · next h => exact (if_neg h).trans rfl

theorem changeRec_offPort (i : Fin 256) (f : Clip → Clip) : OffPort (changeRec i f) := by
  intro s g
  simp only [changeRec, mirror, writeRecord, State.modRec]
  change (match ap .log s with | none => _ | some a => _) = State.modPort g (match ap .log s with | none => _ | some a => _)
  cases ap .log s <;> rfl

/-! ## Placements (R101, R105, R109) -/

theorem padStep_offPort (p : Fin 2) (f : Fit) : OffPort (padStep p f) := by
  intro s g
  cases f <;> rfl

theorem dataStep_offPort (p : Fin 2) (u : MUnit) (n : Nat) : OffPort (dataStep p u n) := fun _ _ => rfl
theorem publishStep_offPort (p : Fin 2) : OffPort (publishStep p) := fun _ _ => rfl

theorem pressureTest_offPort (p : Fin 2) (k : UnitKind) : OffPort (pressureTest p k) := by
  intro s g
  simp only [pressureTest, State.modPort_home]
  split
  · next h => exact (if_pos h).trans (by rw [modPath_offPort, raise_offPort])
  · next h => exact if_neg h

theorem place_offPort (p : Fin 2) (u : MUnit) (n : Nat) : OffPort (place p u n) := by
  intro s g
  simp only [place, pathCells_modPort, State.modPort_home]
  rw [padStep_offPort, dataStep_offPort, publishStep_offPort, pressureTest_offPort]

theorem tryTags_offPort (p : Fin 2) (l : List MUnit) : OffPort (tryTags p l) := by
  induction l with
  | nil => exact fun _ _ => rfl
  | cons u l ih =>
    intro s g
    simp only [tryTags, fits_modPort]
    split
    · next h => exact (if_pos h).trans (by rw [modPath_offPort, place_offPort, ih])
    · next h => exact if_neg h

theorem raiseResume_offPort (p : Fin 2) (r : Nat) : OffPort (raiseResume p r) := by
  intro s g
  simp only [raiseResume, State.modPort_home, raise_offPort _ _ _ s g]
  split
  · exact raise_offPort _ _ _ _ g
  · rfl

/-! ## The transfer engine (R166 to R168) -/

theorem skipUnits_offPort (k : Nat) : OffPort (skipUnits k) := by
  induction k with
  | zero => exact fun _ _ => rfl
  | succ k ih =>
    intro s g
    simp only [skipUnits, State.modPort_xfer, cursorSelected_modPort]
    split
    · next h => exact if_pos h
    · next h => exact (if_neg h).trans (by rw [modXfer_offPort, ih])

theorem activate_offPort : OffPort activate := by
  intro s g
  simp only [activate, State.modPort_xfer, activeClip_modPort, State.modPort_log]
  split <;> rfl

theorem complete_offPort : OffPort complete := by
  intro s g
  simp only [complete, State.modPort_xfer, findClip_modPort]
  split
  · rfl
  · split
    · rw [raise_offPort, modXfer_offPort]
    · rw [changeRec_offPort, raise_offPort, modXfer_offPort]

theorem deal_offPort (k : Nat) : OffPort (deal k) := by
  induction k with
  | zero => exact fun _ _ => rfl
  | succ k ih =>
    intro s g
    simp only [deal, State.modPort_xfer, skipUnits_offPort _ s g]
    split
    · rfl
    · split
      · rw [complete_offPort, activate_offPort, ih]
      · rfl

theorem goOn_offPort : OffPort goOn := fun s g => deal_offPort _ s g

theorem toldPlaced_offPort : OffPort toldPlaced := by
  intro s g
  simp only [toldPlaced, advanceCursor]
  rw [modXfer_offPort, modXfer_offPort, goOn_offPort]

theorem reexamine_offPort (p : Fin 2) : OffPort (reexamine p) := by
  intro s g
  simp only [reexamine, State.modPort_home, replayAnswer_modPort]
  split
  · rfl
  · split
    · rw [modPath_offPort, place_offPort, toldPlaced_offPort]
    · rfl
    · rfl

/-! ## A read handed to its owner (R11, R107 to R109, R179) -/

theorem afterConsumption_offPort (p : Fin 2) : OffPort (afterConsumption p) := by
  intro s g
  simp only [afterConsumption, modPath_offPort _ _ _ g, State.modPort_home]
  split
  · simp only [raiseResume_offPort _ _ _ g, modPath_offPort _ _ _ g, State.modPort_home, tryTags_offPort _ _ _ g,
      reexamine_offPort _ _ g]
  · simp only [modPath_offPort _ _ _ g, State.modPort_home, tryTags_offPort _ _ _ g, reexamine_offPort _ _ g]

/-- The early-read count, which rises when the piece touches a placed but unpublished cell (R108). -/
def countEarly (p : Fin 2) (o n : Nat) (s : State) : State :=
  if touchesUnpublished (pathCells p s) (s.home.paths.get p) (touchedCells o n) then
    s.modPath p fun P => { P with early := P.early + 1 }
  else s

/-- The consumption of the newest touched published entry, and what follows it (R107, R109). -/
def consumeUnits (p : Fin 2) (x : Option (RingEntry × List RingEntry)) (s : State) : State :=
  match x with
  | none => s
  | some (e, rest) => afterConsumption p (s.modPath p fun P => { P with units := rest, consumed := e.start + e.cells })

theorem handConsumerRead_off {p : Fin 2} {s : State} (h : (s.home.paths.get p).state = .off) (o n : Nat) :
    handConsumerRead p o n s = s := if_pos h

theorem handConsumerRead_on {p : Fin 2} {s : State} (h : (s.home.paths.get p).state ≠ .off) (o n : Nat) :
    handConsumerRead p o n s
      = consumeUnits p (consumedBy (pathCells p s) (s.home.paths.get p) (touchedCells o n)) (countEarly p o n s) := by
  refine (if_neg h).trans ?_
  unfold consumeUnits countEarly
  cases consumedBy (pathCells p s) (s.home.paths.get p) (touchedCells o n) <;> rfl

theorem countEarly_offPort (p : Fin 2) (o n : Nat) : OffPort (countEarly p o n) := by
  intro s g
  simp only [countEarly, pathCells_modPort, State.modPort_home]
  split
  · next h => exact if_pos h
  · next h => exact if_neg h

theorem consumeUnits_offPort (p : Fin 2) (x : Option (RingEntry × List RingEntry)) : OffPort (consumeUnits p x) := by
  intro s g
  cases x with
  | none => rfl
  | some x =>
    simp only [consumeUnits]
    rw [modPath_offPort, afterConsumption_offPort]

theorem handConsumerRead_offPort (p : Fin 2) (o n : Nat) : OffPort (handConsumerRead p o n) := by
  intro s g
  by_cases h : (s.home.paths.get p).state = .off
  · rw [handConsumerRead_off h, handConsumerRead_off (s := s.modPort g) h]
  · rw [handConsumerRead_on h, handConsumerRead_on (s := s.modPort g) h, countEarly_offPort, consumeUnits_offPort]
    rfl

theorem releaseByRead_offPort (o n : Nat) : OffPort (releaseByRead o n) := by
  intro s g
  simp only [releaseByRead, newestTouched_modPort]
  split <;> rfl

theorem handRead_offPort (f : Fn) (o n : Nat) (i : Fin 16) : OffPort (handRead f o n i) := by
  intro s g
  cases f with
  | path p =>
    simp only [handRead, State.modPort_home]
    split
    · next h => exact (if_pos h).trans (by rw [handConsumerRead_offPort])
    · next h => exact if_neg h
  | notices =>
    simp only [handRead, State.modPort_ctl]
    split
    · next h => exact (if_pos h).trans (by rw [releaseByRead_offPort])
    · next h => exact if_neg h
  | _ => rfl

/-- What the owner of a piece's function does with the served read, if the piece has one. -/
def handPiece (p : Piece) (n : Nat) (s : State) : State :=
  match p.fn with
  | none => s
  | some f => handRead f p.off n p.initiator s

theorem handPiece_offPort (p : Piece) (n : Nat) : OffPort (handPiece p n) := by
  intro s g
  unfold handPiece
  cases p.fn with
  | none => rfl
  | some f => exact handRead_offPort f _ _ _ s g

theorem handPiece_port (p : Piece) (n : Nat) (s : State) : (handPiece p n s).port = s.port := by
  unfold handPiece
  split <;> simp

theorem handPiece_dram (p : Piece) (n : Nat) (s : State) : (handPiece p n s).dram = s.dram := by
  unfold handPiece
  split <;> simp

/-- The owners of the other functions do not watch reads (R11). -/
theorem handPiece_unwatched {p : Piece} (h : ∀ f, p.fn = some f → f ≠ .notices ∧ ∀ q, f ≠ .path q) (n : Nat) (s : State) :
    handPiece p n s = s := by
  unfold handPiece
  cases hf : p.fn with
  | none => rfl
  | some f =>
    obtain ⟨h1, h2⟩ := h f hf
    cases f with
    | path q => exact absurd rfl (h2 q)
    | notices => exact absurd rfl h1
    | _ => rfl

/-! ## READ_SERVED -/

/-- A served read piece: its data goes to its request, it is handed to its owner, and the writes behind it land. -/
theorem serveRead_eq {s : State} {p : Piece} {n : Nat} {rest : List Granted} (hg : s.port.granted = .piece p :: rest)
    (hp : p.op = .read n) :
    serveRead s = settleWrites (handPiece p n
      (s.modPort fun q => Port.donePiece p.req (Mem.readBytes s.dram p.addr n) { q with granted := rest })) := by
  simp only [serveRead, hg, hp, handPiece] <;> rfl

/-- With no read piece at the front of the granted requests nothing happens (log 3). -/
theorem serveRead_none {s : State} (h : ∀ p n rest, s.port.granted = .piece p :: rest → p.op ≠ .read n) :
    serveRead s = s := by
  unfold serveRead
  split
  · next p rest hg =>
    split
    · rfl
    · next n hn => exact absurd hn (h p n rest hg)
  · rfl

/-- The port after a read piece of request `o` has been served with `data`, `rest` staying granted (R1). -/
def Port.served (os qs : List OpenReq) (o : OpenReq) (data : List Byte) (rest : List Granted) (q : Port) : Port :=
  { q with
    granted := rest
    opens := if o.left ≤ 1 then os ++ qs else os ++ { o with left := o.left - 1, data := o.data ++ data } :: qs
    answers := if o.left ≤ 1 then q.answers ++ [⟨o.id, o.initiator, o.isRead, o.data ++ data⟩] else q.answers }

section
variable {s : State} {p : Piece} {n : Nat} {o : OpenReq} {os qs : List OpenReq} {ws later : List Granted}
  (hp : p.op = .read n) (ho : s.port.opens = os ++ o :: qs) (hid : o.id = p.req) (hx : ∀ x ∈ os ++ qs, x.id ≠ p.req)
include hp ho hid hx

/-- A served read piece of an open request, whatever is granted behind it. -/
theorem serveRead_open {rest : List Granted} (hg : s.port.granted = .piece p :: rest) :
    serveRead s = settleWrites
      (handPiece p n (s.modPort (Port.served os qs o (Mem.readBytes s.dram p.addr n) rest))) := by
  rw [serveRead_eq hg hp]
  have hd := donePiece_eq (q := { s.port with granted := rest }) (Mem.readBytes s.dram p.addr n) ho hid hx
  simp only [State.modPort, hd, Port.served]

/-- Served alone, nothing lands behind the read. -/
theorem serveRead_alone (hg : s.port.granted = [.piece p]) :
    serveRead s = handPiece p n (s.modPort (Port.served os qs o (Mem.readBytes s.dram p.addr n) [])) := by
  rw [serveRead_open hp ho hid hx hg]
  exact settleWrites_nil (by rw [handPiece_port]; rfl)

/-- The owner does what it does when the piece is served alone, and then the writes directly behind the read land, up to
the next read (log 9). -/
theorem serveRead_behind (hg : s.port.granted = .piece p :: (ws ++ later)) (hw : ∀ g ∈ ws, (writeOf g).isSome = true)
    (hl : ReadLeads later) :
    serveRead s = { handPiece p n (s.modPort (Port.served os qs o (Mem.readBytes s.dram p.addr n) [])) with
      dram := (ws.filterMap writeOf).foldl (fun m w => Mem.writeBytes m w.1 w.2) s.dram
      port := Port.served os qs o (Mem.readBytes s.dram p.addr n) later s.port } := by
  have hs : s.modPort (Port.served os qs o (Mem.readBytes s.dram p.addr n) (ws ++ later))
      = (s.modPort (Port.served os qs o (Mem.readBytes s.dram p.addr n) [])).modPort
          fun q => { q with granted := ws ++ later } := rfl
  rw [serveRead_open hp ho hid hx hg, hs, handPiece_offPort, settleWrites_eq]
  simp only [State.modPort_port, State.modPort_dram, handPiece_port, handPiece_dram, applyWrites_append hw hl]
  rfl

end

/-- Settles O22. -/
theorem servedReadsAnswerWithDram : Obligations.ServedReadsAnswerWithDram := by
  refine ⟨fun s p n o os qs ws later dram port hg hp ho hid hx hw hl hdram hport => ?_, fun s h => ?_⟩
  · have hb := serveRead_behind hp ho hid hx hg hw hl
    rw [← hdram, show Port.served os qs o _ later s.port = port from hport.symm] at hb
    refine ⟨fun hf => ?_, _, rfl, ?_⟩
    · rw [exec_readServed, hb, handPiece_unwatched hf]
      rfl
    · have ha := serveRead_alone (s := { s with port := { s.port with granted := [.piece p] } }) hp ho hid hx rfl
      rw [exec_readServed, hb, ha]
      rfl
  · rw [exec_readServed, serveRead_none h]

end Sys2Proof.Machine
end

section
/-! The cutting of a request at the boundaries of SET apertures (R3, R8). -/

namespace Sys2Proof.Machine

open Sys2Proof.Safety

/-! ## Spans -/

/-- Spans that follow one another without a gap, none of them empty. -/
def SpanChain : Nat → List (Nat × Nat) → Nat → Prop
  | lo, [], hi => lo = hi
  | lo, x :: xs, hi => x.1 = lo ∧ x.1 < x.2 ∧ SpanChain x.2 xs hi

/-- Rising boundaries between two ends. -/
def Cuts (lo : Nat) (bs : List Nat) (hi : Nat) : Prop := bs.Pairwise (· ≤ ·) ∧ (∀ b ∈ bs, lo ≤ b ∧ b < hi) ∧ lo < hi

theorem Cuts.tail {lo b hi : Nat} {bs : List Nat} (h : Cuts lo (b :: bs) hi) : Cuts b bs hi := by
  obtain ⟨hp, hb, -⟩ := h
  rw [List.pairwise_cons] at hp
  exact ⟨hp.2, fun c hc => ⟨hp.1 c hc, (hb c (by simp [hc])).2⟩, (hb b (by simp)).2⟩

/-- A boundary at the lower end cuts nothing. -/
theorem spans_cons_self (b : Nat) (bs : List Nat) (hi : Nat) : spans b (b :: bs) hi = spans b bs hi :=
  if_neg (Nat.lt_irrefl b)

theorem spans_cons_lt {lo b : Nat} (h : lo < b) (bs : List Nat) (hi : Nat) :
    spans lo (b :: bs) hi = (lo, b) :: spans b bs hi :=
  if_pos h

/-- Every cut goes on from its first boundary, with a span in front unless the boundary is the lower end. -/
theorem spans_cons_cases {lo b hi : Nat} {bs : List Nat} (h : Cuts lo (b :: bs) hi) :
    (lo = b ∧ spans lo (b :: bs) hi = spans b bs hi)
      ∨ (lo < b ∧ spans lo (b :: bs) hi = (lo, b) :: spans b bs hi) := by
  rcases Nat.lt_or_eq_of_le (h.2.1 b (by simp)).1 with hlt | rfl
  · exact .inr ⟨hlt, spans_cons_lt hlt bs hi⟩
  · exact .inl ⟨rfl, spans_cons_self lo bs hi⟩

theorem spans_ne_nil (lo : Nat) (bs : List Nat) (hi : Nat) : spans lo bs hi ≠ [] := by
  induction bs generalizing lo with
  | nil => simp [spans]
  | cons b bs ih =>
    unfold spans
    split
    · simp
    · exact ih lo

theorem spans_chain {lo hi : Nat} {bs : List Nat} (h : Cuts lo bs hi) : SpanChain lo (spans lo bs hi) hi := by
  induction bs generalizing lo with
  | nil => exact ⟨rfl, h.2.2, rfl⟩
  | cons b bs ih =>
    rcases spans_cons_cases h with ⟨rfl, he⟩ | ⟨hlt, he⟩ <;> rw [he]
    · exact ih h.tail
    · exact ⟨rfl, hlt, ih h.tail⟩

/-- A span lies between the ends, begins at the lower one or at a boundary, and has no boundary strictly inside. -/
theorem mem_spans {lo hi : Nat} {bs : List Nat} (h : Cuts lo bs hi) {x : Nat × Nat} (hx : x ∈ spans lo bs hi) :
    lo ≤ x.1 ∧ x.1 < x.2 ∧ x.2 ≤ hi ∧ (x.1 = lo ∨ x.1 ∈ bs) ∧ ∀ b ∈ bs, ¬(x.1 < b ∧ b < x.2) := by
  induction bs generalizing lo with
  | nil =>
    obtain rfl : x = (lo, hi) := by simpa [spans] using hx
    simp [h.2.2]
  | cons b bs ih =>
    have hbs := h.tail.2.1
    have hlo := (h.2.1 b (by simp)).1
    have later (hm : x ∈ spans b bs hi) :
        lo ≤ x.1 ∧ x.1 < x.2 ∧ x.2 ≤ hi ∧ (x.1 = lo ∨ x.1 ∈ b :: bs) ∧ ∀ c ∈ b :: bs, ¬(x.1 < c ∧ c < x.2) := by
      obtain ⟨h1, h2, h3, h4, h5⟩ := ih h.tail hm
      refine ⟨by omega, h2, h3, .inr ?_, fun c hc => ?_⟩
      · simpa using h4
      · rcases List.mem_cons.1 hc with rfl | hc
        · omega
        · exact h5 c hc
    rcases spans_cons_cases h with ⟨-, he⟩ | ⟨hlt, he⟩
    · exact later (he ▸ hx)
    · rw [he] at hx
      rcases List.mem_cons.1 hx with rfl | hm
      · refine ⟨Nat.le_refl _, hlt, (h.2.1 b (by simp)).2.le, .inl rfl, fun c hc => ?_⟩
        rcases List.mem_cons.1 hc with rfl | hc
        · omega
        · have := (hbs c hc).1
          omega
      · exact later hm

/-! ## The boundaries of a map -/

theorem mem_boundaries {lo hi b : Nat} {s : State} :
    b ∈ boundaries lo hi s ↔ (∃ f a, ap f s = some a ∧ (b = a.base ∨ b = a.base + a.size)) ∧ lo < b ∧ b < hi := by
  simp only [boundaries, mem_sortBy, List.mem_filter, List.mem_flatMap, Bool.and_eq_true, decide_eq_true_eq]
  refine and_congr_left' ⟨?_, ?_⟩
  · rintro ⟨f, -, hf⟩
    cases h : ap f s with
    | none => simp [h] at hf
    | some a => exact ⟨f, a, h, by simpa [h] using hf⟩
  · rintro ⟨f, a, h, hb⟩
    exact ⟨f, mem_allFns f, by simpa [h] using hb⟩

theorem cuts_boundaries {lo hi : Nat} (h : lo < hi) (s : State) : Cuts lo (boundaries lo hi s) hi := by
  refine ⟨sortBy_pairwise id _, fun b hb => ?_, h⟩
  have := (mem_boundaries.1 hb).2
  omega

/-- The function at an address is that of a SET aperture which holds it. -/
theorem fnAt_some {x : Nat} {s : State} {f : Fn} (h : fnAt x s = some f) :
    ∃ a, ap f s = some a ∧ a.base ≤ x ∧ x < a.base + a.size := by
  have hf := List.find?_some h
  cases ha : ap f s with
  | none => simp [ha] at hf
  | some a => exact ⟨a, rfl, by simpa [ha, Aperture.has] using hf⟩

/-! ## The pieces of a request (R3) -/

theorem lengthOk_pos {r : Request} (h : r.lengthOk = true) : 0 < r.op.len := by
  simp only [Request.lengthOk, Bool.and_eq_true, decide_eq_true_eq] at h
  omega

theorem opPart_len {o : ReqOp} {off len : Nat} (h : off + len ≤ o.len) : (opPart o off len).len = len := by
  cases o with
  | read n => rfl
  | write d =>
    simp only [ReqOp.len] at h
    simp only [opPart, ReqOp.len, slice, List.length_take, List.length_drop]
    omega

theorem opWrites_opPart (o : ReqOp) (off len : Nat) : opWrites (opPart o off len) = opWrites o := by
  cases o <;> rfl

section
variable {r : Request} {id : Nat} {s : State} (hl : r.lengthOk = true)

/-- The spans that a request is cut into. -/
def requestSpans (r : Request) (s : State) : List (Nat × Nat) :=
  spans r.addr.toNat (boundaries r.addr.toNat (r.addr.toNat + r.op.len) s) (r.addr.toNat + r.op.len)

theorem piecesOf_eq (r : Request) (id : Nat) (s : State) :
    piecesOf r id s = (requestSpans r s).map fun x => makePiece r id x s := rfl

theorem piecesOf_ne_nil (r : Request) (id : Nat) (s : State) : piecesOf r id s ≠ [] := by
  rw [piecesOf_eq, Ne, List.map_eq_nil_iff]
  exact spans_ne_nil _ _ _

theorem makePiece_op (r : Request) (id : Nat) (x : Nat × Nat) (s : State) :
    (makePiece r id x s).op = opPart r.op (x.1 - r.addr.toNat) (x.2 - x.1) := rfl

theorem makePiece_fn (r : Request) (id : Nat) (x : Nat × Nat) (s : State) : (makePiece r id x s).fn = fnAt x.1 s := rfl

theorem makePiece_unmapped {x : Nat × Nat} (h : fnAt x.1 s = none) : (makePiece r id x s).guarded = false := by
  simp [makePiece, h]

theorem makePiece_mapped {x : Nat × Nat} {f : Fn} {a : Aperture} (h : fnAt x.1 s = some f) (ha : ap f s = some a) :
    (makePiece r id x s).off = x.1 - a.base
      ∧ (makePiece r id x s).guarded = f.guards (x.1 - a.base) (x.2 - x.1) := by
  simp [makePiece, h, apBase, ha]

/-- The pieces of a write write, and those of a read read, for the request's initiator. -/
theorem mem_piecesOf_op {p : Piece} (hp : p ∈ piecesOf r id s) :
    opWrites p.op = opWrites r.op ∧ p.initiator = r.initiator := by
  rw [piecesOf_eq] at hp
  obtain ⟨x, -, rfl⟩ := List.mem_map.1 hp
  exact ⟨opWrites_opPart _ _ _, rfl⟩

/-- A piece of no function is not guarded. -/
theorem mem_piecesOf_unmapped {p : Piece} (hp : p ∈ piecesOf r id s) (hn : p.fn = none) : p.guarded = false := by
  rw [piecesOf_eq] at hp
  obtain ⟨x, -, rfl⟩ := List.mem_map.1 hp
  exact makePiece_unmapped hn

include hl

theorem requestSpans_chain : SpanChain r.addr.toNat (requestSpans r s) (r.addr.toNat + r.op.len) :=
  spans_chain (cuts_boundaries (Nat.lt_add_of_pos_right (lengthOk_pos hl)) s)

/-- Where a span of a request lies: no boundary of a SET aperture is strictly inside it. -/
theorem mem_requestSpans {x : Nat × Nat} (hx : x ∈ requestSpans r s) :
    r.addr.toNat ≤ x.1 ∧ x.1 < x.2 ∧ x.2 ≤ r.addr.toNat + r.op.len
      ∧ (x.1 = r.addr.toNat ∨ ∃ f a, ap f s = some a ∧ (x.1 = a.base ∨ x.1 = a.base + a.size))
      ∧ ∀ f a, ap f s = some a → ¬(x.1 < a.base ∧ a.base < x.2) ∧ ¬(x.1 < a.base + a.size ∧ a.base + a.size < x.2) := by
  obtain ⟨h1, h2, h3, h4, h5⟩ := mem_spans (cuts_boundaries (Nat.lt_add_of_pos_right (lengthOk_pos hl)) s) hx
  refine ⟨h1, h2, h3, h4.imp_right fun h => (mem_boundaries.1 h).1, fun f a ha => ⟨fun hb => ?_, fun hb => ?_⟩⟩
  · exact h5 _ (mem_boundaries.2 ⟨⟨f, a, ha, .inl rfl⟩, by omega, by omega⟩) hb
  · exact h5 _ (mem_boundaries.2 ⟨⟨f, a, ha, .inr rfl⟩, by omega, by omega⟩) hb

theorem makePiece_len {x : Nat × Nat} (hx : x ∈ requestSpans r s) : (makePiece r id x s).op.len = x.2 - x.1 := by
  obtain ⟨h1, h2, h3, -⟩ := mem_requestSpans hl hx
  exact opPart_len (by omega)

/-- A span's piece lies inside its function's aperture and outside every other one. -/
theorem span_inside_or_apart (hm : MapOk s) {x : Nat × Nat} (hx : x ∈ requestSpans r s) {f : Fn} {a : Aperture}
    (ha : ap f s = some a) :
    (fnAt x.1 s = some f → a.base ≤ x.1 ∧ x.2 ≤ a.base + a.size)
      ∧ (fnAt x.1 s ≠ some f → x.2 ≤ a.base ∨ a.base + a.size ≤ x.1) := by
  obtain ⟨-, -, -, -, hcut⟩ := mem_requestSpans hl hx
  obtain ⟨hb, he⟩ := hcut f a ha
  refine ⟨fun h => ?_, fun h => ?_⟩
  · obtain ⟨c, hc, h1, h2⟩ := fnAt_some h
    rw [ha] at hc
    cases hc
    omega
  · by_contra hn
    exact h (fnAt_inside hm ha (by omega) (by omega))

/-- The pieces follow one another without a gap (R3). -/
theorem piecesOf_chained : Chained r.addr.toNat (piecesOf r id s) (r.addr.toNat + r.op.len) := by
  have key : ∀ xs lo, (∀ x ∈ xs, x ∈ requestSpans r s) → SpanChain lo xs (r.addr.toNat + r.op.len) →
      Chained lo (xs.map fun x => makePiece r id x s) (r.addr.toNat + r.op.len) := by
    intro xs
    induction xs with
    | nil => exact fun lo _ h => h
    | cons x xs ih =>
      rintro lo hx ⟨rfl, hlt, hc⟩
      have hlen : (makePiece r id x s).op.len = x.2 - x.1 := makePiece_len hl (hx x (by simp))
      refine ⟨rfl, Nat.lt_of_lt_of_eq (Nat.sub_pos_of_lt hlt) hlen.symm, ?_⟩
      rw [hlen, show x.1 + (x.2 - x.1) = x.2 by omega]
      exact ih x.2 (fun y hy => hx y (by simp [hy])) hc
  exact key _ _ (fun _ h => h) (requestSpans_chain hl)

/-- The pieces of a write carry its bytes in order (R3). -/
theorem piecesOf_data {d : List Byte} (ho : r.op = .write d) : (piecesOf r id s).flatMap pieceData = d := by
  have hpiece (x : Nat × Nat) : pieceData (makePiece r id x s) = slice (x.1 - r.addr.toNat) (x.2 - x.1) d := by
    simp [pieceData, makePiece_op, ho, opPart]
  have key : ∀ xs lo, r.addr.toNat ≤ lo → SpanChain lo xs (r.addr.toNat + d.length) →
      (xs.map fun x => makePiece r id x s).flatMap pieceData = d.drop (lo - r.addr.toNat) := by
    intro xs
    induction xs with
    | nil =>
      rintro lo - rfl
      simp
    | cons x xs ih =>
      rintro lo hlo ⟨rfl, hlt, hc⟩
      rw [List.map_cons, List.flatMap_cons, ih x.2 (by omega) hc, hpiece, slice,
        show x.2 - r.addr.toNat = x.1 - r.addr.toNat + (x.2 - x.1) by omega, ← List.drop_drop]
      exact List.take_append_drop _ _
  have hlen : r.op.len = d.length := by rw [ho]; rfl
  have hall := key (requestSpans r s) _ (Nat.le_refl _) (hlen ▸ requestSpans_chain hl)
  rwa [Nat.sub_self, List.drop_zero] at hall

end

/-- Settles O15. -/
theorem requestsAreCutAtApertureBoundaries : Obligations.RequestsAreCutAtApertureBoundaries := by
  intro s r id hm hl
  have span : ∀ p ∈ piecesOf r id s, ∃ x ∈ requestSpans r s, p = makePiece r id x s ∧ p.addr = x.1 ∧ p.fn = fnAt x.1 s
      ∧ x.1 + p.op.len = x.2 := by
    intro p hp
    rw [piecesOf_eq] at hp
    obtain ⟨x, hx, rfl⟩ := List.mem_map.1 hp
    have h := (mem_requestSpans hl hx).2.1
    exact ⟨x, hx, rfl, rfl, rfl, by rw [makePiece_len hl hx]; omega⟩
  refine ⟨piecesOf_chained hl, fun p hp f a ha => ?_, fun p hp hn => mem_piecesOf_unmapped hp hn, fun p hp f hf => ?_,
    fun p hp => ?_, fun d ho => piecesOf_data hl ho, fun p hp => mem_piecesOf_op hp⟩
  · obtain ⟨x, hx, he, haddr, hfn, hlen⟩ := span p hp
    obtain ⟨hin, hout⟩ := span_inside_or_apart hl hm hx ha
    rw [haddr, hfn, hlen]
    refine ⟨fun h => ?_, hout⟩
    obtain ⟨hoff, hg⟩ := makePiece_mapped (r := r) (id := id) h ha
    exact ⟨(hin h).1, (hin h).2, he ▸ hoff, by rw [he, hoff, hg, makePiece_len hl hx]⟩
  · obtain ⟨x, -, -, -, hfn, -⟩ := span p hp
    obtain ⟨a, ha, -⟩ := fnAt_some (hfn ▸ hf)
    simp [ha]
  · obtain ⟨x, hx, -, haddr, -⟩ := span p hp
    rw [haddr]
    exact (mem_requestSpans hl hx).2.2.2.1

end Sys2Proof.Machine
end

section
/-! The acceptance of upstream requests (R1, R15): when the port can accept, the order of the held requests, and reads. -/

namespace Sys2Proof.Machine

open Sys2Proof.Safety

/-! ## What acceptance leaves of the port and the map -/

@[simp] theorem takePiece_held (p : Piece) (s : State) : (takePiece p s).port.held = s.port.held := by
  unfold takePiece
  (repeat' split) <;> simp

@[simp] theorem openRequest_held (r : Request) (id left : Nat) (s : State) :
    (openRequest r id left s).port.held = s.port.held := by
  unfold openRequest
  simp only [State.modPort_port]
  split <;> rfl

@[simp] theorem acceptRequest_held (r : Request) (s : State) : (acceptRequest r s).port.held = s.port.held := by
  unfold acceptRequest
  rw [forEach_keeps (·.port.held) takePiece takePiece_held, openRequest_held]

/-! ## Room (R1, R15) -/

theorem canAccept_iff (r : Request) (s : State) :
    canAccept r s = true ↔ s.port.linkUp = true ∧ s.ins.queue.length < 64
      ∧ s.port.inflight.length + (piecesOf r s.port.nextReq s).length ≤ 16 := by
  rw [canAccept, Bool.and_eq_true, Bool.and_eq_true, decide_eq_true_iff, decide_eq_true_iff, and_assoc]
  rfl

/-! ## The held requests, oldest first (R1) -/

theorem acceptHeld_cons {s : State} {h : Request} {rest : List Request} (hh : s.port.held = h :: rest)
    (hc : canAccept h s = true) :
    acceptHeld s = acceptHeld (acceptRequest h { s with port := { s.port with held := rest } }) := by
  simp only [acceptHeld, acceptRequest_held, hh, List.length_cons, acceptSome, hc, if_true]
  rfl

/-- A request that arrives with none held and can be accepted is accepted at once. -/
theorem exec_accept {r : Request} {s : State} (hl : r.lengthOk = true) (hi : r.inSpace = true) (hh : s.port.held = [])
    (hc : canAccept r s = true) : exec (.requestAccept r) s = .next (acceptRequest r s) := by
  have hs : ({ s with port := { s.port with held := [] } } : State) = s := by rw [← hh]
  have ha := acceptHeld_cons (s := s.modPort fun q => { q with held := q.held ++ [r] }) (h := r) (rest := [])
    (by simp [hh]) hc
  rw [exec_requestAccept hl hi, ha]
  exact congrArg _ ((congrArg (fun t => acceptHeld (acceptRequest r t)) hs).trans (acceptHeld_nil (by simp [hh])))

/-- A request that cannot be accepted is held behind the others. -/
theorem exec_hold {r h : Request} {rest : List Request} {s : State} (hl : r.lengthOk = true) (hi : r.inSpace = true)
    (hh : s.port.held ++ [r] = h :: rest) (hc : canAccept h s = false) :
    exec (.requestAccept r) s = .next { s with port := { s.port with held := s.port.held ++ [r] } } := by
  rw [exec_requestAccept hl hi]
  exact congrArg _ (acceptHeld_stuck (s := s.modPort fun q => { q with held := q.held ++ [r] }) hh hc)

/-! ## A piece taken at acceptance (R1, R8, R10) -/

/-- A piece in flight, behind the others and with the next serial. -/
def putInFlight (p : Piece) (s : State) : State :=
  { s with port := { s.port with
    inflight := s.port.inflight ++ [{ p with serial := s.port.nextPiece }], nextPiece := s.port.nextPiece + 1 } }

theorem takePiece_read {p : Piece} (h : opWrites p.op = false) (s : State) : takePiece p s = putInFlight p s := by
  have hd : p.discarded = false := by simp [Piece.discarded, h]
  obtain ⟨n, ho⟩ : ∃ n, p.op = .read n := by
    cases ho : p.op with
    | read n => exact ⟨n, rfl⟩
    | write d => simp [ho, opWrites] at h
  simp only [takePiece, hd, Bool.false_eq_true, if_false]
  split
  · next ho' => rw [ho] at ho'; cases ho'
  · rfl

theorem takePiece_unmapped {p : Piece} (h : p.fn = none) (hg : p.guarded = false) (s : State) :
    takePiece p s = putInFlight p s := by
  obtain ⟨req, serial, fn, guarded, off, addr, initiator, op⟩ := p
  cases h
  cases hg
  rfl

theorem takePiece_guarded {p : Piece} {f : Fn} (h : p.fn = some f) (hg : p.guarded = true) (hw : opWrites p.op = true)
    (s : State) : takePiece p s = tallyGuard f p.initiator p.off s := by
  simp [takePiece, Piece.discarded, hg, hw, h]

theorem takePiece_observed {p : Piece} {f : Fn} {d : List Byte} (h : p.fn = some f) (hg : p.guarded = false)
    (ho : p.op = .write d) (s : State) : takePiece p s = handWrite f p.off p.initiator d (putInFlight p s) := by
  obtain ⟨req, serial, fn, guarded, off, addr, initiator, op⟩ := p
  cases h
  cases hg
  cases ho
  rfl

/-! ## An accepted read (R1, R3) -/

/-- The pieces of a read join the in-flight list in address order with rising serials. -/
theorem forEach_takePiece_reads {ps : List Piece} (h : ∀ p ∈ ps, opWrites p.op = false) (s : State) :
    forEach ps takePiece s = { s with port := { s.port with
      inflight := s.port.inflight ++ numbered s.port.nextPiece ps
      nextPiece := s.port.nextPiece + ps.length } } := by
  induction ps generalizing s with
  | nil => simp [numbered]
  | cons p ps ih =>
    rw [forEach_cons, ih (fun q hq => h q (by simp [hq])), takePiece_read (h p (by simp))]
    simp [putInFlight, numbered, Nat.add_comm, Nat.add_left_comm]

theorem acceptRequest_read {r : Request} {n : Nat} (ho : r.op = .read n) (s : State) :
    acceptRequest r s = { s with port := { s.port with
      inflight := s.port.inflight ++ numbered s.port.nextPiece (piecesOf r s.port.nextReq s)
      nextPiece := s.port.nextPiece + (piecesOf r s.port.nextReq s).length
      nextReq := s.port.nextReq + 1
      opens := s.port.opens ++ [⟨s.port.nextReq, r.initiator, true, (piecesOf r s.port.nextReq s).length, []⟩] } } := by
  have hw : ∀ p ∈ piecesOf r s.port.nextReq s, opWrites p.op = false := fun p hp => by
    rw [(mem_piecesOf_op hp).1, ho]; rfl
  have hall : (piecesOf r s.port.nextReq s).filter (fun p => !p.discarded) = piecesOf r s.port.nextReq s :=
    List.filter_eq_self.2 fun p hp => by simp [Piece.discarded, hw p hp]
  have hne : (piecesOf r s.port.nextReq s).length ≠ 0 := by simpa using piecesOf_ne_nil r s.port.nextReq s
  simp only [acceptRequest, hall, forEach_takePiece_reads hw, openRequest, hne, if_false, State.modPort, ho, opWrites,
    Bool.not_false]

/-- Settles O16. -/
theorem readRequestsEnterTheInFlightList : Obligations.ReadRequestsEnterTheInFlightList := by
  refine ⟨fun s r n ho hl hi hh => ?_, fun s r h rest hl hi hh hc => ?_, fun s r => canAccept_iff r s, fun s hs => ?_,
    fun s h rest hh hc => acceptHeld_cons hh hc⟩
  · split
    · next hc => rw [exec_accept hl hi hh hc, acceptRequest_read ho]
    · next hc =>
      rw [exec_hold (h := r) (rest := []) hl hi (by rw [hh]; rfl) (by simpa using hc), hh]
      rfl
  · exact exec_hold (h := h) (rest := rest ++ [r]) hl hi (by rw [hh]; rfl) hc
  · cases hh : s.port.held with
    | nil => exact acceptHeld_nil hh
    | cons h rest => exact acceptHeld_stuck hh (hs h rest hh)

end Sys2Proof.Machine
end

section
/-! Accepted writes: guarded pieces, pieces in flight and observed, and the command shadow (R1, R3, R8 to R10, R174). -/

namespace Sys2Proof.Machine

open Sys2Proof.Safety

/-! ## A write inside one aperture (R3) -/

/-- A write that lies inside one SET aperture is one piece. -/
theorem piecesOf_inside {s : State} {r : Request} {d : List Byte} {f : Fn} {a : Aperture} (hm : MapOk s)
    (hl : r.lengthOk = true) (ho : r.op = .write d) (ha : ap f s = some a) (hlo : a.base ≤ r.addr.toNat)
    (hhi : r.addr.toNat + d.length ≤ a.base + a.size) (id : Nat) :
    piecesOf r id s = [⟨id, 0, some f, f.guards (r.addr.toNat - a.base) d.length, r.addr.toNat - a.base, r.addr.toNat,
      r.initiator, .write d⟩] := by
  have hlen : r.op.len = d.length := by rw [ho]; rfl
  have hpos : 0 < d.length := hlen ▸ lengthOk_pos hl
  have hfn : fnAt r.addr.toNat s = some f := fnAt_inside hm ha hlo (by omega)
  have hbs := boundaries_inside (lo := r.addr.toNat) (hi := r.addr.toNat + d.length) hm ha hlo hhi
  have hd : slice 0 d.length d = d := List.take_length
  simp only [piecesOf, ho, ReqOp.len, hbs, spans, List.map_cons, List.map_nil, makePiece, hfn, apBase, ha, Option.map_some,
    Option.getD_some, Nat.add_sub_cancel_left, Nat.sub_self, opPart, hd]

/-! ## What a notice leaves of the control block (R178) -/

/-- A raised notice touches the notices' counts, their list and ATTN alone. -/
@[simp] theorem raise_ctl_frame (k : NoticeKind) (j : Nat) (d : List Item) (s : State) :
    (raise k j d s).ctl.cfgsel = s.ctl.cfgsel ∧ (raise k j d s).ctl.loader = s.ctl.loader ∧
    (raise k j d s).ctl.cmdBase = s.ctl.cmdBase ∧ (raise k j d s).ctl.controlInit = s.ctl.controlInit ∧
    (raise k j d s).ctl.clears = s.ctl.clears ∧ (raise k j d s).ctl.shadow = s.ctl.shadow ∧
    (raise k j d s).ctl.marks = s.ctl.marks ∧ (raise k j d s).ctl.queue = s.ctl.queue ∧
    (raise k j d s).ctl.mode = s.ctl.mode ∧ (raise k j d s).ctl.mask = s.ctl.mask ∧
    (raise k j d s).ctl.released = s.ctl.released := by
  simp only [raise, raiseAt]
  (repeat' split) <;> simp [Control.lose, Control.noteWritten, Control.settleAttn]

/-! ## The command shadow (R174) -/

/-- The command queue and the marks replaced. -/
def withCommands (q : List Command) (m : Table Bool 16) (s : State) : State :=
  { s with ctl := { s.ctl with queue := q, marks := m } }

/-- A raised notice does not look at the command queue and the marks. -/
theorem raise_withCommands (k : NoticeKind) (j : Nat) (d : List Item) (q : List Command) (m : Table Bool 16) (s : State) :
    raise k j d (withCommands q m s) = withCommands q m (raise k j d s) := by
  unfold raise raiseAt
  change (match ap .notices s with | none => _ | some a => _) = withCommands q m (match ap .notices s with | none => _ | some a => _)
  cases ap .notices s with
  | none => rfl
  | some a =>
    dsimp only
    by_cases h : noticeSlots a.size ≤ s.ctl.written - s.ctl.released
    · refine (if_pos h).trans ?_
      rw [if_pos h]
      rfl
    · refine (if_neg h).trans ?_
      rw [if_neg h]
      rfl

/-- The code that a shadow holds for slot `n`, the first byte of its go word. -/
def codeIn (sh : Table Byte 1024) (n : Fin 16) : Nat := (sh.items.getD (goAt n) 0).toNat

/-- The slots of `l` whose commands arrive: a code other than 0 and a clear mark. -/
def cameOf (sh : Table Byte 1024) (m : Table Bool 16) (l : List (Fin 16)) : List (Fin 16) :=
  l.filter fun n => decide (codeIn sh n ≠ 0) && !m.get n

/-- The slots of `l` whose commands are ignored: a code other than 0 and a set mark. -/
def ignoredOf (sh : Table Byte 1024) (m : Table Bool 16) (l : List (Fin 16)) : List (Fin 16) :=
  l.filter fun n => decide (codeIn sh n ≠ 0) && m.get n

/-- The command of slot `n` with its own copy of the slot. -/
def commandOf (sh : Table Byte 1024) (n : Fin 16) : Command := ⟨n, slice (64 * n.val) 64 sh.items⟩

theorem slotArrival_empty {n : Fin 16} {s : State} (h : codeIn s.ctl.shadow n = 0) : slotArrival n s = s := if_pos h

theorem slotArrival_ignored {n : Fin 16} {s : State} (h : codeIn s.ctl.shadow n ≠ 0) (hm : s.ctl.marks.get n = true) :
    slotArrival n s = raise .commandIgnored n.val [b1 (codeIn s.ctl.shadow n)] s :=
  (if_neg h).trans (if_pos hm)

theorem slotArrival_came {n : Fin 16} {s : State} (h : codeIn s.ctl.shadow n ≠ 0) (hm : s.ctl.marks.get n = false) :
    slotArrival n s
      = withCommands (s.ctl.queue ++ [commandOf s.ctl.shadow n]) (s.ctl.marks.set n true) s :=
  (if_neg h).trans (if_neg (by simp [hm]))

/-- The marks after the arrivals of `came`. -/
def marksWith (m : Table Bool 16) (came : List (Fin 16)) : Table Bool 16 :=
  Table.ofFn fun n => m.get n || decide (n ∈ came)

theorem marksWith_nil (m : Table Bool 16) : marksWith m [] = m := by
  simp [marksWith]

theorem marksWith_cons (m : Table Bool 16) (n : Fin 16) (came : List (Fin 16)) :
    marksWith (m.set n true) came = marksWith m (n :: came) := by
  apply Table.ext_get
  intro i
  by_cases h : n = i
  · subst h; simp [marksWith]
  · simp [marksWith, h, Ne.symm h]

/-- The slots of one piece, taken in address order: the commands that arrive join the queue and set their marks, and the
ignored ones raise COMMAND_IGNORED (R174; log 49). -/
theorem forEach_slotArrival {l : List (Fin 16)} (hl : l.Nodup) (s : State) :
    forEach l slotArrival s
      = (ignoredOf s.ctl.shadow s.ctl.marks l).foldl
          (fun t n => raise .commandIgnored n.val [b1 (codeIn s.ctl.shadow n)] t)
          (withCommands (s.ctl.queue ++ (cameOf s.ctl.shadow s.ctl.marks l).map (commandOf s.ctl.shadow))
            (marksWith s.ctl.marks (cameOf s.ctl.shadow s.ctl.marks l)) s) := by
  induction l generalizing s with
  | nil =>
    simp only [forEach_nil, ignoredOf, cameOf, List.filter_nil, List.foldl_nil, List.map_nil, List.append_nil, marksWith_nil]
    rfl
  | cons n l ih =>
    rw [List.nodup_cons] at hl
    obtain ⟨hn, hl⟩ := hl
    rw [forEach_cons]
    by_cases hc : codeIn s.ctl.shadow n = 0
    · rw [slotArrival_empty hc, ih hl]
      simp [ignoredOf, cameOf, hc]
    cases hm : s.ctl.marks.get n with
    | true =>
      rw [slotArrival_ignored hc hm, ih hl]
      simp only [raise_ctl_frame, ← raise_withCommands]
      simp [ignoredOf, cameOf, hc, hm]
    | false =>
      have hne : ∀ i ∈ l, (s.ctl.marks.set n true).get i = s.ctl.marks.get i := fun i hi =>
        Table.get_set_ne _ _ fun e => hn (e ▸ hi)
      have hi : ignoredOf s.ctl.shadow (s.ctl.marks.set n true) l = ignoredOf s.ctl.shadow s.ctl.marks (n :: l) := by
        rw [ignoredOf, ignoredOf, List.filter_cons_of_neg (by simp [hm])]
        exact List.filter_congr fun i hi => by rw [hne i hi]
      have hg : cameOf s.ctl.shadow s.ctl.marks (n :: l) = n :: cameOf s.ctl.shadow (s.ctl.marks.set n true) l := by
        rw [cameOf, cameOf, List.filter_cons_of_pos (by simp [hm, hc])]
        exact congrArg _ (List.filter_congr fun i hi => by rw [hne i hi])
      rw [slotArrival_came hc hm, ih hl]
      simp only [withCommands, hi, hg, marksWith_cons, List.map_cons, List.append_assoc, List.singleton_append]

/-! ## Bytes put into the shadow -/

theorem putShadow_items {off : Nat} {bs : List Byte} (t : Table Byte 1024) (h : off + bs.length ≤ 1024) :
    (putShadow off bs t).items = t.items.take off ++ bs ++ t.items.drop (off + bs.length) := by
  unfold putShadow
  rw [dif_pos h]

/-- Every byte of the shadow after bytes were put in. -/
theorem putShadow_getD {off : Nat} {bs : List Byte} (t : Table Byte 1024) (h : off + bs.length ≤ 1024) (j : Nat) :
    (putShadow off bs t).items.getD j 0
      = if off ≤ j ∧ j < off + bs.length then bs.getD (j - off) 0 else t.items.getD j 0 := by
  have ht := t.size_eq
  rw [putShadow_items t h]
  simp only [List.getD_eq_getElem?_getD, List.getElem?_append, List.length_append, List.length_take,
    Nat.min_eq_left (show off ≤ t.items.length by omega), List.getElem?_drop]
  by_cases h1 : j < off
  · rw [if_pos (by omega), if_pos h1, if_neg (by omega), List.getElem?_take_of_lt h1]
  · by_cases h2 : j < off + bs.length
    · rw [if_pos h2, if_neg h1, if_pos (by omega)]
    · rw [if_neg h2, if_neg (by omega), show off + bs.length + (j - (off + bs.length)) = j by omega]

/-- Two shadows with the same bytes are the same. -/
theorem shadow_ext {t u : Table Byte 1024} (h : ∀ j, j < 1024 → t.items.getD j 0 = u.items.getD j 0) : t = u := by
  apply Table.ext_items
  apply List.ext_getElem (by rw [t.size_eq, u.size_eq])
  intro j h1 h2
  have := h j (by rw [← t.size_eq]; exact h1)
  rwa [List.getD_eq_getElem _ _ h1, List.getD_eq_getElem _ _ h2] at this

/-- The go words that a piece covers. -/
def coveredBy (lo len : Nat) : List (Fin 16) :=
  (List.finRange 16).filter fun n => decide (lo ≤ goAt n) && decide (goAt n < lo + len)

theorem coveredBy_nodup (lo len : Nat) : (coveredBy lo len).Nodup := (List.nodup_finRange 16).filter _

theorem takeCommands_eq {off : Nat} (h1 : 64 ≤ off) (h2 : off < 1088) (b : List Byte) (s : State) :
    takeCommands off b s = forEach (coveredBy (off - 64) (slotBytes off b).length) slotArrival
      (s.modCtl fun c => { c with shadow := putShadow (off - 64) (slotBytes off b) c.shadow }) := by
  unfold takeCommands
  rw [if_neg (by omega)]
  rfl

/-- A piece beyond the slots changes nothing (R10). -/
theorem takeCommands_beyond {off : Nat} (h : 1088 ≤ off) (b : List Byte) (s : State) : takeCommands off b s = s :=
  if_pos (.inr h)

/-- A piece of COMMANDS handed to the shadow, written out with the shadow `sh` it leaves (R10, R174; log 49). -/
theorem takeCommands_shadow {off : Nat} (h1 : 64 ≤ off) (b : List Byte) {s : State} {sh : Table Byte 1024}
    (hsh : ∀ j, j < 1024 → sh.items.getD j 0 =
      if off - 64 ≤ j ∧ j < off - 64 + (slotBytes off b).length then (slotBytes off b).getD (j - (off - 64)) 0
      else s.ctl.shadow.items.getD j 0) :
    takeCommands off b s
      = (ignoredOf sh s.ctl.marks (coveredBy (off - 64) (slotBytes off b).length)).foldl
          (fun t n => raise .commandIgnored n.val [b1 (codeIn sh n)] t)
          { s with ctl := { s.ctl with
            shadow := sh
            queue := s.ctl.queue
              ++ (cameOf sh s.ctl.marks (coveredBy (off - 64) (slotBytes off b).length)).map (commandOf sh)
            marks := marksWith s.ctl.marks (cameOf sh s.ctl.marks (coveredBy (off - 64) (slotBytes off b).length)) } } := by
  by_cases h2 : off < 1088
  · have hlen : off - 64 + (slotBytes off b).length ≤ 1024 := by
      simp only [slotBytes, List.length_take]
      omega
    obtain rfl : sh = putShadow (off - 64) (slotBytes off b) s.ctl.shadow :=
      shadow_ext fun j hj => by rw [hsh j hj, putShadow_getD _ hlen]
    rw [takeCommands_eq h1 h2, forEach_slotArrival (coveredBy_nodup _ _)]
    rfl
  · have hb : slotBytes off b = [] := by
      rw [slotBytes, Nat.sub_eq_zero_of_le (by omega), List.take_zero]
    obtain rfl : sh = s.ctl.shadow := shadow_ext fun j hj => by
      rw [hsh j hj, hb, if_neg (by simp only [List.length_nil]; omega)]
    have hc : coveredBy (off - 64) (slotBytes off b).length = [] := by
      rw [hb, coveredBy, List.filter_eq_nil_iff]
      intro n _
      simp only [List.length_nil, Bool.and_eq_true, decide_eq_true_eq]
      omega
    rw [takeCommands_beyond (by omega), hc]
    simp only [ignoredOf, cameOf, List.filter_nil, List.foldl_nil, List.map_nil, List.append_nil, marksWith_nil]

/-! ## The write of one slot (R174) -/

/-- The go word that a write of the 64 bytes of slot `n` covers. -/
theorem coveredBy_slot (n : Fin 16) : coveredBy (64 * n.val) 64 = [n] := by
  have h : coveredBy (64 * n.val) 64 = (List.finRange 16).filter (· == n) := by
    refine List.filter_congr fun m _ => ?_
    rw [← Bool.decide_and, Bool.beq_eq_decide_eq]
    refine decide_eq_decide.2 ?_
    rw [Fin.ext_iff, goAt]
    omega
  rw [h, List.filter_beq, List.count_eq_one_of_mem (List.nodup_finRange 16) (List.mem_finRange n), List.replicate_one]

/-- The 64 bytes of one slot put into the shadow stand there. -/
theorem slice_putShadow {n : Fin 16} {d : List Byte} (hd : d.length = 64) (t : Table Byte 1024) :
    slice (64 * n.val) 64 (putShadow (64 * n.val) d t).items = d := by
  have ht := t.size_eq
  have hn := n.isLt
  rw [putShadow_items t (by omega), slice, List.append_assoc, List.drop_append_of_le_length (by simp; omega),
    List.drop_of_length_le (by simp), List.nil_append, ← hd, List.take_left]

/-- A write of one slot with a code other than 0 and a clear mark: its command joins the queue, its mark is set. -/
theorem takeCommands_slot {n : Fin 16} {d : List Byte} {s : State} (hd : d.length = 64) (hc : d.getD 56 0 ≠ 0)
    (hm : s.ctl.marks.get n = false) :
    takeCommands (64 + 64 * n.val) d s = { s with ctl := { s.ctl with
      shadow := putShadow (64 * n.val) d s.ctl.shadow
      queue := s.ctl.queue ++ [⟨n, d⟩]
      marks := s.ctl.marks.set n true } } := by
  have hn := n.isLt
  have hoff : 64 + 64 * n.val - 64 = 64 * n.val := by omega
  have hb : slotBytes (64 + 64 * n.val) d = d := List.take_of_length_le (by omega)
  have hcode : codeIn (putShadow (64 * n.val) d s.ctl.shadow) n ≠ 0 := by
    rw [codeIn, goAt, putShadow_getD _ (by omega), if_pos (by omega), Nat.add_sub_cancel_left]
    exact fun h => hc (BitVec.eq_of_toNat_eq h)
  have hmarks : marksWith s.ctl.marks [n] = s.ctl.marks.set n true := by
    rw [← marksWith_cons, marksWith_nil]
  rw [takeCommands_shadow (by omega) d (sh := putShadow (64 * n.val) d s.ctl.shadow)
    (fun j _ => by rw [hoff, hb, putShadow_getD _ (by omega)]), hoff, hb, hd, coveredBy_slot]
  simp [ignoredOf, cameOf, hcode, hm, hmarks, commandOf, slice_putShadow hd]

/-! ## The pieces of an accepted write, one after another (R1, R8 to R10) -/

/-- The state after the first `i` pieces of a request have been taken. -/
def afterPieces (r : Request) (s : State) (i : Nat) : State :=
  forEach ((piecesOf r s.port.nextReq s).take i) takePiece
    (openRequest r s.port.nextReq ((piecesOf r s.port.nextReq s).filter fun p => !p.discarded).length s)

theorem acceptRequest_eq_afterPieces (r : Request) (s : State) :
    acceptRequest r s = afterPieces r s (piecesOf r s.port.nextReq s).length := by
  rw [afterPieces, List.take_length]
  rfl

theorem afterPieces_succ {r : Request} {s : State} {i : Nat} {p : Piece}
    (h : (piecesOf r s.port.nextReq s)[i]? = some p) : afterPieces r s (i + 1) = takePiece p (afterPieces r s i) := by
  rw [afterPieces, List.take_add_one, h, Option.toList_some]
  exact List.foldl_append

@[simp] theorem takePiece_map (p : Piece) (s : State) : (takePiece p s).aps.map = s.aps.map := by
  unfold takePiece
  (repeat' split) <;> simp [tallyGuard]

@[simp] theorem acceptRequest_map (r : Request) (s : State) : (acceptRequest r s).aps.map = s.aps.map := by
  unfold acceptRequest
  rw [forEach_keeps (·.aps.map) takePiece takePiece_map]
  simp

theorem afterPieces_map (r : Request) (s : State) (i : Nat) : (afterPieces r s i).aps.map = s.aps.map := by
  unfold afterPieces
  rw [forEach_keeps (·.aps.map) takePiece takePiece_map]
  simp

/-- Of a write, the guarded pieces are those discarded (R8). -/
theorem filter_discarded {r : Request} {s : State} {d : List Byte} (ho : r.op = .write d) (id : Nat) :
    (piecesOf r id s).filter (fun p => !p.discarded) = (piecesOf r id s).filter fun p => !p.guarded := by
  refine List.filter_congr fun p hp => ?_
  have hw : opWrites p.op = true := by rw [(mem_piecesOf_op hp).1, ho]; rfl
  simp [Piece.discarded, hw]

/-- A write is open for the pieces of it that are kept, or answered at once (R1). -/
theorem openRequest_write {r : Request} {d : List Byte} (ho : r.op = .write d) (left : Nat) (s : State) :
    openRequest r s.port.nextReq left s = { s with port := { s.port with
      nextReq := s.port.nextReq + 1
      opens := if left = 0 then s.port.opens else s.port.opens ++ [⟨s.port.nextReq, r.initiator, false, left, []⟩]
      answers := if left = 0 then s.port.answers ++ [⟨s.port.nextReq, r.initiator, false, []⟩]
        else s.port.answers } } := by
  simp only [openRequest, State.modPort, ho, opWrites]
  split <;> rfl

/-! ## A write handed to NOTICES (R10, R179) -/

/-- A write of NOTICES releases up to the count it carries, or does nothing. -/
theorem handWrite_notices (off : Nat) (i : Fin 16) (b : List Byte) (s : State) :
    handWrite .notices off i b s =
      if off = 8 ∧ b.length = 8 ∧ i = s.ctl.controlInit ∧ s.ctl.mode = .write ∧ s.ctl.released ≤ ofLe b
        ∧ ofLe b ≤ s.ctl.written then
        { s with ctl := { s.ctl with
          released := ofLe b, unreleased := s.ctl.unreleased.drop (ofLe b - s.ctl.released)
          attn := (s.ctl.unreleased.drop (ofLe b - s.ctl.released)).any fun x => s.ctl.mask.getLsbD x.num } }
      else s := by
  unfold handWrite releaseWord
  by_cases h1 : off = 8 ∧ b.length = 8 ∧ i = s.ctl.controlInit ∧ s.ctl.mode = .write
  · obtain ⟨ho, hb, hi, hm⟩ := h1
    by_cases h2 : s.ctl.released ≤ ofLe b ∧ ofLe b ≤ s.ctl.written
    · rw [if_pos ⟨ho, hb, hi, hm⟩, if_pos h2, if_pos ⟨ho, hb, hi, hm, h2⟩]
      rfl
    · rw [if_pos ⟨ho, hb, hi, hm⟩, if_neg h2, if_neg fun h => h2 h.2.2.2.2]
  · rw [if_neg h1, if_neg fun h => h1 ⟨h.1, h.2.1, h.2.2.1, h.2.2.2.1⟩]

/-! ## The slots of one piece in the terms of the part's offsets -/

/-- The slots with a code other than 0 whose go words a piece of COMMANDS at offset `off` covers. -/
theorem coveredBy_filter {off : Nat} (h1 : 64 ≤ off) (b : List Byte) (code : Fin 16 → Nat) :
    (coveredBy (off - 64) (slotBytes off b).length).filter (fun n => decide (code n ≠ 0))
      = (List.finRange 16).filter fun n =>
          decide (off ≤ 120 + 64 * n.val ∧ 120 + 64 * n.val < off + b.length ∧ code n ≠ 0) := by
  rw [coveredBy, List.filter_filter]
  refine List.filter_congr fun n _ => ?_
  have hn := n.isLt
  rw [← Bool.decide_and, ← Bool.decide_and]
  refine decide_eq_decide.2 ?_
  rw [goAt, slotBytes, List.length_take]
  constructor
  · rintro ⟨h, h2, h3⟩
    exact ⟨by omega, by omega, h⟩
  · rintro ⟨h2, h3, h⟩
    exact ⟨h, by omega, by omega⟩

theorem cameOf_eq (sh : Table Byte 1024) (m : Table Bool 16) (l : List (Fin 16)) :
    cameOf sh m l = (l.filter fun n => decide (codeIn sh n ≠ 0)).filter fun n => !m.get n := by
  rw [cameOf, List.filter_filter]
  exact List.filter_congr fun n _ => Bool.and_comm _ _

theorem ignoredOf_eq (sh : Table Byte 1024) (m : Table Bool 16) (l : List (Fin 16)) :
    ignoredOf sh m l = (l.filter fun n => decide (codeIn sh n ≠ 0)).filter fun n => m.get n := by
  rw [ignoredOf, List.filter_filter]
  exact List.filter_congr fun n _ => Bool.and_comm _ _

/-- Settles O17. -/
theorem guardedWritesAndCommandSlotsAreTaken : Obligations.GuardedWritesAndCommandSlotsAreTaken := by
  refine ⟨⟨?_, ?_⟩, ?_, ?_⟩
  · intro s r d f a hm hh hl hi ho ha hlo hhi hg hc
    have hp := piecesOf_inside hm hl ho ha hlo hhi s.port.nextReq
    rw [exec_accept hl hi hh hc, acceptRequest_eq_afterPieces, afterPieces, hp, hg]
    simp only [List.length_singleton, List.take_one, List.head?_cons, Option.toList_some, forEach_cons, forEach_nil]
    rw [takePiece_guarded rfl rfl rfl, openRequest_write ho]
    rfl
  · intro s r d a n hm hh ho hd ha hr hcode hmark hc
    have hn := n.isLt
    obtain ⟨-, -, -, -, hspace⟩ := hm.1 _ _ ha
    have hsize := hm.2.1 a ha
    have hobs : Observed .commands (64 + 64 * n.val) d r s := by
      refine ⟨hm, hh, ?_, ?_, ho, hc, ?_, a, ha, by omega, by omega⟩
      · simp [Request.lengthOk, ho, ReqOp.len, hd]
      · simp only [Request.inSpace, ho, ReqOp.len, hd, Config.addressSpace, decide_eq_true_eq]
        omega
      · simp [Fn.guards]
    rw [exec_observed hobs]
    exact congrArg _ (takeCommands_slot (s := inFlight .commands (64 + 64 * n.val) d r s) hd hcode hmark)
  · rintro s r d hh hl hi ho hc _ left rfl hleft
    refine ⟨afterPieces r s, ?_, ?_, ?_⟩
    · rw [exec_accept hl hi hh hc, acceptRequest_eq_afterPieces]
    · rw [hleft, ← filter_discarded ho, ← openRequest_write ho]
      rfl
    · rintro i p u hp rfl
      have hmem := List.mem_of_getElem? hp
      obtain ⟨hw, hinit⟩ := mem_piecesOf_op hmem
      rw [ho] at hw
      rw [afterPieces_succ hp]
      refine ⟨fun hn => takePiece_unmapped hn (mem_piecesOf_unmapped hmem hn) _, fun f hf => ⟨fun hg => ?_, fun hg b hb => ?_⟩⟩
      · rw [takePiece_guarded hf hg hw, hinit]
        rfl
      · rw [takePiece_observed hf hg hb, ← hinit]
        refine ⟨?_, ?_, ?_, ?_⟩
        · rintro l rfl
          rfl
        · rintro n rfl
          have hsize : apSize (.sound n) (putInFlight p (afterPieces r s i)) = apSize (.sound n) s := by
            simp only [apSize, ap, putInFlight, afterPieces_map]
          rw [← hsize]
          rfl
        · rintro rfl
          exact handWrite_notices _ _ _ _
        · rintro rfl
          rfl
  · rintro s off b _ sh code covered came ignored h1 rfl hsh hcode rfl rfl rfl
    obtain rfl : code = codeIn sh := funext hcode
    rw [takeCommands_shadow h1 b hsh, ignoredOf_eq, cameOf_eq, coveredBy_filter h1]
    rfl

end Sys2Proof.Machine
end

section
/-! SET_APERTURE and CLEAR_APERTURE (R4 to R7, R31). -/

namespace Sys2Proof.Machine

open Sys2Proof.Safety

/-! ## The function a command names (R5, R7) -/

theorem namedFn_none {v : Nat} (h : v = 0 ∨ 15 < v) : namedFn v = none := by
  unfold namedFn
  rcases h with rfl | h
  · rfl
  · rw [asFin_eq_none.2 (by omega)]

theorem namedFn_some {n : Fin 16} (h : n ≠ 0) : namedFn n.val = some (Fn.ofNum n) := by
  simp [namedFn, h]

/-- The function of a number is the one that has the number. -/
theorem ofNum_eq_iff (n : Fin 16) (f : Fn) : Fn.ofNum n = f ↔ n = f.num := by
  constructor
  · rintro rfl; simp
  · rintro rfl; simp

/-! ## Commands carried out at the head of the queue (R175) -/

theorem exec_setAperture_head {s : State} {c : Command} (h : AtHead c s) (hc : c.code = 1) :
    exec .setAperture s = .next (acceptHeld (answered c (setAperture c s).2 (setAperture c s).1)) := by
  obtain ⟨rest, hq⟩ := h
  rw [exec_setAperture, carryOut_head hq (by simp [codeIs, hc])]

theorem exec_clearAperture_head {s : State} {c : Command} (h : AtHead c s) (hc : c.code = 2) :
    exec .clearAperture s = .next (acceptHeld (answered c (clearAperture c s).2 (clearAperture c s).1)) := by
  obtain ⟨rest, hq⟩ := h
  rw [exec_clearAperture, carryOut_head hq (by simp [codeIs, hc])]

/-! ## Notices lost with their ring (R6, R7) -/

/-! ## CLEAR_APERTURE (R7) -/

section
variable {s : State} {c : Command} {n : Fin 16} (hn : n ≠ 0) (hw : c.word 0 = n.val)
include hn hw

theorem clearAperture_running (hr : (Fn.ofNum n).running s = true) : clearAperture c s = (s, .refused .active 0) := by
  simp [clearAperture, hw, namedFn_some hn, hr, refuse]

theorem clearAperture_unset (hr : (Fn.ofNum n).running s = false) (ha : ap (Fn.ofNum n) s = none) :
    clearAperture c s = (s, .done 0) := by
  simp [clearAperture, hw, namedFn_some hn, hr, ha]

theorem clearAperture_set (hr : (Fn.ofNum n).running s = false) {a : Aperture} (ha : ap (Fn.ofNum n) s = some a) :
    clearAperture c s
      = (if Fn.ofNum n = .notices then dropNotices (setEntry (Fn.ofNum n) none s) else setEntry (Fn.ofNum n) none s,
        .done 0) := by
  simp [clearAperture, hw, namedFn_some hn, hr, ha]

end

theorem setEntry_ofNum (n : Fin 16) (e : Option Aperture) (s : State) :
    setEntry (Fn.ofNum n) e s = { s with aps := { s.aps with map := s.aps.map.set n e } } := by
  rw [setEntry, Fn.num_ofNum]
  rfl

theorem clearAperture_badField {s : State} {c : Command} (h : c.word 0 = 0 ∨ 15 < c.word 0) :
    clearAperture c s = (s, .refused .badField 1) := by
  simp only [clearAperture, namedFn_none h]
  rfl

/-- Settles O42. -/
theorem clearApertureUnsetsOrRefuses : Obligations.ClearApertureUnsetsOrRefuses := by
  intro s c hh hc
  refine ⟨fun h => ?_, fun n hn hw => ?_⟩
  · rw [exec_clearAperture_head hh hc, clearAperture_badField h]
  · rw [exec_clearAperture_head hh hc]
    congr 2
    split
    · next hr => rw [clearAperture_running hn hw hr]
    · next hr =>
      have hr : (Fn.ofNum n).running s = false := by simpa using hr
      split
      · next ha => rw [clearAperture_unset hn hw hr ha]
      · next ha =>
        obtain ⟨a, ha⟩ := Option.ne_none_iff_exists'.1 ha
        rw [clearAperture_set hn hw hr ha, setEntry_ofNum]
        by_cases h13 : n = 13
        · rw [if_pos h13, if_pos ((ofNum_eq_iff n .notices).2 h13)]
          rfl
        · rw [if_neg h13, if_neg fun h => h13 ((ofNum_eq_iff n .notices).1 h)]

/-! ## The checks of SET_APERTURE (R5, R31) -/

theorem sizeOk_iff (f : Fn) (base size : Nat) :
    sizeOk f base size = true ↔ size % 4096 = 0 ∧ f.minSize ≤ size ∧ size ≤ 2 ^ 36 ∧ base + size ≤ 2 ^ 40 := by
  simp only [sizeOk, Bool.and_eq_true, decide_eq_true_eq, and_assoc]

/-- A PICTURE aperture must hold the slot region of a present geometry (R31). -/
theorem geometryOk_iff (f : Fn) (size : Nat) (s : State) :
    geometryOk f size s = true
      ↔ ∀ l g, f = .picture l → (s.lanes.get l).geom = some g → g.slots * g.width * g.lines * 2 ≤ size := by
  cases f with
  | picture i =>
    simp only [geometryOk, Option.all_eq_true, decide_eq_true_eq, Fn.picture.injEq]
    constructor
    · rintro h l g rfl hg
      exact h g hg
    · exact fun h g hg => h i g rfl hg
  | _ => simp [geometryOk]

theorem meets_iff (a : Aperture) (base size : Nat) :
    a.meets base size = true ↔ base < a.base + a.size ∧ a.base < base + size := by
  simp [Aperture.meets]

/-- The range of a function meets the SET entry of another. -/
def MeetsEntry (f : Fn) (base size : Nat) (s : State) (g : Fn) : Prop :=
  g ≠ f ∧ ∃ a, ap g s = some a ∧ base < a.base + a.size ∧ a.base < base + size

theorem meetsEntry_iff (f : Fn) (base size : Nat) (s : State) (g : Fn) :
    (decide (g ≠ f) && (ap g s).any fun a => a.meets base size) = true ↔ MeetsEntry f base size s g := by
  cases h : ap g s with
  | none => simp [MeetsEntry, h]
  | some a =>
    simp only [MeetsEntry, h, Option.any_some, Bool.and_eq_true, decide_eq_true_eq, meets_iff, Option.some.injEq]
    refine and_congr_right' ⟨fun hm => ⟨a, rfl, hm⟩, ?_⟩
    rintro ⟨_, rfl, hm⟩
    exact hm

theorem overlapping_none {f : Fn} {base size : Nat} {s : State} (h : ∀ g, ¬MeetsEntry f base size s g) :
    overlapping f base size s = none := by
  rw [overlapping, List.find?_eq_none]
  exact fun g _ hg => h g ((meetsEntry_iff f base size s g).1 hg)

/-- The lowest-numbered function whose entry the range meets is the one named (R5). -/
theorem overlapping_some {f g : Fn} {base size : Nat} {s : State} (h : MeetsEntry f base size s g)
    (hlow : ∀ k : Fn, k.num < g.num → ¬MeetsEntry f base size s k) : overlapping f base size s = some g := by
  rw [overlapping, allFns, List.find?_map, find?_finRange (k := g.num), Option.map_some, Fn.ofNum_num]
  · simpa using (meetsEntry_iff f base size s g).2 h
  · intro j hj
    have hj' := hlow (Fn.ofNum j) (by simpa using hj)
    exact Bool.eq_false_iff.2 fun hm => hj' ((meetsEntry_iff f base size s _).1 hm)

/-- A range that meets no other SET entry is apart from all of them. -/
theorem overlapping_none_iff {f : Fn} {base size : Nat} {s : State} :
    overlapping f base size s = none ↔ ∀ g, ¬MeetsEntry f base size s g := by
  refine ⟨fun h g hg => ?_, overlapping_none⟩
  rw [overlapping, List.find?_eq_none] at h
  exact h g (mem_allFns g) ((meetsEntry_iff f base size s g).2 hg)

section
variable {s : State} {c : Command} {n : Fin 16} (hn : n ≠ 0) (hw : c.word 0 = n.val)
include hn hw

theorem setAperture_named : setAperture c s = setApertureOf (Fn.ofNum n) (c.field 8 8) (c.field 16 8) s := by
  simp [setAperture, hw, namedFn_some hn]

end

section
variable {f : Fn} {base size : Nat} {s : State}

theorem setApertureOf_unaligned (h : base % 4096 ≠ 0) : setApertureOf f base size s = (s, .refused .badField 2) :=
  if_pos h

theorem setApertureOf_badSize (h : base % 4096 = 0) (hs : ¬(sizeOk f base size = true ∧ geometryOk f size s = true)) :
    setApertureOf f base size s = (s, .refused .badField 3) := by
  cases h1 : sizeOk f base size with
  | false => simp [setApertureOf, refuse, h, h1]
  | true =>
    have h2 : geometryOk f size s = false := by simpa [h1] using hs
    simp [setApertureOf, refuse, h, h1, h2]

variable (h : base % 4096 = 0) (h1 : sizeOk f base size = true) (h2 : geometryOk f size s = true)
include h h1 h2

theorem setApertureOf_running (h3 : f.running s = true) : setApertureOf f base size s = (s, .refused .active 0) := by
  simp [setApertureOf, h, h1, h2, h3, refuse]

theorem setApertureOf_overlap (h3 : f.running s = false) {g : Fn} (h4 : overlapping f base size s = some g) :
    setApertureOf f base size s = (s, .refused .overlap g.num.val) := by
  simp [setApertureOf, h, h1, h2, h3, h4, refuse]

theorem setApertureOf_done (h3 : f.running s = false) (h4 : overlapping f base size s = none) :
    setApertureOf f base size s = (restartOwner f base (setEntry f (some ⟨base, size⟩) (leaveRange f s)), .done 0) := by
  simp [setApertureOf, h, h1, h2, h3, h4]

end

/-! ## The old range and the restart (R6) -/

theorem ownerOf_none {f : Fn} (h : f.num < 12) : ownerOf f = none := by
  cases f with
  | log | notices | status | monitor => exact absurd h (by decide)
  | _ => rfl

theorem ownerOf_control {f : Fn} (h : 12 ≤ f.num) (h' : f.num < 15) : ownerOf f = some 0 := by
  rw [← Fn.ofNum_num f]
  revert h h'
  generalize f.num = n
  revert n
  decide

theorem leaveRange_stays {f : Fn} {s : State} (h : f.num < 12 ∨ ap f s = none) : leaveRange f s = s := by
  unfold leaveRange
  rcases h with h | h
  · rw [ownerOf_none h]
  · rw [h]
    cases ownerOf f <;> rfl

theorem leaveRange_leaves {f : Fn} {s : State} {a : Aperture} {b : Fin 6} (ho : ownerOf f = some b) (ha : ap f s = some a) :
    leaveRange f s = { s with ins := { s.ins with holds := s.ins.holds.modify b fun h => h.filter fun e => !e.aimedAt a } } := by
  unfold leaveRange
  rw [ho, ha]
  rfl

theorem leaveRange_eq (f : Fn) (s : State) : leaveRange f s = { s with ins := (leaveRange f s).ins } := by
  unfold leaveRange
  cases ownerOf f <;> cases ap f s <;> rfl

/-- An entry that is dropped at a move is a write into the old range (R6; log 42). -/
theorem not_aimedAt (a : Aperture) (e : InsEntry) : (!e.aimedAt a) =
    match e.op with
    | .write x _ => decide (x < a.base) || decide (a.base + a.size ≤ x)
    | .read _ _ => true := by
  unfold InsEntry.aimedAt Aperture.has
  cases e.op with
  | read x t => rfl
  | write x d => simp only [Bool.not_and, ← decide_not, Nat.not_le, Nat.not_lt]

/-- The entry of function `n` SET anew, its owner's writes into the old range dropped (R5, R6). -/
def movedTo (n : Fin 16) (base size : Nat) (s : State) : State :=
  setEntry (Fn.ofNum n) (some ⟨base, size⟩) (leaveRange (Fn.ofNum n) s)

theorem movedTo_eq (n : Fin 16) (base size : Nat) (s : State) :
    movedTo n base size s = { s with
      aps := { s.aps with map := s.aps.map.set n (some ⟨base, size⟩) }, ins := (movedTo n base size s).ins } := by
  rw [movedTo, setEntry_ofNum, leaveRange_eq]

theorem movedTo_ins (n : Fin 16) (base size : Nat) (s : State) :
    (movedTo n base size s).ins = (leaveRange (Fn.ofNum n) s).ins := by
  simp [movedTo]

theorem movedTo_ctl (n : Fin 16) (base size : Nat) (s : State) : (movedTo n base size s).ctl = s.ctl := by
  simp [movedTo]

theorem movedTo_log (n : Fin 16) (base size : Nat) (s : State) : (movedTo n base size s).log = s.log := by
  simp [movedTo]

theorem movedTo_stays {n : Fin 16} {s : State} (h : n < 12 ∨ ap (Fn.ofNum n) s = none) (base size : Nat) :
    (movedTo n base size s).ins = s.ins := by
  rw [movedTo_ins, leaveRange_stays (by simpa using h)]

theorem movedTo_leaves {n : Fin 16} {s : State} {a : Aperture} {b : Fin 6} (ha : ap (Fn.ofNum n) s = some a)
    (hb : (12 ≤ n ∧ n < 15 ∧ b = 0) ∨ (n = 15 ∧ b = 4)) (base size : Nat) :
    (movedTo n base size s).ins = { s.ins with holds := s.ins.holds.modify b fun h => h.filter fun e =>
      match e.op with
      | .write x _ => decide (x < a.base) || decide (a.base + a.size ≤ x)
      | .read _ _ => true } := by
  have ho : ownerOf (Fn.ofNum n) = some b := by
    rcases hb with ⟨h1, h2, rfl⟩ | ⟨rfl, rfl⟩
    · exact ownerOf_control (by simpa using h1) (by simpa using h2)
    · rfl
  rw [movedTo_ins, leaveRange_leaves ho ha, funext (not_aimedAt a)]

/-- What the owner does in the new range: only LOG, NOTICES and MONITOR have anything to restart (R6). -/
theorem restartOwner_none {f : Fn} (h : f.num < 12 ∨ f.num = 14) (base : Nat) (s : State) : restartOwner f base s = s := by
  cases f with
  | log | notices | monitor => exact absurd h (by decide)
  | _ => rfl

/-- A sized range is one that passes check 3 of R5 with the geometry of R31. -/
theorem sized_iff (f : Fn) (base size : Nat) (s : State) :
    (sizeOk f base size = true ∧ geometryOk f size s = true)
      ↔ size % 4096 = 0 ∧ f.minSize ≤ size ∧ size ≤ 2 ^ 36 ∧ base + size ≤ 2 ^ 40
        ∧ ∀ l g, f = .picture l → (s.lanes.get l).geom = some g → g.slots * g.width * g.lines * 2 ≤ size := by
  rw [sizeOk_iff, geometryOk_iff]
  simp only [and_assoc]

/-- Settles O41. -/
theorem setApertureSetsOrRefuses : Obligations.SetApertureSetsOrRefuses := by
  intro s c hh hc
  refine ⟨fun h => ?_, ?_⟩
  · rw [exec_setAperture_head hh hc]
    simp only [setAperture, namedFn_none h]
    rfl
  rintro n hn hw f base size sized meets rfl rfl rfl hsized hmeets
  rw [← sized_iff] at hsized
  have hmeets : ∀ g, meets g ↔ MeetsEntry (Fn.ofNum n) (c.field 8 8) (c.field 16 8) s g := hmeets
  rw [exec_setAperture_head hh hc, setAperture_named hn hw]
  refine ⟨fun h => ?_, fun h hs => ?_, fun h hs hr => ?_, fun h hs hr => ⟨fun g hg hlow => ?_, fun hno => ?_⟩⟩
  · rw [setApertureOf_unaligned h]
  · rw [setApertureOf_badSize h fun hb => hs (hsized.2 hb)]
  · rw [setApertureOf_running h (hsized.1 hs).1 (hsized.1 hs).2 hr]
  · rw [setApertureOf_overlap h (hsized.1 hs).1 (hsized.1 hs).2 hr
      (overlapping_some ((hmeets g).1 hg) fun k hk => (hmeets k).not.1 (hlow k hk))]
  · rw [setApertureOf_done h (hsized.1 hs).1 (hsized.1 hs).2 hr (overlapping_none fun g => (hmeets g).not.1 (hno g))]
    refine ⟨movedTo n _ _ s, _, rfl, movedTo_eq n _ _ s, fun hst => movedTo_stays hst _ _,
      fun a b ha hb => movedTo_leaves ha hb _ _, fun h => ?_, ?_, ?_, ?_⟩
    · exact restartOwner_none (by simpa using h) _ _
    · rintro rfl
      rfl
    · rintro rfl
      rw [← movedTo_ctl 13 (c.field 8 8) (c.field 16 8) s]
      rfl
    · rintro rfl
      rw [← movedTo_log 12 (c.field 8 8) (c.field 16 8) s]
      rfl

end Sys2Proof.Machine
end

section
/-! What the blocks' work leaves of the control block: notices and entries for the insert queue are all that it adds
(R12, R178). -/

namespace Sys2Proof.Machine

/-- From `s` to `t` the control block has at most raised notices and taken entries into its hold (R12, R178): the notices'
counts, their list and ATTN have changed, the unreleased list and the hold have only grown, and all else of it stands;
nothing has joined the insert queue. -/
def Grown (s t : State) : Prop :=
  (∃ w l n u a, t.ctl = { s.ctl with
      written := w, lostBefore := l, lostTotal := n, unreleased := s.ctl.unreleased ++ u, attn := a })
    ∧ s.ins.holds.get 0 <+: t.ins.holds.get 0 ∧ t.ins.queue = s.ins.queue

/-! ## What follows from it -/

section
variable {s t : State} (h : Grown s t)
include h

theorem Grown.loader : t.ctl.loader = s.ctl.loader := by
  obtain ⟨⟨_, _, _, _, _, h⟩, -⟩ := h
  rw [h]

theorem Grown.cmdBase : t.ctl.cmdBase = s.ctl.cmdBase := by
  obtain ⟨⟨_, _, _, _, _, h⟩, -⟩ := h
  rw [h]

theorem Grown.queue : t.ctl.queue = s.ctl.queue := by
  obtain ⟨⟨_, _, _, _, _, h⟩, -⟩ := h
  rw [h]

theorem Grown.marks : t.ctl.marks = s.ctl.marks := by
  obtain ⟨⟨_, _, _, _, _, h⟩, -⟩ := h
  rw [h]

theorem Grown.unreleased : ∃ u, t.ctl.unreleased = s.ctl.unreleased ++ u := by
  obtain ⟨⟨_, _, _, u, _, h⟩, -⟩ := h
  exact ⟨u, by rw [h]⟩

theorem Grown.hold : ∃ es, t.ins.holds.get 0 = s.ins.holds.get 0 ++ es := by
  obtain ⟨-, ⟨es, h⟩, -⟩ := h
  exact ⟨es, h.symm⟩

theorem Grown.insQueue : t.ins.queue = s.ins.queue := by
  obtain ⟨-, -, h⟩ := h
  exact h

end

@[simp] theorem Grown.refl (s : State) : Grown s s :=
  ⟨⟨_, _, _, [], _, by rw [List.append_nil]⟩, List.prefix_refl _, rfl⟩

theorem Grown.trans {s t u : State} (h : Grown s t) (h' : Grown t u) : Grown s u := by
  obtain ⟨⟨_, _, _, x, _, hc⟩, hp, hq⟩ := h
  obtain ⟨⟨_, _, _, y, _, hc'⟩, hp', hq'⟩ := h'
  exact ⟨⟨_, _, _, x ++ y, _, by rw [hc', hc, ← List.append_assoc]⟩, hp.trans hp', hq'.trans hq⟩

variable {s₀ s : State}

/-! ## Changes of the other blocks -/

@[simp] theorem modPort_grown (f : Port → Port) : Grown s₀ (s.modPort f) ↔ Grown s₀ s := Iff.rfl
@[simp] theorem modAps_grown (f : Apertures → Apertures) : Grown s₀ (s.modAps f) ↔ Grown s₀ s := Iff.rfl
@[simp] theorem modClock_grown (f : Clock → Clock) : Grown s₀ (s.modClock f) ↔ Grown s₀ s := Iff.rfl
@[simp] theorem modLane_grown (l : Fin 4) (f : Lane → Lane) : Grown s₀ (s.modLane l f) ↔ Grown s₀ s := Iff.rfl
@[simp] theorem modLanes_grown (f : Lane → Lane) : Grown s₀ (s.modLanes f) ↔ Grown s₀ s := Iff.rfl
@[simp] theorem modSel_grown (f : Selector → Selector) : Grown s₀ (s.modSel f) ↔ Grown s₀ s := Iff.rfl
@[simp] theorem modSnd_grown (f : Sound → Sound) : Grown s₀ (s.modSnd f) ↔ Grown s₀ s := Iff.rfl
@[simp] theorem modInput_grown (i : Fin 4) (f : SoundInput → SoundInput) : Grown s₀ (s.modInput i f) ↔ Grown s₀ s :=
  Iff.rfl
@[simp] theorem modBus_grown (b : Fin 8) (f : Bus → Bus) : Grown s₀ (s.modBus b f) ↔ Grown s₀ s := Iff.rfl
@[simp] theorem modPath_grown (p : Fin 2) (f : HomePath → HomePath) : Grown s₀ (s.modPath p f) ↔ Grown s₀ s := Iff.rfl
@[simp] theorem modHome_grown (f : Home → Home) : Grown s₀ (s.modHome f) ↔ Grown s₀ s := Iff.rfl
@[simp] theorem modStore_grown (f : Store → Store) : Grown s₀ (s.modStore f) ↔ Grown s₀ s := Iff.rfl
@[simp] theorem modPin_grown (p : Fin 12) (f : Pin → Pin) : Grown s₀ (s.modPin p f) ↔ Grown s₀ s := Iff.rfl
@[simp] theorem modPins_grown (f : Pin → Pin) : Grown s₀ (s.modPins f) ↔ Grown s₀ s := Iff.rfl
@[simp] theorem modLog_grown (f : ClipLog → ClipLog) : Grown s₀ (s.modLog f) ↔ Grown s₀ s := Iff.rfl
@[simp] theorem modRec_grown (i : Fin 256) (f : Clip → Clip) : Grown s₀ (s.modRec i f) ↔ Grown s₀ s := Iff.rfl
@[simp] theorem modCues_grown (f : List Cue → List Cue) : Grown s₀ (s.modCues f) ↔ Grown s₀ s := Iff.rfl
@[simp] theorem modXfer_grown (f : Transfer → Transfer) : Grown s₀ (s.modXfer f) ↔ Grown s₀ s := Iff.rfl
@[simp] theorem setLevels_grown (b : BitVec 12) : Grown s₀ (s.setLevels b) ↔ Grown s₀ s := Iff.rfl

/-! ## Entries, notices, repetition (R12, R178) -/

@[simp] theorem pushAll_grown (b : Fin 6) (es : List InsEntry) (h : Grown s₀ s) : Grown s₀ (pushAll b es s) := by
  refine h.trans ⟨(Grown.refl s).1, ?_, rfl⟩
  rw [pushAll_holds]
  split
  · exact List.prefix_append _ _
  · exact List.prefix_refl _

@[simp] theorem push_grown (b : Fin 6) (e : InsEntry) (h : Grown s₀ s) : Grown s₀ (push b e s) :=
  pushAll_grown b [e] h

/-- Another block's hold may be emptied. -/
@[simp] theorem dropHold_grown {b : Fin 6} (hb : b ≠ 0) (h : Grown s₀ s) : Grown s₀ (dropHold b s) := by
  refine h.trans ⟨(Grown.refl s).1, ?_, rfl⟩
  simp [dropHold, hb]

@[simp] theorem raiseAt_grown (n : W32) (tc : Nat) (k : NoticeKind) (j : Nat) (d : List Item) (h : Grown s₀ s) :
    Grown s₀ (raiseAt n tc k j d s) := by
  rcases raiseAt_cases n tc k j d s with ⟨he, -⟩ | ⟨a, es, -, -, -, he⟩
  · rw [he]
    exact h.trans ⟨⟨_, _, _, [], _, by rw [List.append_nil]; rfl⟩, List.prefix_refl _, rfl⟩
  · rw [he]
    exact (pushAll_grown byControl es h).trans ⟨⟨_, _, _, [k], _, rfl⟩, List.prefix_refl _, rfl⟩

@[simp] theorem raise_grown (k : NoticeKind) (j : Nat) (d : List Item) (h : Grown s₀ s) : Grown s₀ (raise k j d s) :=
  raiseAt_grown _ _ k j d h

@[simp] theorem forEach_grown {α : Type} {f : α → State → State} (hf : ∀ i t, Grown t (f i t)) (l : List α)
    (h : Grown s₀ s) : Grown s₀ (forEach l f s) :=
  forEach_inv h fun i _ t ht => ht.trans (hf i t)


/-! ## The clip log (R137) -/

@[simp] theorem writeRecord_grown (i : Fin 256) (h : Grown s₀ s) : Grown s₀ (writeRecord i s) := by
  simp only [writeRecord]
  (repeat' split) <;> simp [h]

@[simp] theorem mirror_grown (i : Fin 256) (h : Grown s₀ s) : Grown s₀ (mirror i s) := by
  simp [mirror, h]

@[simp] theorem changeRec_grown (i : Fin 256) (f : Clip → Clip) (h : Grown s₀ s) : Grown s₀ (changeRec i f s) := by
  simp [changeRec, h]

/-! ## The home paths (R100 to R112) -/

@[simp] theorem ringHeaderWrite_grown (p : Fin 2) (v : Nat) (e : JoinEffect) (h : Grown s₀ s) :
    Grown s₀ (ringHeaderWrite p v e s) := by
  simp [ringHeaderWrite, h]

@[simp] theorem padWrite_grown (p : Fin 2) (e : Nat) (h : Grown s₀ s) : Grown s₀ (padWrite p e s) := by
  simp [padWrite, h]

@[simp] theorem padStep_grown (p : Fin 2) (f : Fit) (h : Grown s₀ s) : Grown s₀ (padStep p f s) := by
  cases f <;> simp [padStep, h]

@[simp] theorem dataStep_grown (p : Fin 2) (u : MUnit) (n : Nat) (h : Grown s₀ s) : Grown s₀ (dataStep p u n s) := by
  simp [dataStep, h]

@[simp] theorem publishStep_grown (p : Fin 2) (h : Grown s₀ s) : Grown s₀ (publishStep p s) := by
  simp [publishStep, h]

@[simp] theorem pressureTest_grown (p : Fin 2) (k : UnitKind) (h : Grown s₀ s) : Grown s₀ (pressureTest p k s) := by
  simp only [pressureTest]
  (repeat' split) <;> simp [h]

@[simp] theorem place_grown (p : Fin 2) (u : MUnit) (n : Nat) (h : Grown s₀ s) : Grown s₀ (place p u n s) :=
  pressureTest_grown _ _ (publishStep_grown _ (dataStep_grown _ _ _ (padStep_grown _ _ h)))

@[simp] theorem offerLive_grown (src : Fin 5) (u : MUnit) (p : Fin 2) (h : Grown s₀ s) :
    Grown s₀ (offerLive src u p s) := by
  simp only [offerLive]
  (repeat' split) <;> simp [h]

@[simp] theorem offerTag_grown (u : MUnit) (p : Fin 2) (h : Grown s₀ s) : Grown s₀ (offerTag u p s) := by
  simp only [offerTag]
  (repeat' split) <;> simp [h]

@[simp] theorem offerReplay_grown (p : Fin 2) (u : MUnit) (h : Grown s₀ s) : Grown s₀ (offerReplay p u s) := by
  simp only [offerReplay]
  (repeat' split) <;> simp [h]

@[simp] theorem raiseResume_grown (p : Fin 2) (r : Nat) (h : Grown s₀ s) : Grown s₀ (raiseResume p r s) := by
  simp only [raiseResume]
  (repeat' split) <;> simp [h]

@[simp] theorem stallTick_grown (p : Fin 2) (h : Grown s₀ s) : Grown s₀ (stallTick p s) := by
  simp only [stallTick]
  (repeat' split) <;> simp [h]

@[simp] theorem offerToRoute_grown {f : Fin 2 → State → State} (hf : ∀ p t, Grown t (f p t)) (h : Grown s₀ s) :
    Grown s₀ (offerToRoute f s) :=
  forEach_grown hf _ h

/-! ## Clips and the store (R117 to R125) -/

@[simp] theorem loseClip_grown (i : Fin 256) (h : Grown s₀ s) : Grown s₀ (loseClip i s) := by
  simp only [loseClip]
  (repeat' split) <;> simp [h]

@[simp] theorem loseUpTo_grown (q : W32) (h : Grown s₀ s) : Grown s₀ (loseUpTo q s) := by
  simp [loseUpTo, h]

@[simp] theorem makeLogOnly_grown (i : Fin 256) (h : Grown s₀ s) : Grown s₀ (makeLogOnly i s) := by
  simp [makeLogOnly, h]

@[simp] theorem pendingToLogOnly_grown (p : Clip → Bool) (h : Grown s₀ s) : Grown s₀ (pendingToLogOnly p s) := by
  simp [pendingToLogOnly, h]

@[simp] theorem loseAll_grown (h : Grown s₀ s) : Grown s₀ (loseAll s) :=
  pendingToLogOnly_grown _ (forEach_grown (fun _ _ => loseClip_grown _ (Grown.refl _)) _ h)

@[simp] theorem resolveEnd_grown (i : Fin 256) (h : Grown s₀ s) : Grown s₀ (resolveEnd i s) := by
  simp [resolveEnd, h]

@[simp] theorem resolveAtFrameStart_grown (l : Fin 4) (n : W32) (h : Grown s₀ s) :
    Grown s₀ (resolveAtFrameStart l n s) :=
  forEach_grown (fun i t => by split <;> simp) _ h

@[simp] theorem stopRecording_grown (l : Fin 4) (h : Grown s₀ s) : Grown s₀ (stopRecording l s) :=
  pendingToLogOnly_grown _ (forEach_grown (fun _ _ => resolveEnd_grown _ (Grown.refl _)) _ h)

@[simp] theorem resolveOpen_grown (i : Fin 256) (h : Grown s₀ s) : Grown s₀ (resolveOpen i s) := by
  simp only [resolveOpen]
  (repeat' split) <;> simp [h]

@[simp] theorem resolveFirst_grown (l : Fin 4) (e : IndexEntry) (b : List IndexEntry) (h : Grown s₀ s) :
    Grown s₀ (resolveFirst l e b s) := by
  simp [resolveFirst, h]

@[simp] theorem storeHeaderWrite_grown (h : Grown s₀ s) : Grown s₀ (storeHeaderWrite s) := by
  simp [storeHeaderWrite, h]

@[simp] theorem markGaps_grown (src : Option (Fin 4)) (n : W32) (h : Grown s₀ s) : Grown s₀ (markGaps src n s) := by
  simp [markGaps, h]

@[simp] theorem refuseOffer_grown (src : Option (Fin 4)) (n : W32) (i : Fin 256) (h : Grown s₀ s) :
    Grown s₀ (refuseOffer src n i s) := by
  simp only [refuseOffer]
  (repeat' split) <;> simp [h]

@[simp] theorem unitLeaves_grown (u : StoredUnit) (h : Grown s₀ s) : Grown s₀ (unitLeaves u s) := by
  simp [unitLeaves, h]

@[simp] theorem storePadStep_grown (e : Nat) (h : Grown s₀ s) : Grown s₀ (storePadStep e s) := by
  simp only [storePadStep]
  (repeat' split) <;> simp [h]

@[simp] theorem storeDataStep_grown (src : Option (Fin 4)) (n : W32) (u : MUnit) (h : Grown s₀ s) :
    Grown s₀ (storeDataStep src n u s) := by
  simp [storeDataStep, h]

@[simp] theorem indexStep_grown (l : Fin 4) (n q : W32) (c : Nat) (h : Grown s₀ s) :
    Grown s₀ (indexStep l n q c s) := by
  simp only [indexStep]
  (repeat' split) <;> simp [h]

@[simp] theorem tallyRows_grown (l : Fin 4) (n : W32) (h : Grown s₀ s) : Grown s₀ (tallyRows l n s) := by
  simp [tallyRows, h]

/-- What a stored unit makes leave is overwritten first, and the cells before its first one (R120, R121). -/
@[simp] theorem storeUnit_grown (src : Option (Fin 4)) (n : W32) (u : MUnit) (a b : List Retained) (h : Grown s₀ s) :
    Grown s₀ (storeUnit src n u a b s) := by
  have hleave (t : State) (ht : Grown s₀ t) (us : List StoredUnit) : Grown s₀ (forEach us unitLeaves t) :=
    forEach_grown (fun _ _ => unitLeaves_grown _ (Grown.refl _)) us ht
  cases src with
  | none => exact storeHeaderWrite_grown (storeDataStep_grown _ _ _ (storePadStep_grown _ (hleave _ (by simpa) _)))
  | some l =>
    exact storeHeaderWrite_grown (tallyRows_grown _ _ (indexStep_grown _ _ _ _
      (storeDataStep_grown _ _ _ (storePadStep_grown _ (hleave _ (by simpa) _)))))

@[simp] theorem resumeStore_grown (h : Grown s₀ s) : Grown s₀ (resumeStore s) := by
  simp only [resumeStore]
  (repeat' split) <;> simp [h]

@[simp] theorem offerStore_grown (src : Option (Fin 4)) (n : W32) (u : MUnit) (h : Grown s₀ s) :
    Grown s₀ (offerStore src n u s) := by
  simp only [offerStore]
  (repeat' split) <;> simp [h]

@[simp] theorem storeFrameStart_grown (l : Fin 4) (n : W32) (h : Grown s₀ s) : Grown s₀ (storeFrameStart l n s) := by
  simp [storeFrameStart, h]

@[simp] theorem markReadable_grown (q : W32) (h : Grown s₀ s) : Grown s₀ (markReadable q s) := by
  simp [markReadable, h]

/-! ## Marks and labels (R138 to R148) -/

@[simp] theorem sendTag_grown (i : Fin 256) (e : TagEvent) (h : Grown s₀ s) : Grown s₀ (sendTag i e s) :=
  offerToRoute_grown (fun _ _ => offerTag_grown _ _ (Grown.refl _)) h

@[simp] theorem closeClip_grown (i : Fin 256) (n : W32) (tc : Nat) (o : Origin) (h : Grown s₀ s) :
    Grown s₀ (closeClip i n tc o s) := by
  simp only [closeClip]
  exact mirror_grown _ (sendTag_grown _ _ (raise_grown _ _ _ ((modLog_grown _).2 ((modRec_grown _ _).2 h))))

/-- The state in which a mark-in has closed the source's open clip (R140): one frame early, or empty. -/
def closedForMarkIn (src : Fin 4) (f : W32) (tc : Nat) (o : Origin) (s : State) : State :=
  match openClip src s with
  | none => s
  | some i =>
    let r := s.log.recs.get i
    if earlier (f - 1) r.inFrame then closeClip i r.inFrame r.inTc o s
    else closeClip i (f - 1) (subMod tc 1 (dayFrames s)) o s

theorem closedForMarkIn_grown (src : Fin 4) (f : W32) (tc : Nat) (o : Origin) (h : Grown s₀ s) :
    Grown s₀ (closedForMarkIn src f tc o s) := by
  simp only [closedForMarkIn]
  (repeat' split) <;> simp [h]

/-- The state in which record `i` holds the clip a mark-in opens (R141, R142). -/
def openedByMarkIn (i : Fin 256) (src : Fin 4) (f : W32) (tc : Nat) (s : State) : State :=
  let rev := (s.log.recs.get i).rev
  let s2 := s.modRec i fun _ => Clip.free rev
  let num := freeNumber s2 257 s2.log.nextNum
  let s3 := s2.modRec i fun c => { c with num := num, state := .opened, source := src, inFrame := f, inTc := tc }
  (resolveOpen i (s3.modLog fun l => { l with nextNum := nextNumber num })).modLog fun l =>
    { l with opens := l.opens.set src (some num) }

theorem openedByMarkIn_grown (i : Fin 256) (src : Fin 4) (f : W32) (tc : Nat) (h : Grown s₀ s) :
    Grown s₀ (openedByMarkIn i src f tc s) := by
  simp only [openedByMarkIn, modLog_grown]
  exact resolveOpen_grown _ (by simpa)

@[simp] theorem markIn_grown (src : Fin 4) (g : W32) (c p : Nat) (o : Origin) (h : Grown s₀ s) :
    Grown s₀ (markIn src g c p o s).1 := by
  have hclosed := closedForMarkIn_grown src (g - BitVec.ofNat 32 p) (subMod c p (dayFrames s)) o h
  change Grown s₀ (match takeRecord (closedForMarkIn src (g - BitVec.ofNat 32 p) (subMod c p (dayFrames s)) o s) with
    | none => (raise .logFull 0 _ (closedForMarkIn src (g - BitVec.ofNat 32 p) (subMod c p (dayFrames s)) o s), _)
    | some i =>
      (mirror i (sendTag i .opened (raise .clipOpened _ _
        (openedByMarkIn i src (g - BitVec.ofNat 32 p) (subMod c p (dayFrames s))
          (closedForMarkIn src (g - BitVec.ofNat 32 p) (subMod c p (dayFrames s)) o s)))), _) : State × MarkOutcome).1
  split
  · exact raise_grown _ _ _ hclosed
  · exact mirror_grown _ (sendTag_grown _ _ (raise_grown _ _ _ (openedByMarkIn_grown _ _ _ _ hclosed)))

@[simp] theorem markOut_grown (src : Fin 4) (g : W32) (c : Nat) (o : Origin) (h : Grown s₀ s) :
    Grown s₀ (markOut src g c o s).1 := by
  simp only [markOut]
  (repeat' split) <;> simp [h]

@[simp] theorem addLabel_grown (i : Fin 256) (k : W16) (h : Grown s₀ s) : Grown s₀ (addLabel i k s).1 := by
  simp only [addLabel]
  (repeat' split) <;> simp [h]

@[simp] theorem markLabel_grown (src : Fin 4) (k : W16) (o : Origin) (h : Grown s₀ s) :
    Grown s₀ (markLabel src k o s).1 := by
  simp only [markLabel]
  (repeat' split) <;> simp [h]

@[simp] theorem markArrival_grown (a : MarkAction) (src : Fin 4) (k : W16) (g : W32) (c p : Nat) (o : Origin) (h : Grown s₀ s) :
    Grown s₀ (markArrival a src k g c p o s).1 := by
  simp only [markArrival]
  (repeat' split) <;> simp [h]

@[simp] theorem reportDamage_grown (l : Fin 4) (h : Grown s₀ s) : Grown s₀ (reportDamage l s) := by
  simp only [reportDamage]
  (repeat' split) <;> simp [h]

@[simp] theorem addTallies_grown (h : Grown s₀ s) : Grown s₀ (addTallies s) := by
  simp [addTallies, h]

/-! ## Transfers (R163 to R171) -/

@[simp] theorem skipUnits_grown (k : Nat) (h : Grown s₀ s) : Grown s₀ (skipUnits k s) := by
  induction k generalizing s with
  | zero => exact h
  | succ k ih =>
    simp only [skipUnits]
    split
    · exact h
    · exact ih (by simpa)

@[simp] theorem activate_grown (h : Grown s₀ s) : Grown s₀ (activate s) := by
  simp only [activate]
  (repeat' split) <;> simp [h]

@[simp] theorem complete_grown (h : Grown s₀ s) : Grown s₀ (complete s) := by
  simp only [complete]
  (repeat' split) <;> simp [h]

@[simp] theorem deal_grown (k : Nat) (h : Grown s₀ s) : Grown s₀ (deal k s) := by
  induction k generalizing s with
  | zero => exact h
  | succ k ih =>
    simp only [deal]
    split
    · exact h
    · split
      · exact ih (activate_grown (complete_grown (skipUnits_grown _ h)))
      · exact skipUnits_grown _ h

@[simp] theorem goOn_grown (h : Grown s₀ s) : Grown s₀ (goOn s) := by
  simp [goOn, h]

@[simp] theorem startHead_grown (h : Grown s₀ s) : Grown s₀ (startHead s) := by
  simp [startHead, h]

@[simp] theorem advanceCursor_grown (h : Grown s₀ s) : Grown s₀ (advanceCursor s) := by
  simp [advanceCursor, h]

@[simp] theorem toldPlaced_grown (h : Grown s₀ s) : Grown s₀ (toldPlaced s) := by
  simp [toldPlaced, h]

@[simp] theorem offerToPath_grown (p : Fin 2) (u : MUnit) (h : Grown s₀ s) : Grown s₀ (offerToPath p u s) := by
  simp only [offerToPath]
  (repeat' split) <;> simp [h]

@[simp] theorem reexamine_grown (p : Fin 2) (h : Grown s₀ s) : Grown s₀ (reexamine p s) := by
  simp only [reexamine]
  (repeat' split) <;> simp [h]

theorem letGo_grown (h : Grown s₀ s) : Grown s₀ (letGo s) := by
  simp only [letGo, modXfer_grown]
  refine dropHold_grown (by decide) ?_
  (repeat' split) <;> simp [h]

@[simp] theorem restorePrior_grown (n : Nat) (h : Grown s₀ s) : Grown s₀ (restorePrior n s) := by
  simp only [restorePrior]
  (repeat' split) <;> simp [h]

@[simp] theorem raiseEnded_grown (r : EndReason) (e : Send) (a b : Nat) (h : Grown s₀ s) :
    Grown s₀ (raiseEnded r e a b s) := by
  simp [raiseEnded, h]

@[simp] theorem endEntry_grown (r : EndReason) (l : Bool) (a b : Nat) (e : Send) (h : Grown s₀ s) :
    Grown s₀ (endEntry r l a b e s) := by
  simp only [endEntry]
  (repeat' split) <;> simp [h]

@[simp] theorem endEntries_grown (r : EndReason) (l : Bool) (w : Send → Bool) (h : Grown s₀ s) :
    Grown s₀ (endEntries r l w s) := by
  have hrest (e : Send) (es : List Send) (t : State) (ht : Grown s₀ t) :
      Grown s₀ (forEach es (endEntry r l 0 0) t) :=
    forEach_grown (fun _ _ => endEntry_grown _ _ _ _ _ (Grown.refl _)) _ ht
  cases hq : s.xfer.queue with
  | nil => simpa only [endEntries, hq]
  | cons e rest =>
    simp only [endEntries, hq]
    by_cases hw : w e = true
    · simp only [hw, if_true]
      exact startHead_grown (hrest e _ _ (endEntry_grown _ _ _ _ _ (letGo_grown h)))
    · simp only [hw, Bool.false_eq_true, if_false]
      exact hrest e _ _ h

@[simp] theorem tryTags_grown (p : Fin 2) (l : List MUnit) (h : Grown s₀ s) : Grown s₀ (tryTags p l s) := by
  induction l generalizing s with
  | nil => exact h
  | cons u l ih =>
    simp only [tryTags]
    split
    · exact ih (place_grown _ _ _ (by simpa))
    · exact h

@[simp] theorem afterConsumption_grown (p : Fin 2) (h : Grown s₀ s) : Grown s₀ (afterConsumption p s) := by
  simp only [afterConsumption]
  refine reexamine_grown _ (tryTags_grown _ _ ?_)
  split <;> simp [h]

@[simp] theorem handConsumerRead_grown (p : Fin 2) (o n : Nat) (h : Grown s₀ s) :
    Grown s₀ (handConsumerRead p o n s) := by
  simp only [handConsumerRead]
  (repeat' split) <;> simp [h]

@[simp] theorem issueReads_grown (h : Grown s₀ s) : Grown s₀ (issueReads s) := by
  simp only [issueReads]
  (repeat' split) <;> simp [h]

@[simp] theorem storeReadData_grown (t : Nat) (d : List Byte) (h : Grown s₀ s) : Grown s₀ (storeReadData t d s) := by
  simp only [storeReadData]
  (repeat' split) <;> simp [h]

/-! ## Picture (R33 to R66) -/

@[simp] theorem completeSwitch_grown (l : Fin 4) (n : W32) (h : Grown s₀ s) : Grown s₀ (completeSwitch l n s) := by
  simp only [completeSwitch]
  (repeat' split) <;> simp [h]

@[simp] theorem dropFromSelector_grown (l : Fin 4) (h : Grown s₀ s) : Grown s₀ (dropFromSelector l s) := by
  simp only [dropFromSelector]
  (repeat' split) <;> simp [h]

@[simp] theorem chargeRow_grown (l : Fin 4) (c : Nat) (h : Grown s₀ s) : Grown s₀ (chargeRow l c s) := by
  simp [chargeRow, h]

@[simp] theorem offerRow_grown (l : Fin 4) (u : MUnit) (h : Grown s₀ s) : Grown s₀ (offerRow l u s) := by
  have hroute (t : State) (ht : Grown s₀ t) :
      Grown s₀ (if t.sel.programme = some l then offerToRoute (offerLive ⟨l.val, by omega⟩ u) t else t) := by
    split
    · exact offerToRoute_grown (fun _ _ => offerLive_grown _ _ _ (Grown.refl _)) ht
    · exact ht
  refine hroute _ ?_
  split <;> simp [h]

@[simp] theorem rowComplete_grown (l : Fin 4) (j : Nat) (r : List Byte) (h : Grown s₀ s) :
    Grown s₀ (rowComplete l j r s) := by
  simp [rowComplete, h]

@[simp] theorem feedRows_grown (l : Fin 4) (k : Nat) (d : List Byte) (h : Grown s₀ s) :
    Grown s₀ (feedRows l k d s) := by
  induction k generalizing d s with
  | zero => exact h
  | succ k ih =>
    simp only [feedRows]
    split
    · split
      · simpa
      · split
        · simp [h]
        · exact ih _ (by simp [h])
    · exact h

@[simp] theorem frameStart_grown (l : Fin 4) (j o : Nat) (d : List Byte) (h : Grown s₀ s) :
    Grown s₀ (frameStart l j o d s) := by
  simp only [frameStart]
  exact feedRows_grown _ _ _ (storeFrameStart_grown _ _ (completeSwitch_grown _ _ (by simpa)))

@[simp] theorem raiseSkew_grown (l : Fin 4) (r : SkewReason) (a b c : Nat) (h : Grown s₀ s) :
    Grown s₀ (raiseSkew l r a b c s) := by
  simp [raiseSkew, h]

@[simp] theorem abandon_grown (l : Fin 4) (r : SkewReason) (a b c : Nat) (h : Grown s₀ s) :
    Grown s₀ (abandon l r a b c s) := by
  simp [abandon, h]

@[simp] theorem takePicture_grown (l : Fin 4) (o : Nat) (d : List Byte) (h : Grown s₀ s) :
    Grown s₀ (takePicture l o d s) := by
  simp only [takePicture]
  (repeat' split) <;> simp [h]

/-! ## Sound (R70 to R92) -/

@[simp] theorem takeSound_grown (i : Fin 4) (o : Nat) (d : List Byte) (h : Grown s₀ s) :
    Grown s₀ (takeSound i o d s) := by
  simp [takeSound, h]

@[simp] theorem settleInput_grown (i : Fin 4) (h : Grown s₀ s) : Grown s₀ (settleInput i s) := by
  simp only [settleInput]
  (repeat' split) <;> simp [h]

@[simp] theorem settleBus_grown (n : Nat) (b : Fin 8) (h : Grown s₀ s) : Grown s₀ (settleBus n b s) := by
  simp only [settleBus]
  (repeat' split) <;> simp [h]

@[simp] theorem monitorWrite_grown (o : List Int) (h : Grown s₀ s) : Grown s₀ (monitorWrite o s) := by
  simp only [monitorWrite]
  (repeat' split) <;> simp [h]

@[simp] theorem offerSound_grown (u : MUnit) (n : W32) (h : Grown s₀ s) : Grown s₀ (offerSound u n s) := by
  refine offerToRoute_grown (fun _ _ => offerLive_grown _ _ _ (Grown.refl _)) ?_
  split <;> simp [h]

@[simp] theorem closeUnit_grown (a : Accumulator) (r : Bool) (h : Grown s₀ s) : Grown s₀ (closeUnit a r s) := by
  simp [closeUnit, h]

@[simp] theorem accumulate_grown (n : Nat) (o : List Int) (h : Grown s₀ s) : Grown s₀ (accumulate n o s) := by
  simp only [accumulate]
  (repeat' split) <;> simp [h]

@[simp] theorem mixerTick_grown (n : Nat) (b : Bool) (h : Grown s₀ s) : Grown s₀ (mixerTick n b s) := by
  have hsettle (t : State) (ht : Grown s₀ t) :
      Grown s₀ (forEach (List.finRange 8) (settleBus n) (forEach (List.finRange 4) settleInput t)) :=
    forEach_grown (fun _ _ => settleBus_grown _ _ (Grown.refl _)) _
      (forEach_grown (fun _ _ => settleInput_grown _ (Grown.refl _)) _ ht)
  simp only [mixerTick]
  refine accumulate_grown _ _ (monitorWrite_grown _ ((modSnd_grown _).2 (hsettle _ ?_)))
  split <;> simp [h]

/-! ## Reference, pins and lines (R22 to R24, R130 to R135, R161) -/

@[simp] theorem refPulse_grown (h : Grown s₀ s) : Grown s₀ (refPulse s) := by
  simp only [refPulse]
  (repeat' split) <;> simp [h]

@[simp] theorem refLossTick_grown (h : Grown s₀ s) : Grown s₀ (refLossTick s) := by
  simp only [refLossTick]
  (repeat' split) <;> simp [h]

@[simp] theorem samplePin_grown (p : Fin 12) (h : Grown s₀ s) : Grown s₀ (samplePin p s) := by
  simp only [samplePin]
  (repeat' split) <;> simp [h]

@[simp] theorem levelWriteAt_grown (m d : BitVec 12) (p : Fin 12) (h : Grown s₀ s) :
    Grown s₀ (levelWriteAt m d p s) := by
  simp [levelWriteAt, h]

@[simp] theorem levelWrite_grown (m d : BitVec 12) (h : Grown s₀ s) : Grown s₀ (levelWrite m d s) := by
  simp [levelWrite, h]

/-! ## Cues (R154 to R158) -/

@[simp] theorem cueMark_grown (n : Nat) (a : MarkAction) (i : Fin 4) (k : W16) (h : Grown s₀ s) :
    Grown s₀ (cueMark n a i k s).1 := by
  simp [cueMark, h]

@[simp] theorem applyAct_grown (n : Nat) (a : CueAct) (h : Grown s₀ s) : Grown s₀ (applyAct n a s).1 := by
  cases a <;> simp only [applyAct] <;> (repeat' split) <;> simp [h]

theorem applySlot_grown (e : Cue) (i : Fin 4) (r : State × List Nat) : Grown r.1 (applySlot e i r).1 := by
  simp only [applySlot]
  split <;> simp

@[simp] theorem applySlots_grown (e : Cue) (h : Grown s₀ s) : Grown s₀ (applySlots e s).1 := by
  suffices ∀ (l : List (Fin 4)) (r : State × List Nat), Grown s₀ r.1 →
      Grown s₀ (l.foldl (fun r i => applySlot e i r) r).1 from this _ (s, []) h
  intro l
  induction l with
  | nil => exact fun _ hr => hr
  | cons i l ih => exact fun r hr => ih _ (hr.trans (applySlot_grown e i r))

@[simp] theorem fireHead_grown (h : Grown s₀ s) : Grown s₀ (fireHead s) := by
  simp only [fireHead]
  (repeat' split) <;> simp [h]

@[simp] theorem fireNext_grown (h : Grown s₀ s) : Grown s₀ (fireNext s) := by
  simp only [fireNext]
  (repeat' split) <;> simp [h]

@[simp] theorem fireDue_grown (k : Nat) (h : Grown s₀ s) : Grown s₀ (fireDue k s) := by
  induction k generalizing s with
  | zero => exact h
  | succ k ih =>
    simp only [fireDue]
    split
    · exact ih (fireHead_grown h)
    · exact h

@[simp] theorem rebase_grown (h : Grown s₀ s) : Grown s₀ (rebase s) := by
  simp [rebase, h]

/-! ## Ticks (R9, R16, R67, R181) -/

@[simp] theorem guardReport_grown (n : Fin 16) (h : Grown s₀ s) : Grown s₀ (guardReport n s) := by
  simp only [guardReport]
  (repeat' split) <;> simp [h]

@[simp] theorem guardTick_grown (h : Grown s₀ s) : Grown s₀ (guardTick s) := by
  simp [guardTick, h]

@[simp] theorem onAirTick_grown (h : Grown s₀ s) : Grown s₀ (onAirTick s) := by
  simp only [onAirTick]
  (repeat' split) <;> simp [h]

@[simp] theorem statusTick_grown (h : Grown s₀ s) : Grown s₀ (statusTick s) := by
  simp only [statusTick]
  (repeat' split) <;> simp [h]

@[simp] theorem runAct_grown (o : Opening) (a : TickAct) (h : Grown s₀ s) : Grown s₀ (runAct o a s) := by
  cases a <;> simp only [runAct] <;> (repeat' split) <;> simp [h]

@[simp] theorem openFrame_grown (h : Grown s₀ s) : Grown s₀ (openFrame s) := by
  simp only [openFrame]
  (repeat' split) <;> simp [h]

/-! ## Commands (R25 to R177) -/

@[simp] theorem writeLane_grown (l : Fin 4) (e : Bool) (x : LaneSettings) (h : Grown s₀ s) :
    Grown s₀ (writeLane l e x s) := by
  simp only [writeLane]
  (repeat' split) <;> simp [h]

@[simp] theorem writeBus_grown (b : Fin 8) (x y z : Bool) (h : Grown s₀ s) : Grown s₀ (writeBus b x y z s) := by
  simp only [writeBus]
  (repeat' split) <;> simp [h]

@[simp] theorem enablePath_grown (p : Fin 2) (x : PathSettings) (h : Grown s₀ s) : Grown s₀ (enablePath p x s) := by
  simp [enablePath, h]

@[simp] theorem disablePath_grown (p : Fin 2) (h : Grown s₀ s) : Grown s₀ (disablePath p s) := by
  have hp : byPath p ≠ 0 := by fin_cases p <;> decide
  exact ringHeaderWrite_grown _ _ _ (endEntries_grown _ _ _ (by simpa using dropHold_grown hp h))

@[simp] theorem writePath_grown (p : Fin 2) (e : Bool) (x : PathSettings) (h : Grown s₀ s) :
    Grown s₀ (writePath p e x s) := by
  simp only [writePath]
  (repeat' split) <;> simp [h]

@[simp] theorem enableStore_grown (h : Grown s₀ s) : Grown s₀ (enableStore s) := by
  simp [enableStore, h]

@[simp] theorem disableStore_grown (h : Grown s₀ s) : Grown s₀ (disableStore s) := by
  have hdrop : Grown s₀ (dropHold byStore s) := dropHold_grown (by decide) h
  exact storeHeaderWrite_grown (by simpa using loseAll_grown (endEntries_grown _ _ _ hdrop))

@[simp] theorem removeLabel_grown (i : Fin 256) (k : W16) (h : Grown s₀ s) : Grown s₀ (removeLabel i k s).1 := by
  simp only [removeLabel, refuse]
  (repeat' split) <;> simp [h]

@[simp] theorem freeRecord_grown (i : Fin 256) (h : Grown s₀ s) : Grown s₀ (freeRecord i s) := by
  simp only [freeRecord]
  (repeat' split) <;> simp [h]

@[simp] theorem queueSend_grown (i : Fin 256) (e : Send) (h : Grown s₀ s) : Grown s₀ (queueSend i e s) := by
  simp only [queueSend]
  (repeat' split) <;> simp [h]

@[simp] theorem abortActive_grown (e : Send) (h : Grown s₀ s) : Grown s₀ (abortActive e s) := by
  refine startHead_grown ?_
  simpa using raiseEnded_grown _ _ _ _ (restorePrior_grown _ (letGo_grown h))

@[simp] theorem abortQueued_grown (n : Nat) (h : Grown s₀ s) : Grown s₀ (abortQueued n s) := by
  simp [abortQueued, h]

@[simp] theorem setClock_grown (c : Command) (h : Grown s₀ s) : Grown s₀ (setClock c s).1 := by
  simp only [setClock, refuse]
  (repeat' split) <;> simp [h]

@[simp] theorem presetTimecode_grown (c : Command) (h : Grown s₀ s) : Grown s₀ (presetTimecode c s).1 := by
  simp only [presetTimecode, refuse]
  (repeat' split) <;> simp [h]

@[simp] theorem setPicture_grown (c : Command) (h : Grown s₀ s) : Grown s₀ (setPicture c s).1 := by
  simp only [setPicture, refuse]
  (repeat' split) <;> simp [h]

@[simp] theorem setLane_grown (c : Command) (h : Grown s₀ s) : Grown s₀ (setLane c s).1 := by
  simp only [setLane, refuse]
  (repeat' split) <;> simp [h]

@[simp] theorem setProgram_grown (c : Command) (h : Grown s₀ s) : Grown s₀ (setProgram c s).1 := by
  simp only [setProgram, refuse]
  (repeat' split) <;> simp [h]

@[simp] theorem setSound_grown (c : Command) (h : Grown s₀ s) : Grown s₀ (setSound c s).1 := by
  simp only [setSound, refuse]
  (repeat' split) <;> simp [h]

@[simp] theorem setTap_grown (c : Command) (h : Grown s₀ s) : Grown s₀ (setTap c s).1 := by
  simp only [setTap, refuse]
  (repeat' split) <;> simp [h]

@[simp] theorem setBus_grown (c : Command) (h : Grown s₀ s) : Grown s₀ (setBus c s).1 := by
  simp only [setBus, refuse]
  (repeat' split) <;> simp [h]

@[simp] theorem setPath_grown (c : Command) (h : Grown s₀ s) : Grown s₀ (setPath c s).1 := by
  simp only [setPath, refuse]
  (repeat' split) <;> simp [h]

@[simp] theorem setRoute_grown (c : Command) (h : Grown s₀ s) : Grown s₀ (setRoute c s).1 := by
  simp only [setRoute, refuse]
  (repeat' split) <;> simp [h]

@[simp] theorem setStore_grown (c : Command) (h : Grown s₀ s) : Grown s₀ (setStore c s).1 := by
  simp only [setStore, refuse]
  (repeat' split) <;> simp [h]

@[simp] theorem setPinMark_grown (p : Fin 12) (b : Bool) (c : Command) (h : Grown s₀ s) :
    Grown s₀ (setPinMark p b c s).1 := by
  simp only [setPinMark, refuse]
  (repeat' split) <;> simp [h]

@[simp] theorem setPinLine_grown (p : Fin 12) (c : Command) (h : Grown s₀ s) : Grown s₀ (setPinLine p c s).1 := by
  simp only [setPinLine, refuse]
  (repeat' split) <;> simp [h]

@[simp] theorem setPin_grown (b : BitVec 12) (c : Command) (h : Grown s₀ s) : Grown s₀ (setPin b c s).1 := by
  simp only [setPin, refuse]
  (repeat' split) <;> simp [h]

@[simp] theorem setLineLevels_grown (c : Command) (h : Grown s₀ s) : Grown s₀ (setLineLevels c s).1 := by
  simp only [setLineLevels, refuse]
  (repeat' split) <;> simp [h]

@[simp] theorem addCue_grown (c : Command) (h : Grown s₀ s) : Grown s₀ (addCue c s).1 := by
  simp only [addCue, refuse]
  (repeat' split) <;> simp [h]

@[simp] theorem removeCue_grown (n : Nat) (h : Grown s₀ s) : Grown s₀ (removeCue n s) := by
  simp [removeCue, h]

@[simp] theorem cancelCue_grown (c : Command) (h : Grown s₀ s) : Grown s₀ (cancelCue c s).1 := by
  simp only [cancelCue, refuse]
  (repeat' split) <;> simp [h]

@[simp] theorem forceCue_grown (c : Command) (h : Grown s₀ s) : Grown s₀ (forceCue c s).1 := by
  simp only [forceCue]
  split
  · exact h
  · exact raise_grown _ _ _ ((modCues_grown _).2 (applySlots_grown _ h))

@[simp] theorem clipMark_grown (c : Command) (h : Grown s₀ s) : Grown s₀ (clipMark c s).1 := by
  simp only [clipMark, refuse]
  (repeat' split) <;> simp [h]

@[simp] theorem clipLabel_grown (c : Command) (h : Grown s₀ s) : Grown s₀ (clipLabel c s).1 := by
  simp only [clipLabel, refuse]
  (repeat' split) <;> simp [h]

@[simp] theorem clipDelete_grown (c : Command) (h : Grown s₀ s) : Grown s₀ (clipDelete c s).1 := by
  simp only [clipDelete, refuse]
  (repeat' split) <;> simp [h]

@[simp] theorem sendClip_grown (c : Command) (h : Grown s₀ s) : Grown s₀ (sendClip c s).1 := by
  simp only [sendClip, refuse]
  (repeat' split) <;> simp [h]

@[simp] theorem abortSend_grown (c : Command) (h : Grown s₀ s) : Grown s₀ (abortSend c s).1 := by
  simp only [abortSend, refuse]
  (repeat' split) <;> simp [h]

end Sys2Proof.Machine
end

section
/-! The aperture map stays legal: what the steps leave of the map and of a running start-up load (R4 to R7, R172). -/

namespace Sys2Proof.Machine

open Sys2Proof.Safety

/-! ## What keeps the map legal -/

/-- What no row but the ones of the map itself changes: the map, the loader and its base, and while no aperture is SET an
empty command queue. -/
def MapKept (s t : State) : Prop :=
  t.aps.map = s.aps.map ∧ t.ctl.loader = s.ctl.loader ∧ t.ctl.cmdBase = s.ctl.cmdBase
    ∧ (s.ctl.queue = [] → (∀ f, ap f s = none) → t.ctl.queue = [])

theorem ap_of_map {s t : State} (h : t.aps.map = s.aps.map) (f : Fn) : ap f t = ap f s := by
  rw [ap, ap, h]

theorem MapKept.mapOk {s t : State} (h : MapKept s t) (hs : MapOk s) : MapOk t := by
  obtain ⟨hm, hl, hb, hq⟩ := h
  obtain ⟨hok, hcmd, hapart, hload⟩ := hs
  unfold MapOk LoadOk
  simp only [ap_of_map hm, hl, hb]
  refine ⟨hok, hcmd, hapart, fun he => ?_⟩
  obtain ⟨hnone, hnil, hbase⟩ := hload he
  exact ⟨hnone, hq hnil hnone, hbase⟩

/-- The map kept, and the control block no more than grown. -/
theorem Grown.mapKept {s t : State} (h : Grown s t) (hm : t.aps.map = s.aps.map) : MapKept s t :=
  ⟨hm, h.loader, h.cmdBase, fun hq _ => h.queue.trans hq⟩

theorem MapKept.of_ctl {s t : State} (hm : t.aps.map = s.aps.map) (hc : t.ctl = s.ctl) : MapKept s t :=
  ⟨hm, by rw [hc], by rw [hc], fun hq _ => by rw [hc, hq]⟩

/-! ## Ticks -/

theorem guardReport_map (n : Fin 16) (s : State) : (guardReport n s).aps.map = s.aps.map := by
  simp only [guardReport]
  split <;> simp

theorem runAct_map (o : Opening) (a : TickAct) (s : State) : (runAct o a s).aps.map = s.aps.map := by
  cases a with
  | guards =>
    simp only [runAct, guardTick]
    exact forEach_inv (Inv := fun t => t.aps.map = s.aps.map) rfl fun i _ t ht => (guardReport_map i t).trans ht
  | _ =>
    simp only [runAct]
    (repeat' split) <;> simp

theorem tick_mapKept (t : TickIn) (s : State) : MapKept s (tick t s) := by
  have hacts : Grown s (tick t s) ∧ (tick t s).aps.map = s.aps.map := by
    refine forEach_inv (Inv := fun u => Grown s u ∧ u.aps.map = s.aps.map) ⟨?_, by simp⟩ fun a _ u hu => ?_
    · exact openFrame_grown ((setLevels_grown _).2 (Grown.refl s))
    · exact ⟨runAct_grown _ _ hu.1, (runAct_map _ _ _).trans hu.2⟩
  exact hacts.1.mapKept hacts.2

theorem tickWhen_mapKept (b : Bool) (t : TickIn) (s : State) : MapKept s (tickWhen b t s) := by
  cases b with
  | false => exact (Grown.refl s).mapKept rfl
  | true => exact tick_mapKept t s

/-! ## Acceptance and service (R1, R8 to R11) -/

theorem slotArrival_load (n : Fin 16) (s : State) :
    (slotArrival n s).ctl.loader = s.ctl.loader ∧ (slotArrival n s).ctl.cmdBase = s.ctl.cmdBase := by
  simp only [slotArrival]
  split
  · exact ⟨rfl, rfl⟩
  · split
    · have h := raise_grown .commandIgnored n.val [b1 (s.ctl.shadow.items.getD (goAt n) 0).toNat] (Grown.refl s)
      exact ⟨h.loader, h.cmdBase⟩
    · exact ⟨rfl, rfl⟩

theorem takeCommands_load (o : Nat) (d : List Byte) (s : State) :
    (takeCommands o d s).ctl.loader = s.ctl.loader ∧ (takeCommands o d s).ctl.cmdBase = s.ctl.cmdBase := by
  simp only [takeCommands]
  split
  · exact ⟨rfl, rfl⟩
  · refine forEach_inv (Inv := fun t => t.ctl.loader = s.ctl.loader ∧ t.ctl.cmdBase = s.ctl.cmdBase) ⟨rfl, rfl⟩ ?_
    rintro n - t ⟨hl, hb⟩
    exact ⟨(slotArrival_load n t).1.trans hl, (slotArrival_load n t).2.trans hb⟩

theorem handWrite_load (f : Fn) (o : Nat) (i : Fin 16) (d : List Byte) (s : State) :
    (handWrite f o i d s).ctl.loader = s.ctl.loader ∧ (handWrite f o i d s).ctl.cmdBase = s.ctl.cmdBase := by
  have hgrown {t : State} (h : Grown s t) : t.ctl.loader = s.ctl.loader ∧ t.ctl.cmdBase = s.ctl.cmdBase :=
    ⟨h.loader, h.cmdBase⟩
  cases f with
  | picture l => exact hgrown (takePicture_grown _ _ _ (Grown.refl s))
  | sound j => exact hgrown (takeSound_grown _ _ _ (Grown.refl s))
  | commands => exact takeCommands_load o d s
  | notices =>
    simp only [handWrite, releaseWord]
    (repeat' split) <;> exact ⟨rfl, rfl⟩
  | _ => exact ⟨rfl, rfl⟩

theorem takePiece_load (p : Piece) (s : State) :
    (takePiece p s).ctl.loader = s.ctl.loader ∧ (takePiece p s).ctl.cmdBase = s.ctl.cmdBase := by
  unfold takePiece
  split
  · split <;> exact ⟨rfl, rfl⟩
  · dsimp only
    split
    · exact handWrite_load _ _ _ _ _
    · exact ⟨rfl, rfl⟩

/-- A piece of no function reaches no block. -/
theorem takePiece_unmapped_ctl {p : Piece} (h : p.fn = none) (s : State) : (takePiece p s).ctl = s.ctl := by
  unfold takePiece
  simp only [h]
  split <;> rfl

theorem acceptRequest_mapKept (r : Request) (s : State) : MapKept s (acceptRequest r s) := by
  have hopen (id left : Nat) : (openRequest r id left s).ctl = s.ctl := rfl
  have hload := forEach_inv (l := piecesOf r s.port.nextReq s) (f := takePiece)
    (Inv := fun t => t.ctl.loader = s.ctl.loader ∧ t.ctl.cmdBase = s.ctl.cmdBase)
    (s := openRequest r s.port.nextReq ((piecesOf r s.port.nextReq s).filter fun p => !p.discarded).length s)
    ⟨rfl, rfl⟩ fun p _ t ht => ⟨(takePiece_load p t).1.trans ht.1, (takePiece_load p t).2.trans ht.2⟩
  refine ⟨acceptRequest_map r s, hload.1, hload.2, fun hq hnone => ?_⟩
  refine forEach_inv (Inv := fun t => t.ctl.queue = []) hq fun p hp t ht => ?_
  rw [piecesOf_eq] at hp
  obtain ⟨x, -, rfl⟩ := List.mem_map.1 hp
  have hfn : (makePiece r s.port.nextReq x s).fn = none := by
    rw [makePiece_fn]
    cases hf : fnAt x.1 s with
    | none => rfl
    | some f =>
      obtain ⟨a, ha, -⟩ := fnAt_some hf
      simp [hnone f] at ha
  rw [takePiece_unmapped_ctl hfn]
  exact ht

theorem acceptHeld_mapOk {s : State} (h : MapOk s) : MapOk (acceptHeld s) :=
  acceptHeld_inv h fun r _ _ ht => (acceptRequest_mapKept r _).mapOk ht

theorem handRead_mapKept (f : Fn) (o n : Nat) (i : Fin 16) (s : State) : MapKept s (handRead f o n i s) := by
  cases f with
  | path p =>
    simp only [handRead]
    split
    · exact (handConsumerRead_grown _ _ _ (Grown.refl s)).mapKept (by simp)
    · exact (Grown.refl s).mapKept rfl
  | notices =>
    simp only [handRead, releaseByRead]
    (repeat' split) <;> exact ⟨rfl, rfl, rfl, fun hq _ => hq⟩
  | _ => exact (Grown.refl s).mapKept rfl

theorem settleWrites_mapOk {s : State} (h : MapOk s) : MapOk (settleWrites s) :=
  (MapKept.of_ctl rfl rfl).mapOk h

theorem serveRead_mapOk {s : State} (h : MapOk s) : MapOk (serveRead s) := by
  unfold serveRead
  split
  · split
    · exact h
    · refine settleWrites_mapOk ?_
      split
      · exact h
      · exact (handRead_mapKept _ _ _ _ _).mapOk h
  · exact h

theorem serveStoreRead_mapOk {s : State} (h : MapOk s) : MapOk (serveStoreRead s) := by
  unfold serveStoreRead
  split
  · exact settleWrites_mapOk (((storeReadData_grown _ _ (Grown.refl _)).mapKept (by simp)).mapOk h)
  · exact h

/-! ## The command queue (R175) -/

/-- While the load runs no command waits, so none is carried out (R172). -/
theorem carryOut_mapKept {p : Nat → Bool} {f : Command → State → State × Result} {s : State}
    (hm : (carryOut p f s).aps = s.aps)
    (hf : ∀ c, (f c s).1.ctl.loader = s.ctl.loader ∧ (f c s).1.ctl.cmdBase = s.ctl.cmdBase) :
    MapKept s (carryOut p f s) := by
  have hload := carryOut_keeps (p := p) (f := f) (s := s)
    (Inv := fun t => t.ctl.loader = s.ctl.loader ∧ t.ctl.cmdBase = s.ctl.cmdBase) ⟨rfl, rfl⟩ hf fun _ _ _ ht => ht
  refine ⟨by rw [hm], hload.1, hload.2, fun hq _ => ?_⟩
  rw [carryOut_other (by simp [hq])]
  exact hq

theorem carryOut_mapKept_of_grown {p : Nat → Bool} {f : Command → State → State × Result} {s : State}
    (hm : (carryOut p f s).aps = s.aps) (hf : ∀ c, Grown s (f c s).1) : MapKept s (carryOut p f s) :=
  carryOut_mapKept hm fun c => ⟨(hf c).loader, (hf c).cmdBase⟩

theorem setNotices_load (c : Command) (s : State) :
    (setNotices c s).1.ctl.loader = s.ctl.loader ∧ (setNotices c s).1.ctl.cmdBase = s.ctl.cmdBase := by
  simp only [setNotices]
  (repeat' split) <;> exact ⟨rfl, rfl⟩

theorem clearStore_grown {s₀ s : State} (h : Grown s₀ s) : Grown s₀ (clearStore s) := by
  simp only [clearStore]
  split
  · exact h
  · exact resumeStore_grown (storeHeaderWrite_grown ((modStore_grown _).2
      (loseAll_grown (dropHold_grown (by decide) h))))

theorem clearPath_grown {s₀ s : State} (p : Fin 2) (h : Grown s₀ s) : Grown s₀ (clearPath p s) := by
  have hp : byPath p ≠ 0 := by fin_cases p <;> decide
  have hring : Grown s₀ (ringHeaderWrite p 0 .nothing ((dropHold (byPath p) s).modPath p HomePath.newLife)) :=
    ringHeaderWrite_grown _ _ _ ((modPath_grown _ _).2 (dropHold_grown hp h))
  simp only [clearPath]
  (repeat' split) <;> simp [h, hring]

theorem clearMedia_load (c : Command) (s : State) :
    (clearMedia c s).1.ctl.loader = s.ctl.loader ∧ (clearMedia c s).1.ctl.cmdBase = s.ctl.cmdBase := by
  have hends : Grown s (forEach (List.finRange 2) clearPath
      (clearStore (endEntries .cleared true (fun _ => true) s))) :=
    forEach_grown (fun _ _ => clearPath_grown _ (Grown.refl _)) _
      (clearStore_grown (endEntries_grown _ _ _ (Grown.refl s)))
  have hrest (t : State) (ht : Grown s t) :
      (writeHeader ((((t.modLanes Lane.cleared).modSnd Sound.cleared).modCues fun _ => []).modCtl fun k =>
          { k with clears := k.clears + 1 })).ctl.loader = s.ctl.loader
        ∧ (writeHeader ((((t.modLanes Lane.cleared).modSnd Sound.cleared).modCues fun _ => []).modCtl fun k =>
          { k with clears := k.clears + 1 })).ctl.cmdBase = s.ctl.cmdBase := by
    simp only [writeHeader_frame]
    exact ⟨ht.loader, ht.cmdBase⟩
  exact hrest _ hends

/-! ## SET_APERTURE and CLEAR_APERTURE (R4 to R7) -/

/-- The map is legal and no load runs. -/
def MapSet (s : State) : Prop := MapOk s ∧ s.ctl.loader = .ended

theorem MapSet.of_map {s t : State} (h : MapSet s) (hm : t.aps.map = s.aps.map) (hl : t.ctl.loader = s.ctl.loader) :
    MapSet t := by
  obtain ⟨⟨hok, hcmd, hapart, -⟩, he⟩ := h
  refine ⟨⟨?_, ?_, ?_, fun hn => absurd (hl.trans he) hn⟩, hl.trans he⟩
  all_goals simp only [ap_of_map hm]
  · exact hok
  · exact hcmd
  · exact hapart

theorem setEntry_none_mapSet {s : State} (f : Fn) (h : MapSet s) : MapSet (setEntry f none s) := by
  obtain ⟨⟨hok, hcmd, hapart, -⟩, he⟩ := h
  have hkept {g : Fn} {a : Aperture} (hg : ap g (setEntry f none s) = some a) : ap g s = some a := by
    rw [ap_setEntry] at hg
    split at hg
    · cases hg
    · exact hg
  exact ⟨⟨fun g a hg => hok g a (hkept hg), fun a hg => hcmd a (hkept hg),
    fun g g' a b hg hg' => hapart g g' a b (hkept hg) (hkept hg'), fun hn => absurd he hn⟩, he⟩

/-- A range that passes the checks of R5 leaves the map legal. -/
theorem setEntry_some_mapSet {s : State} {f : Fn} {base size : Nat} (h : MapSet s) (hf : f ≠ .commands)
    (hb : base % 4096 = 0) (hs : sizeOk f base size = true) (ho : overlapping f base size s = none) :
    MapSet (setEntry f (some ⟨base, size⟩) s) := by
  obtain ⟨⟨hok, hcmd, hapart, -⟩, he⟩ := h
  have hfree {g : Fn} {b : Aperture} (hg : g ≠ f) (hb : ap g s = some b) :
      base + size ≤ b.base ∨ b.base + b.size ≤ base := by
    have := mt (fun hm => ⟨hg, b, hb, hm⟩) (overlapping_none_iff.1 ho g)
    omega
  refine ⟨⟨fun g a hg => ?_, fun a hg => ?_, fun g g' a b hg hg' hne => ?_, fun hn => absurd he hn⟩, he⟩
  · rw [ap_setEntry] at hg
    split at hg
    next heq =>
      cases hg
      subst heq
      exact ⟨hb, (sizeOk_iff f base size).1 hs⟩
    next => exact hok g a hg
  · rw [ap_setEntry, if_neg hf] at hg
    exact hcmd a hg
  · rw [ap_setEntry] at hg hg'
    split at hg
    next heq =>
      cases hg
      subst heq
      rw [if_neg hne] at hg'
      exact hfree (Ne.symm hne) hg'
    next hg0 =>
      split at hg'
      next =>
        cases hg'
        exact (hfree (Ne.symm hg0) hg).symm
      next => exact hapart g g' a b hg hg' hne

theorem namedFn_ne_commands {v : Nat} {f : Fn} (h : namedFn v = some f) : f ≠ .commands := by
  unfold namedFn at h
  split at h
  · split at h
    next => cases h
    next n _ hn =>
      rintro rfl
      exact hn ((ofNum_eq_iff n .commands).1 (Option.some.inj h))
  · cases h

theorem restartOwner_kept (f : Fn) (base : Nat) (s : State) :
    (restartOwner f base s).aps.map = s.aps.map ∧ (restartOwner f base s).ctl.loader = s.ctl.loader := by
  cases f <;> exact ⟨rfl, rfl⟩

theorem setApertureOf_mapSet {s : State} {f : Fn} (hf : f ≠ .commands) (base size : Nat) (h : MapSet s) :
    MapSet (setApertureOf f base size s).1 := by
  have hleft : MapSet (leaveRange f s) := h.of_map (by simp) (by simp)
  by_cases hb : base % 4096 = 0
  · by_cases hs : sizeOk f base size = true ∧ geometryOk f size s = true
    · cases hr : f.running s with
      | true => rw [setApertureOf_running hb hs.1 hs.2 hr]; exact h
      | false =>
        cases ho : overlapping f base size s with
        | some g => rw [setApertureOf_overlap hb hs.1 hs.2 hr ho]; exact h
        | none =>
          rw [setApertureOf_done hb hs.1 hs.2 hr ho]
          refine (setEntry_some_mapSet hleft hf hb hs.1 ?_).of_map (restartOwner_kept _ _ _).1 (restartOwner_kept _ _ _).2
          rw [← ho, leaveRange_eq]
          rfl
    · rw [setApertureOf_badSize hb hs]; exact h
  · rw [setApertureOf_unaligned hb]; exact h

theorem setAperture_mapSet {s : State} (c : Command) (h : MapSet s) : MapSet (setAperture c s).1 := by
  unfold setAperture
  split
  · exact h
  next f hf => exact setApertureOf_mapSet (namedFn_ne_commands hf) _ _ h

theorem clearAperture_mapSet {s : State} (c : Command) (h : MapSet s) : MapSet (clearAperture c s).1 := by
  simp only [clearAperture]
  split
  · exact h
  · split
    · exact h
    · split
      · exact h
      · split
        · exact (setEntry_none_mapSet _ h).of_map rfl rfl
        · exact setEntry_none_mapSet _ h

/-- A command of the map is carried out only when no load runs. -/
theorem carryOut_mapOk {p : Nat → Bool} {f : Command → State → State × Result} {s : State} (h : MapOk s)
    (hf : ∀ c, MapSet s → MapSet (f c s).1) : MapOk (carryOut p f s) := by
  by_cases he : s.ctl.loader = .ended
  · exact (carryOut_keeps (Inv := MapSet) ⟨h, he⟩ (fun c => hf c ⟨h, he⟩) fun _ _ _ ht => ht.of_map rfl rfl).1
  · obtain ⟨-, -, -, hload⟩ := id h
    rw [carryOut_other (by simp [(hload he).2.1])]
    exact h

/-! ## Resets and the start-up load (R14, R15, R172) -/

/-- While the start-up load runs: no aperture is SET, no command waits, and the base is a whole block (R172). -/
def Loading (s : State) : Prop :=
  (∀ f, ap f s = none) ∧ s.ctl.queue = [] ∧ s.ctl.cmdBase % 4096 = 0 ∧ s.ctl.cmdBase + 4096 ≤ 2 ^ 40

theorem Loading.mapOk {s : State} (h : Loading s) : MapOk s := by
  refine ⟨fun f a ha => ?_, fun a ha => ?_, fun f g a b ha => ?_, fun _ => h⟩
  all_goals
    rw [h.1] at ha
    cases ha

theorem endLoad_mapOk {s : State} (h : Loading s) (result : LoadResult) (err : Nat) (levels : BitVec 12) :
    MapOk (endLoad result err levels s) := by
  obtain ⟨hnone, -, hb, hs⟩ := h
  have hap (f : Fn) (a : Aperture) (ha : ap f (endLoad result err levels s) = some a) :
      f = .commands ∧ a = ⟨s.ctl.cmdBase, 4096⟩ := by
    have hset : ap f (endLoad result err levels s) = ap f (setEntry .commands (some ⟨s.ctl.cmdBase, 4096⟩) s) := by
      rw [endLoad_eq]
      rfl
    rw [hset, ap_setEntry, hnone] at ha
    split at ha
    next hf => exact ⟨hf.symm, (Option.some.inj ha).symm⟩
    next => cases ha
  refine ⟨fun f a ha => ?_, fun a ha => ?_, fun f g a b ha hb' hn => ?_, fun hl => absurd ?_ hl⟩
  · obtain ⟨rfl, rfl⟩ := hap f a ha
    exact ⟨hb, Nat.mod_self 4096, Nat.le_refl 4096, by simp only; omega, hs⟩
  · obtain ⟨-, rfl⟩ := hap _ a ha
    rfl
  · exact absurd ((hap f a ha).1.trans (hap g b hb').1.symm) hn
  · rw [endLoad_eq]

theorem applyEntry_loading {s : State} (h : Loading s) (tag data : Nat) : Loading (applyEntry tag data s) := by
  obtain ⟨hnone, hq, hb, hs⟩ := h
  have hctl {t : State} (hm : t.aps = s.aps) (hc : t.ctl = s.ctl) : Loading t := by
    unfold Loading
    rw [hc]
    exact ⟨fun f => (ap_of_map (by rw [hm]) f).trans (hnone f), hq, hb, hs⟩
  unfold applyEntry
  split
  · refine ⟨hnone, hq, ?_, ?_⟩ <;> simp only [State.modCtl, loadBaseLow] <;> omega
  · refine ⟨hnone, hq, ?_, ?_⟩ <;> simp only [State.modCtl, loadBaseHigh] <;> omega
  · exact hctl (by simp) (by simp)
  · exact hctl (by simp) (by simp)
  · exact ⟨hnone, hq, hb, hs⟩
  · exact hctl rfl rfl

theorem loadEntry_mapOk {s : State} (h : Loading s) (i : Nat) (last : Option Nat) (e : Option (BitVec 64))
    (levels : BitVec 12) : MapOk (loadEntry i last e levels s) := by
  have hnext (tag data : Nat) : Loading ((applyEntry tag data s).modCtl fun c =>
      { c with applied := c.applied + 1, loader := .reading (i + 1) (some tag) }) :=
    applyEntry_loading h tag data
  cases e with
  | none =>
    simp only [loadEntry]
    split <;> exact endLoad_mapOk h _ _ _
  | some e =>
    simp only [loadEntry]
    split
    · exact endLoad_mapOk h _ _ _
    · split
      · exact endLoad_mapOk h _ _ _
      · split
        · exact endLoad_mapOk h _ _ _
        · split
          · exact (hnext _ _).mapOk
          · exact endLoad_mapOk (hnext _ _) _ _ _

theorem reset_loading : Loading State.reset :=
  ⟨ap_reset, rfl, rfl, by decide⟩

theorem powerOnReset_mapOk {b : Bool} {s t : State} (ht : exec (.powerOnReset b) s = .next t) : MapOk t := by
  have hload : Loading (({ State.reset with pending := s.pending, dram := s.dram, epIn := s.epIn } : State).modCtl
      fun c => { c with cfgsel := b }) := reset_loading
  cases ht
  cases b with
  | true => exact hload.mapOk
  | false => exact endLoad_mapOk hload _ _ _

theorem linkReset_mapKept {s t : State} (ht : exec .linkReset s = .next t) : MapKept s t := by
  rw [exec_linkReset_eq] at ht
  cases ht
  rw [writeHeader_eq]
  exact ⟨rfl, rfl, rfl, fun _ _ => rfl⟩

/-! ## Every step (R4 to R7, R172) -/

theorem exec_mapOk (c : Instr) : KeptBy MapOk c := by
  intro s t hs ht
  cases c with
  | powerOnReset b => exact powerOnReset_mapOk ht
  | linkReset => exact (linkReset_mapKept ht).mapOk hs
  | configEntryRead e b =>
    cases hl : s.ctl.loader with
    | reading i last =>
      rw [exec_configEntryRead_reading e b hl] at ht
      cases ht
      obtain ⟨-, -, -, hload⟩ := hs
      exact acceptHeld_mapOk (loadEntry_mapOk (hload (by simp [hl])) _ _ _ _)
    | ended =>
      rw [exec_configEntryRead_ended e b hl] at ht
      cases ht
      exact hs
  | requestAccept r =>
    rw [exec_requestAccept_next ht]
    exact acceptHeld_mapOk (s := s.modPort _) hs
  | downstreamGrant =>
    cases ht
    exact acceptHeld_mapOk (settleWrites_mapOk ((MapKept.of_ctl (by simp) (by simp)).mapOk hs))
  | readServed => cases ht; exact serveRead_mapOk hs
  | storeReadServed => cases ht; exact serveStoreRead_mapOk hs
  | insertQueueJoin => cases ht; exact (MapKept.of_ctl (by simp) (by simp)).mapOk hs
  | transferReadIssue => cases ht; exact (MapKept.of_ctl (by simp) (by simp)).mapOk hs
  | linkUp => cases ht; exact acceptHeld_mapOk (s := s.modPort _) hs
  | refPulse => cases ht; exact ((refPulse_grown (Grown.refl s)).mapKept (by simp)).mapOk hs
  | sampleTick i => cases ht; exact (tick_mapKept i s).mapOk hs
  | frameTick | frameCountWrap | midnight | refLost | soundSilent | soundUnitClose | markConfirm | stall | cueFiring =>
    cases ht
    exact (tickWhen_mapKept _ _ s).mapOk hs
  | setAperture => cases ht; exact acceptHeld_mapOk (carryOut_mapOk hs setAperture_mapSet)
  | clearAperture => cases ht; exact acceptHeld_mapOk (carryOut_mapOk hs clearAperture_mapSet)
  | setNotices => cases ht; exact (carryOut_mapKept (by simp) fun c => setNotices_load c s).mapOk hs
  | clearMedia => cases ht; exact (carryOut_mapKept (by simp) fun c => clearMedia_load c s).mapOk hs
  | unknownCommand | setClock | presetTimecode | setPicture | setLane | setProgram | setSound | setTap | setBus | setPath
    | setRoute | setStore | setPin | setLineLevels | addCue | cancelCue | forceCue | clipMark | clipLabel | clipDelete
    | sendClip | abortSend =>
    cases ht
    exact (carryOut_mapKept_of_grown (by simp) fun c => by simp [unknownCommand, refuse]).mapOk hs

/-- Settles O6. -/
theorem mapStaysLegal : Obligations.MapStaysLegal :=
  keptByStep_of_exec (fun _ _ h => h) exec_mapOk

end Sys2Proof.Machine
end

section
/-! What every act of a frame tick leaves, and the order of the acts (R16, R17; log 4). -/

namespace Sys2Proof.Machine

open Sys2Proof.Safety

/-! ## The acts of a tick -/

/-- An act of a frame tick other than the firing of one cue stands at most once among the acts named. -/
theorem count_namedActs {a : TickAct} (ha : a ≠ .cueNext) {done order : List TickAct} (h : done.count a ≤ 1) :
    (namedActs true done order).count a ≤ 1 := by
  induction order generalizing done with
  | nil => exact h
  | cons b rest ih =>
    unfold namedActs
    split
    next hb =>
      refine ih ?_
      rw [List.count_append, List.count_singleton]
      split
      next hab =>
        have hba : b = a := by simpa using hab
        subst hba
        rcases hb with ⟨hc, -⟩ | ⟨-, hn⟩
        · exact absurd hc ha
        · rw [List.count_eq_zero_of_not_mem hn]
      next => exact h
    next => exact ih h

/-- Every act of a frame tick is taken exactly once, whatever the order (log 4). -/
theorem count_schedule {a : TickAct} (ha : a ∈ frameActs) (order : List TickAct) : (schedule true order).count a = 1 := by
  have hn : a ≠ .cueNext := by
    rintro rfl
    exact absurd ha (by decide)
  have hone : frameActs.count a = 1 := List.count_eq_one_of_mem (by decide) ha
  have hnamed : (namedActs true [] order).count a ≤ 1 := count_namedActs hn (by simp)
  unfold schedule
  rw [List.count_append]
  by_cases hm : a ∈ namedActs true [] order
  · have := List.count_pos_iff.2 hm
    rw [List.count_eq_zero_of_not_mem (l := List.filter _ _) (by simp [hm])]
    omega
  · rw [List.count_eq_zero_of_not_mem hm, List.count_filter (by simpa using hm)]
    simpa [actsOf] using hone

/-- The schedule around one of its acts. -/
theorem schedule_split {a : TickAct} (ha : a ∈ frameActs) (order : List TickAct) :
    ∃ before after, schedule true order = before ++ a :: after ∧ a ∉ before ∧ a ∉ after := by
  have hc := count_schedule ha order
  obtain ⟨l, r, he⟩ := List.append_of_mem (List.count_pos_iff.1 (hc ▸ Nat.one_pos))
  refine ⟨l, r, he, ?_⟩
  rw [he, List.count_append, List.count_cons_self] at hc
  exact ⟨List.count_eq_zero.1 (by omega), List.count_eq_zero.1 (by omega)⟩

/-- Whatever order names the guards first, or nothing, they come first. -/
theorem schedule_guards {order os : List TickAct} (h : order = [] ∨ order = .guards :: os) :
    ∃ rest, schedule true order = .guards :: rest := by
  rcases h with rfl | rfl
  · exact ⟨_, rfl⟩
  · have hkeep (done order : List TickAct) (a : TickAct) : ∃ r, namedActs true (a :: done) order = a :: r := by
      induction order generalizing done with
      | nil => exact ⟨done, rfl⟩
      | cons b rest ih =>
        unfold namedActs
        split
        · exact ih (done ++ [b])
        · exact ih done
    obtain ⟨r, hr⟩ := hkeep [] os .guards
    have hn : namedActs true [] (.guards :: os) = .guards :: r := hr
    exact ⟨_, by rw [schedule, hn]; rfl⟩

/-! ## What every act leaves -/

/-- What the acts of a frame tick leave: the count, the rate and the timecode, the lanes, the map, DRAM, the port, the
levels, the programme lane and the loader and command queue. -/
structure Ticked (s t : State) : Prop where
  frame : t.clock.frame = s.clock.frame
  rate : t.clock.rate = s.clock.rate
  pendingRate : t.clock.pendingRate = s.clock.pendingRate
  pos : t.clock.pos = s.clock.pos
  offset : t.clock.offset = s.clock.offset
  lanes : t.lanes = s.lanes
  map : t.aps.map = s.aps.map
  dram : t.dram = s.dram
  port : t.port = s.port
  epIn : t.epIn = s.epIn
  programme : t.sel.programme = s.sel.programme
  grown : Grown s t

theorem Ticked.refl (s : State) : Ticked s s :=
  ⟨rfl, rfl, rfl, rfl, rfl, rfl, rfl, rfl, rfl, rfl, rfl, Grown.refl s⟩

theorem Ticked.trans {s t u : State} (h : Ticked s t) (h' : Ticked t u) : Ticked s u :=
  ⟨h'.frame.trans h.frame, h'.rate.trans h.rate, h'.pendingRate.trans h.pendingRate, h'.pos.trans h.pos,
    h'.offset.trans h.offset, h'.lanes.trans h.lanes, h'.map.trans h.map, h'.dram.trans h.dram, h'.port.trans h.port,
    h'.epIn.trans h.epIn, h'.programme.trans h.programme, h.grown.trans h'.grown⟩

/-- Acts that leave the clock. -/
theorem Ticked.of_clock {s t : State} (hc : t.clock = s.clock) (hl : t.lanes = s.lanes) (hm : t.aps.map = s.aps.map)
    (hd : t.dram = s.dram) (hp : t.port = s.port) (he : t.epIn = s.epIn) (hs : t.sel.programme = s.sel.programme)
    (hg : Grown s t) : Ticked s t :=
  ⟨by rw [hc], by rw [hc], by rw [hc], by rw [hc], by rw [hc], hl, hm, hd, hp, he, hs, hg⟩

/-! ## The selector in the acts of a cue -/

/-- A cue's acts leave the programme lane and the on-air counters: a SWITCH only makes a lane wait (R155). -/
theorem applyAct_air (n : Nat) (a : CueAct) (s : State) :
    (applyAct n a s).1.sel.programme = s.sel.programme ∧ (applyAct n a s).1.sel.onAir = s.sel.onAir := by
  cases a with
  | switch l =>
    simp only [applyAct]
    split <;> exact ⟨rfl, rfl⟩
  | fade t g p =>
    simp only [applyAct]
    split <;> exact ⟨rfl, rfl⟩
  | _ => simp [applyAct]

theorem applySlots_air (e : Cue) (s : State) :
    (applySlots e s).1.sel.programme = s.sel.programme ∧ (applySlots e s).1.sel.onAir = s.sel.onAir := by
  suffices ∀ (l : List (Fin 4)) (r : State × List Nat),
      (l.foldl (fun r i => applySlot e i r) r).1.sel.programme = r.1.sel.programme
        ∧ (l.foldl (fun r i => applySlot e i r) r).1.sel.onAir = r.1.sel.onAir from this _ (s, [])
  intro l
  induction l with
  | nil => exact fun _ => ⟨rfl, rfl⟩
  | cons i l ih =>
    intro r
    have hslot : (applySlot e i r).1.sel = (applyAct e.id (e.acts.get i) r.1).1.sel := by
      simp only [applySlot]
      split <;> simp
    have ha := applyAct_air e.id (e.acts.get i) r.1
    have hi := ih (applySlot e i r)
    rw [hslot, ha.1, ha.2] at hi
    exact hi

theorem fireHead_air (s : State) :
    (fireHead s).sel.programme = s.sel.programme ∧ (fireHead s).sel.onAir = s.sel.onAir := by
  simp only [fireHead]
  split
  · exact ⟨rfl, rfl⟩
  · simpa using applySlots_air _ s

theorem fireNext_air (s : State) :
    (fireNext s).sel.programme = s.sel.programme ∧ (fireNext s).sel.onAir = s.sel.onAir := by
  unfold fireNext
  split
  · exact fireHead_air s
  · exact ⟨rfl, rfl⟩

theorem fireDue_air (k : Nat) (s : State) :
    (fireDue k s).sel.programme = s.sel.programme ∧ (fireDue k s).sel.onAir = s.sel.onAir := by
  induction k generalizing s with
  | zero => exact ⟨rfl, rfl⟩
  | succ k ih =>
    unfold fireDue
    split
    · exact ⟨(ih _).1.trans (fireHead_air s).1, (ih _).2.trans (fireHead_air s).2⟩
    · exact ⟨rfl, rfl⟩

/-- Only the selector's own act counts frames on air (R67). -/
theorem runAct_air (o : Opening) (a : TickAct) (s : State) :
    (runAct o a s).sel.programme = s.sel.programme ∧ (a ≠ .onAir → (runAct o a s).sel.onAir = s.sel.onAir) := by
  cases a with
  | onAir =>
    refine ⟨?_, fun h => absurd rfl h⟩
    simp only [runAct, onAirTick]
    split <;> rfl
  | cueNext => exact ⟨(fireNext_air s).1, fun _ => (fireNext_air s).2⟩
  | cues =>
    have h := fireDue_air s.cues.length s
    simp only [runAct]
    split
    · simpa using h
    · exact ⟨h.1, fun _ => h.2⟩
  | midnight =>
    simp only [runAct]
    split <;> simp
  | _ => simp [runAct]

/-! ## The acts together -/

theorem refLossTick_ticked (s : State) : Ticked s (refLossTick s) := by
  have hclock : (refLossTick s).clock.frame = s.clock.frame ∧ (refLossTick s).clock.rate = s.clock.rate
      ∧ (refLossTick s).clock.pendingRate = s.clock.pendingRate ∧ (refLossTick s).clock.pos = s.clock.pos
      ∧ (refLossTick s).clock.offset = s.clock.offset := by
    simp only [refLossTick]
    (repeat' split) <;> simp
  obtain ⟨hf, hr, hp, ho, hs⟩ := hclock
  exact ⟨hf, hr, hp, ho, hs, by simp, by simp, by simp, by simp, by simp, by simp, refLossTick_grown (Grown.refl s)⟩

theorem runAct_ticked (o : Opening) (a : TickAct) (s : State) : Ticked s (runAct o a s) := by
  by_cases ha : a = .refLoss
  · rw [ha]
    exact refLossTick_ticked s
  · refine Ticked.of_clock ?_ (by simp) (runAct_map o a s) (by simp) (by simp) (by simp) (runAct_air o a s).1
      (runAct_grown o a (Grown.refl s))
    cases a with
    | refLoss => exact absurd rfl ha
    | midnight | cues =>
      simp only [runAct]
      split <;> simp
    | _ => simp [runAct]

theorem forEach_ticked (o : Opening) (acts : List TickAct) (s : State) : Ticked s (forEach acts (runAct o) s) :=
  forEach_inv (Ticked.refl s) fun a _ _ ht => ht.trans (runAct_ticked o a _)

end Sys2Proof.Machine
end

section
/-! The opening of a frame and what the acts do to guards, on-air counters and cues (R9, R16 to R19, R26, R67, R154,
R158). -/

namespace Sys2Proof.Machine

open Sys2Proof.Safety

/-! ## The clock -/

theorem Clock.openFrame_eq (c : Clock) : c.openFrame = openedClock c := by
  unfold Clock.openFrame Clock.changeRate openedClock
  cases h : c.pendingRate <;> simp [Clock.countFrame, h, offsetFor, subMod, convertTimecode, Clock.timecodeAt]

/-- The state of a frame tick before its acts: the frame opened, the levels seen (R16 to R18, R26, R40). -/
def opened (i : TickIn) (s : State) : State :=
  { s with
    clock := openedClock s.clock, epIn := i.levels
    lanes := s.lanes.map fun L => { L with rowsLast := L.rowsThis, rowsThis := 0 } }

/-- The state of a frame tick after its acts. -/
def acted (i : TickIn) (s : State) : State :=
  forEach (schedule true i.order) (runAct ⟨s.clock.midnightDue, s.clock.pendingRate.isSome⟩) (opened i s)

theorem exec_frameTick_due {s : State} (h : s.clock.pos = 0) (i : TickIn) :
    exec (.frameTick i) s = .next { acted i s with clock := clockAdvanced (acted i s).clock } := by
  have hopen : openFrame (s.setLevels i.levels) = opened i s := by
    have hpos : (s.setLevels i.levels).clock.pos = 0 := h
    rw [openFrame, if_pos hpos]
    simp only [opened, State.modClock, State.modLanes, Clock.openFrame_eq]
    rfl
  simp only [exec_frameTick, tickWhen, frameTickDue, tick, h, openingOf, decide_true, if_true, hopen]
  rfl

theorem exec_frameTick_other {s : State} (h : s.clock.pos ≠ 0) (i : TickIn) : exec (.frameTick i) s = .next s := by
  simp [exec_frameTick, tickWhen, frameTickDue, h]

theorem acted_ticked (i : TickIn) (s : State) : Ticked (opened i s) (acted i s) :=
  forEach_ticked _ _ _

section
variable (c : Clock)

theorem openedClock_frame : (openedClock c).frame = c.frame + 1 := by
  unfold openedClock
  split <;> rfl

theorem openedClock_rate : (openedClock c).rate = c.pendingRate.getD c.rate := by
  unfold openedClock
  split <;> rename_i h <;> simp [h]

theorem openedClock_pendingRate : (openedClock c).pendingRate = none := by
  unfold openedClock
  split
  next h => exact h
  next => rfl

theorem openedClock_pos : (openedClock c).pos = c.pos := by
  unfold openedClock
  split <;> rfl

end

/-! ## The offset and the timecode (R17, R18, R26; log 19) -/

theorem framesPerSecond_pos (r : Fin 5) : 0 < Config.framesPerSecond r := by
  revert r
  decide

theorem framesPerDay_eq (r : Fin 5) : Config.framesPerDay r = Config.framesPerSecond r * 86400 := rfl

/-- The time of day in a frame of one rate stays within the day at another. -/
theorem convert_lt {tc : Nat} {old new : Fin 5} (h : tc < Config.framesPerDay old) :
    tc * Config.framesPerSecond new / Config.framesPerSecond old < Config.framesPerDay new := by
  rw [framesPerDay_eq] at *
  rw [Nat.div_lt_iff_lt_mul (framesPerSecond_pos old)]
  calc tc * Config.framesPerSecond new
      < Config.framesPerSecond old * 86400 * Config.framesPerSecond new :=
        Nat.mul_lt_mul_of_pos_right h (framesPerSecond_pos new)
    _ = Config.framesPerSecond new * 86400 * Config.framesPerSecond old := by ring

/-- An offset that names a timecode of the day in frame `n` gives it there. -/
theorem add_offset_mod {n tc d : Nat} (h : tc < d) : (n + (((tc : Int) - n) % (d : Int)).toNat) % d = tc := by
  have hd : (0 : Int) < d := by omega
  have hr : ((((tc : Int) - n) % (d : Int)).toNat : Int) = ((tc : Int) - n) % d :=
    Int.toNat_of_nonneg (Int.emod_nonneg _ hd.ne')
  have : ((n + (((tc : Int) - n) % (d : Int)).toNat : Nat) : Int) % d = tc := by
    rw [Nat.cast_add, hr, Int.add_emod_emod, add_sub_cancel, Int.emod_eq_of_lt (by omega) (by omega)]
  exact_mod_cast this

/-- The timecode of the opening frame under the old rate (log 19). -/
theorem wrapped_timecode (n : W32) (o d : Nat) :
    (n.toNat + if n = 0 then (o + 2 ^ 32 % d) % d else o) % d = (n.toNat + if n = 0 then o + 2 ^ 32 else o) % d := by
  split <;> simp [Nat.add_mod]

theorem openedClock_timecode (c : Clock) {tc : Nat}
    (h : tc = ((c.frame + 1).toNat + (if c.frame + 1 = 0 then c.offset + 2 ^ 32 else c.offset))
      % Config.framesPerDay c.rate) :
    (c.pendingRate = none → (openedClock c).timecodeAt (openedClock c).frame = tc)
      ∧ ∀ r, c.pendingRate = some r → (openedClock c).timecodeAt (openedClock c).frame
          = tc * Config.framesPerSecond r / Config.framesPerSecond c.rate := by
  rw [← wrapped_timecode] at h
  refine ⟨fun hp => ?_, fun r hp => ?_⟩
  · simp only [openedClock, hp, Clock.timecodeAt]
    exact h.symm
  · simp only [openedClock, hp, Clock.timecodeAt, ← h]
    refine add_offset_mod (convert_lt ?_)
    rw [h]
    exact Nat.mod_lt _ (Nat.mul_pos (framesPerSecond_pos _) (by decide))

/-! ## The guard tallies (R9) -/

theorem forEach_append {α : Type} (l r : List α) (f : α → State → State) (s : State) :
    forEach (l ++ r) f s = forEach r f (forEach l f s) :=
  List.foldl_append

theorem guardReport_eq (n : Fin 16) (s : State) (h : (s.aps.guards.get n).count ≠ 0) :
    guardReport n s = { raise .guard n.val [b2 (s.aps.guards.get n).count, b1 (s.aps.guards.get n).initiator.val,
          b5 (s.aps.guards.get n).offset, b4 (s.clock.frame - 1).toNat] s with
        aps := { s.aps with guards := s.aps.guards.set n { s.aps.guards.get n with count := 0 } } } := by
  simp only [guardReport, if_neg h, State.modAps, raise_frame]
  rfl

theorem guardReport_none {n : Fin 16} {s : State} (h : (s.aps.guards.get n).count = 0) : guardReport n s = s := by
  simp [guardReport, h]

theorem guardReport_guards (n m : Fin 16) (s : State) : (guardReport n s).aps.guards.get m =
    if n = m then { s.aps.guards.get m with count := 0 } else s.aps.guards.get m := by
  by_cases h : (s.aps.guards.get n).count = 0
  · rw [guardReport_none h]
    split
    next hm => rw [← hm, ← h]
    next => rfl
  · rw [guardReport_eq n s h, Table.get_set]
    split
    next hm => rw [hm]
    next => rfl

theorem forEach_guardReport_count (l : List (Fin 16)) (m : Fin 16) (s : State) :
    ((forEach l guardReport s).aps.guards.get m).count = if m ∈ l then 0 else (s.aps.guards.get m).count := by
  induction l generalizing s with
  | nil => simp
  | cons n l ih =>
    rw [forEach_cons, ih, guardReport_guards]
    by_cases hm : m ∈ l
    · simp [hm]
    · by_cases hn : n = m
      · simp [hn]
      · simp [hm, hn, Ne.symm hn]

/-- Only the guards' own act changes the tallies. -/
theorem runAct_guards (o : Opening) {a : TickAct} (ha : a ≠ .guards) (s : State) : (runAct o a s).aps = s.aps := by
  cases a with
  | guards => exact absurd rfl ha
  | midnight | cues =>
    simp only [runAct]
    split <;> simp
  | _ => simp [runAct]

theorem runAct_guards_zero (o : Opening) (s : State) (n : Fin 16) : ((runAct o .guards s).aps.guards.get n).count = 0 := by
  simp only [runAct, guardTick, forEach_guardReport_count, List.mem_finRange, if_true]

theorem acted_guards (i : TickIn) (s : State) (n : Fin 16) : ((acted i s).aps.guards.get n).count = 0 := by
  obtain ⟨before, after, hs, -, hafter⟩ := schedule_split (a := .guards) (by decide) i.order
  rw [acted, hs, forEach_append, forEach_cons]
  refine forEach_inv (Inv := fun t => (t.aps.guards.get n).count = 0) (runAct_guards_zero _ _ n) fun a ha t ht => ?_
  rw [runAct_guards _ (fun he => hafter (he ▸ ha))]
  exact ht

/-! ## The on-air counters (R67) -/

theorem forEach_onAir {o : Opening} {acts : List TickAct} (h : .onAir ∉ acts) (s : State) :
    (forEach acts (runAct o) s).sel.onAir = s.sel.onAir :=
  forEach_inv (Inv := fun t => t.sel.onAir = s.sel.onAir) rfl fun a ha t ht =>
    ((runAct_air o a t).2 fun he => h (he ▸ ha)).trans ht

theorem runAct_onAir (o : Opening) (s : State) (l : Fin 4) : (runAct o .onAir s).sel.onAir.get l =
    if s.sel.programme = some l then s.sel.onAir.get l + 1 else s.sel.onAir.get l := by
  simp only [runAct, onAirTick]
  cases h : s.sel.programme with
  | none => simp
  | some k => simp [Table.get_modify]

theorem acted_onAir (i : TickIn) (s : State) (l : Fin 4) : (acted i s).sel.onAir.get l =
    if s.sel.programme = some l then s.sel.onAir.get l + 1 else s.sel.onAir.get l := by
  obtain ⟨before, after, hs, hbefore, hafter⟩ := schedule_split (a := .onAir) (by decide) i.order
  have hp := (forEach_ticked ⟨s.clock.midnightDue, s.clock.pendingRate.isSome⟩ before (opened i s)).programme
  rw [acted, hs, forEach_append, forEach_cons, forEach_onAir hafter, runAct_onAir, hp, forEach_onAir hbefore]
  rfl

/-! ## The cues (R154, R158) -/

/-- The cues that are not yet due: those that the firing of all due ones leaves. -/
def cuesLeft (s : State) : List Cue := s.cues.dropWhile fun x => atOrBefore x.due s.clock.frame

theorem headDue_cons {s : State} {e : Cue} {rest : List Cue} (h : s.cues = e :: rest) :
    headDue s = atOrBefore e.due s.clock.frame := by
  simp [headDue, h]

theorem headDue_nil {s : State} (h : s.cues = []) : headDue s = false := by
  simp [headDue, h]

theorem fireHead_cues (s : State) : (fireHead s).cues = s.cues.tail := by
  unfold fireHead
  split
  next h => simp [h]
  next => simp

/-- No head is due exactly when firing the due ones leaves the table. -/
theorem headDue_false_iff (s : State) : headDue s = false ↔ cuesLeft s = s.cues := by
  cases h : s.cues with
  | nil => simp [headDue, cuesLeft, h]
  | cons e rest => simp [headDue, cuesLeft, h, List.dropWhile_eq_self_iff]

theorem cuesLeft_fireHead {s : State} (h : headDue s = true) : cuesLeft (fireHead s) = cuesLeft s := by
  cases hc : s.cues with
  | nil => rw [headDue_nil hc] at h; cases h
  | cons e rest =>
    rw [headDue_cons hc] at h
    simp [cuesLeft, fireHead_cues, hc, h]

theorem fireDue_cues {k : Nat} {s : State} (h : s.cues.length ≤ k) : (fireDue k s).cues = cuesLeft s := by
  induction k generalizing s with
  | zero =>
    have hnil : s.cues = [] := List.length_eq_zero_iff.1 (by omega)
    simp [fireDue, cuesLeft, hnil]
  | succ k ih =>
    unfold fireDue
    split
    next hd =>
      rw [ih (by rw [fireHead_cues, List.length_tail]; omega), cuesLeft_fireHead hd]
    next hd => exact ((headDue_false_iff s).1 (by simpa using hd)).symm

/-- Only the two acts of the cues change the table. -/
theorem runAct_cues (o : Opening) {a : TickAct} (h : a ≠ .cues) (hn : a ≠ .cueNext) (s : State) :
    (runAct o a s).cues = s.cues := by
  cases a with
  | cues => exact absurd rfl h
  | cueNext => exact absurd rfl hn
  | midnight =>
    simp only [runAct]
    split <;> simp
  | _ => simp [runAct]

/-- The firing of one due cue leaves to the rest what was left to it. -/
theorem runAct_cuesLeft (o : Opening) {a : TickAct} (h : a ≠ .cues) (s : State) : cuesLeft (runAct o a s) = cuesLeft s := by
  by_cases hn : a = .cueNext
  · subst hn
    simp only [runAct, fireNext]
    split
    next hd => exact cuesLeft_fireHead hd
    next => rfl
  · rw [cuesLeft, runAct_cues o h hn, (runAct_ticked o a s).frame]
    rfl

/-- With no head due, only the act of all due cues can change the table. -/
theorem runAct_cues_of_not_due (o : Opening) {a : TickAct} (h : a ≠ .cues) {s : State} (hd : headDue s = false) :
    (runAct o a s).cues = s.cues := by
  by_cases hn : a = .cueNext
  · subst hn
    simp [runAct, fireNext, hd]
  · exact runAct_cues o h hn s

end Sys2Proof.Machine
end

section
/-! The cue table after a frame tick (R154, R158). -/

namespace Sys2Proof.Machine

open Sys2Proof.Safety

/-! ## Sorting keeps the order of equal keys -/

section
variable {α : Type} (key : α → Nat) (p : α → Bool)

/-- In a sorted list an entry goes in behind those of its key, so among the entries of one key it stands last. -/
theorem filter_insertBy {x : α} {l : List α} (hs : l.Pairwise fun a b => key a ≤ key b)
    (hp : p x = true → ∀ y ∈ l, p y = true → key y ≤ key x) :
    (insertBy key x l).filter p = l.filter p ++ [x].filter p := by
  induction l with
  | nil => rfl
  | cons y ys ih =>
    obtain ⟨hy, hys⟩ := List.pairwise_cons.1 hs
    unfold insertBy
    split
    · rw [List.filter_cons, List.filter_cons, ih hys fun hx z hz => hp hx z (List.mem_cons_of_mem _ hz)]
      split <;> simp
    next hlt =>
      cases hx : p x with
      | false => simp [hx]
      | true =>
        have hnone : (y :: ys).filter p = [] := by
          rw [List.filter_eq_nil_iff]
          intro z hz hpz
          have hzx := hp hx z hz hpz
          rcases List.mem_cons.1 hz with rfl | hz
          · exact hlt hzx
          · exact hlt ((hy z hz).trans hzx)
        rw [List.filter_cons_of_pos hx, hnone]
        simp [hx]

/-- Sorting keeps the entries of a kind in order when they all have one key. -/
theorem filter_sortBy {l : List α} (hp : ∀ x ∈ l, ∀ y ∈ l, p x = true → p y = true → key x = key y) :
    (sortBy key l).filter p = l.filter p := by
  suffices ∀ (l acc : List α), acc.Pairwise (fun a b => key a ≤ key b) →
      (∀ x ∈ acc ++ l, ∀ y ∈ acc ++ l, p x = true → p y = true → key x = key y) →
      (l.foldl (fun a x => insertBy key x a) acc).filter p = acc.filter p ++ l.filter p by
    simpa [sortBy] using this l [] List.Pairwise.nil (by simpa using hp)
  intro l
  induction l with
  | nil => simp
  | cons x l ih =>
    intro acc hs hk
    rw [List.foldl_cons, ih _ (insertBy_pairwise key x hs), filter_insertBy key p hs, List.append_assoc,
      ← List.filter_append, List.singleton_append]
    · exact fun hx y hy hpy => (hk y (by simp [hy]) x (by simp) hpy hx).le
    · intro a ha b hb
      simp only [List.mem_append, mem_insertBy] at ha hb
      exact hk a (by simp only [List.mem_append, List.mem_cons]; tauto) b
        (by simp only [List.mem_append, List.mem_cons]; tauto)

end

/-! ## Rebasing (R158) -/

theorem dayFrames_pos (s : State) : 0 < dayFrames s := Nat.mul_pos (framesPerSecond_pos _) (by decide)

theorem dayFrames_le (s : State) : dayFrames s ≤ 5184000 := by
  have h : ∀ r, Config.framesPerDay r ≤ 5184000 := by decide
  exact h _

theorem timecode_lt (s : State) : timecode s < dayFrames s := Nat.mod_lt _ (dayFrames_pos s)

theorem cueDistance_eq (x : Cue) (s : State) : cueDistance x.dueTc s = framesAhead x s := by
  have ht := timecode_lt s
  have h : ((framesAhead x s : Nat) : Int) = ((x.dueTc : Int) - timecode s) % dayFrames s := by
    rw [framesAhead, Int.natCast_emod, Nat.cast_sub (by omega), Nat.cast_add,
      show (x.dueTc : Int) + dayFrames s - timecode s = x.dueTc - timecode s + dayFrames s by ring, Int.add_emod_right]
  rw [cueDistance, subMod, ← h, Int.toNat_natCast]

theorem cueSkipped_eq (x : Cue) (s : State) : cueSkipped x s = skips x s := by
  simp only [cueSkipped, cuePast, cueDistance_eq, skips, Bool.decide_or]

theorem cueDue_eq (x : Cue) (s : State) : cueDue x.dueTc s = s.clock.frame + BitVec.ofNat 32 (framesAhead x s) := by
  rw [cueDue, cueDistance_eq]

/-- The entries that a rebasing keeps, in the order of the table. -/
def rebasedEntries (old : List Cue) (s : State) : List Cue :=
  (old.filter fun x => !skips x s).map fun x =>
    { x with due := s.clock.frame + BitVec.ofNat 32 (framesAhead x s), late := false }

theorem rebase_cues (s : State) :
    (rebase s).cues = sortBy (fun e => dist s.clock.frame e.due) (rebasedEntries s.cues s) := by
  simp only [rebase, State.modCues_cues, cueSkipped_eq, cueDue_eq, rebasedEntries]

theorem rebased_rebase (s : State) : Rebased s.cues (rebase s).cues s := by
  rw [rebase_cues]
  refine ⟨fun n => ?_, sortBy_pairwise _ _⟩
  refine filter_sortBy _ _ fun x _ y _ hx hy => ?_
  rw [of_decide_eq_true hx, of_decide_eq_true hy]

/-- No entry is due right after a rebasing: those at distance 0 or in the lookback have left. -/
theorem headDue_rebase (s : State) : headDue (rebase s) = false := by
  cases hc : (rebase s).cues with
  | nil => exact headDue_nil hc
  | cons e rest =>
    rw [headDue_cons hc]
    have he : e ∈ rebasedEntries s.cues s := by
      rw [← mem_sortBy, ← rebase_cues, hc]
      exact List.mem_cons_self
    obtain ⟨x, hx, rfl⟩ := List.mem_map.1 he
    have hkeep : ¬(dayFrames s ≤ x.dueTc ∨ framesAhead x s = 0
        ∨ dayFrames s - Config.lookback s.clock.rate < framesAhead x s) := by
      simpa [skips] using (List.mem_filter.1 hx).2
    have hday := dayFrames_le s
    simp only [atOrBefore, dist, rebase_frame, decide_eq_false_iff_not, Nat.not_lt]
    bv_omega

theorem timecode_of_clock {s t : State} (hf : t.clock.frame = s.clock.frame) (hr : t.clock.rate = s.clock.rate)
    (ho : t.clock.offset = s.clock.offset) : timecode t = timecode s := by
  simp only [timecode, Clock.timecodeAt, hf, hr, ho]

/-- Rebasing looks at the clock alone. -/
theorem rebased_of_clock {old new : List Cue} {s t : State} (h : Rebased old new s)
    (hf : t.clock.frame = s.clock.frame) (hr : t.clock.rate = s.clock.rate) (ho : t.clock.offset = s.clock.offset) :
    Rebased old new t := by
  have hday : dayFrames t = dayFrames s := by rw [dayFrames, dayFrames, hr]
  have hahead (x : Cue) : framesAhead x t = framesAhead x s := by
    simp only [framesAhead, timecode_of_clock hf hr ho, hday]
  have hskips (x : Cue) : skips x t = skips x s := by
    simp only [skips, hahead, hday, hr]
  unfold Rebased
  simp only [hahead, hskips, hf]
  exact h

/-! ## The table after the acts -/

/-- Once no head is due, the acts after leave the table. -/
theorem forEach_cues_of_not_due {o : Opening} {acts : List TickAct} (h : .cues ∉ acts) {s : State}
    (hd : headDue s = false) : (forEach acts (runAct o) s).cues = s.cues := by
  have hinv : (forEach acts (runAct o) s).cues = s.cues ∧ headDue (forEach acts (runAct o) s) = false := by
    refine forEach_inv (Inv := fun t => t.cues = s.cues ∧ headDue t = false) ⟨rfl, hd⟩ fun a ha t ht => ?_
    have hc := runAct_cues_of_not_due o (a := a) (fun he => h (he ▸ ha)) ht.2
    refine ⟨hc.trans ht.1, ?_⟩
    rw [headDue_false_iff] at *
    rw [runAct_cuesLeft o (fun he => h (he ▸ ha)), ht.2, hc]
  exact hinv.1

theorem forEach_cuesLeft {o : Opening} {acts : List TickAct} (h : .cues ∉ acts) (s : State) :
    cuesLeft (forEach acts (runAct o) s) = cuesLeft s :=
  forEach_inv (Inv := fun t => cuesLeft t = cuesLeft s) rfl fun _ ha t ht =>
    (runAct_cuesLeft o (fun he => h (he ▸ ha)) t).trans ht

theorem fireDue_all_cues (s : State) : (fireDue s.cues.length s).cues = cuesLeft s := fireDue_cues (Nat.le_refl _)

theorem headDue_fireDue (s : State) : headDue (fireDue s.cues.length s) = false := by
  have hclock : (fireDue s.cues.length s).clock = s.clock := by simp
  rw [headDue_false_iff, fireDue_all_cues, cuesLeft, fireDue_all_cues, cuesLeft, hclock]
  exact List.dropWhile_idempotent _ _

/-- The table after the acts: the due cues have left, and at a rate change the others are rebased. -/
theorem acted_cues (i : TickIn) (s : State) :
    (s.clock.pendingRate = none → (acted i s).cues = cuesLeft (opened i s))
      ∧ (s.clock.pendingRate ≠ none → Rebased (cuesLeft (opened i s)) (acted i s).cues (acted i s)) := by
  obtain ⟨before, after, hs, hbefore, hnone⟩ := schedule_split (a := .cues) (by decide) i.order
  have hleft := forEach_cuesLeft (o := ⟨s.clock.midnightDue, s.clock.pendingRate.isSome⟩) hbefore (opened i s)
  have hacted : acted i s = forEach after (runAct ⟨s.clock.midnightDue, s.clock.pendingRate.isSome⟩)
      (runAct ⟨s.clock.midnightDue, s.clock.pendingRate.isSome⟩ .cues
        (forEach before (runAct ⟨s.clock.midnightDue, s.clock.pendingRate.isSome⟩) (opened i s))) := by
    rw [acted, hs, forEach_append, forEach_cons]
  rw [hacted, ← hleft]
  generalize forEach before (runAct ⟨s.clock.midnightDue, s.clock.pendingRate.isSome⟩) (opened i s) = u
  refine ⟨fun hp => ?_, fun hp => ?_⟩
  · simp only [runAct, hp, Option.isSome_none, Bool.false_eq_true, if_false]
    rw [forEach_cues_of_not_due hnone (headDue_fireDue u), fireDue_all_cues]
  · have hsome : s.clock.pendingRate.isSome = true := Option.isSome_iff_ne_none.2 hp
    simp only [runAct, hsome, if_true]
    rw [forEach_cues_of_not_due hnone (headDue_rebase _)]
    have h := rebased_rebase (fireDue u.cues.length u)
    rw [fireDue_all_cues] at h
    have hafter := forEach_ticked ⟨s.clock.midnightDue, true⟩ after (rebase (fireDue u.cues.length u))
    have hclock : (rebase (fireDue u.cues.length u)).clock = (fireDue u.cues.length u).clock := by simp
    exact rebased_of_clock h (hafter.frame.trans (by rw [hclock])) (hafter.rate.trans (by rw [hclock]))
      (hafter.offset.trans (by rw [hclock]))

/-! ## The next frame opened (R16 to R19, R26) -/

theorem cuesLeft_opened (i : TickIn) (s : State) :
    cuesLeft (opened i s) = s.cues.dropWhile fun x => atOrBefore x.due (s.clock.frame + 1) := by
  rw [cuesLeft, show (opened i s).clock.frame = s.clock.frame + 1 from openedClock_frame s.clock]
  rfl

theorem clockAdvanced_pos {c : Clock} (h : c.pos = 0) : (clockAdvanced c).pos = 1 := by
  have hticks : ∀ r, 1 < 48000 / Config.framesPerSecond r := by decide
  simp only [clockAdvanced, h, Nat.zero_add, if_pos (hticks c.rate)]

/-- What a frame tick leaves in the state, act by act. -/
theorem frameTick_opens {s : State} (h : s.clock.pos = 0) (i : TickIn) (t : State)
    (ht : t = { acted i s with clock := clockAdvanced (acted i s).clock }) :
    t.clock.frame = s.clock.frame + 1 ∧ t.clock.rate = s.clock.pendingRate.getD s.clock.rate
    ∧ t.clock.pendingRate = none ∧ t.clock.pos = 1 ∧ t.clock.offset = (openedClock s.clock).offset
    ∧ (∀ tc, tc = ((s.clock.frame + 1).toNat + (if s.clock.frame + 1 = 0 then s.clock.offset + 2 ^ 32
        else s.clock.offset)) % dayFrames s →
      (s.clock.pendingRate = none → timecode t = tc)
      ∧ ∀ r, s.clock.pendingRate = some r →
        timecode t = tc * Config.framesPerSecond r / Config.framesPerSecond s.clock.rate)
    ∧ (∀ left, left = s.cues.dropWhile (fun x => atOrBefore x.due (s.clock.frame + 1)) →
      (s.clock.pendingRate = none → t.cues = left) ∧ (s.clock.pendingRate ≠ none → Rebased left t.cues t)) := by
  have ha := acted_ticked i s
  have hf : t.clock.frame = (openedClock s.clock).frame := by rw [ht]; exact ha.frame
  have hr : t.clock.rate = (openedClock s.clock).rate := by rw [ht]; exact ha.rate
  have ho : t.clock.offset = (openedClock s.clock).offset := by rw [ht]; exact ha.offset
  have htc : timecode t = (openedClock s.clock).timecodeAt (openedClock s.clock).frame := by
    simp only [timecode, Clock.timecodeAt, hf, hr, ho]
  have hcues := acted_cues i s
  rw [cuesLeft_opened] at hcues
  refine ⟨hf.trans (openedClock_frame _), hr.trans (openedClock_rate _), ?_, ?_, ho, fun tc h => ?_, ?_⟩
  · rw [ht]
    exact ha.pendingRate.trans (openedClock_pendingRate _)
  · rw [ht]
    exact clockAdvanced_pos (ha.pos.trans ((openedClock_pos _).trans h))
  · rw [htc]
    exact openedClock_timecode s.clock h
  · rintro left rfl
    rw [ht]
    exact ⟨hcues.1, fun hp => rebased_of_clock (hcues.2 hp) rfl rfl rfl⟩

end Sys2Proof.Machine
end

section
/-! The GUARD notices of a frame tick and its default order (R9, R17; log 4). -/

namespace Sys2Proof.Machine

open Sys2Proof.Safety

/-! ## Notices with room in the ring (R178) -/

/-- The two entries that a raised notice sends to the ring at `a`: its record and the written count (R178). -/
def noticeEntries (a : Aperture) (written lost : Nat) (kind : NoticeKind) (subject : Nat) (items : List Item)
    (s : State) : List InsEntry :=
  [⟨.write (a.base + 64 + 32 * (written % (a.size / 32 - 2)))
      (noticeRecord kind subject lost s.clock.frame (timecode s) items), .nothing⟩,
    ⟨.write a.base (le 8 (written + 1)), .nothing⟩]

theorem raise_room {s : State} {a : Aperture} (ha : ap .notices s = some a)
    (hroom : s.ctl.written - s.ctl.released < a.size / 32 - 2) (kind : NoticeKind) (subject : Nat) (items : List Item) :
    raise kind subject items s
      = (pushAll byControl (noticeEntries a s.ctl.written s.ctl.lostBefore kind subject items s) s).modCtl
          (Control.noteWritten kind) := by
  have hslots : ¬noticeSlots a.size ≤ s.ctl.written - s.ctl.released := by
    rw [noticeSlots]
    omega
  simp only [raise, raiseAt, ha, if_neg hslots]
  rfl

/-! ## The reports of the tallies (R9) -/

/-- The entries of the report of `x.1`, when `x.2` reports stand before it. -/
def reportEntries (a : Aperture) (s : State) (x : Fin 16 × Nat) : List InsEntry :=
  let g := s.aps.guards.get x.1
  noticeEntries a (s.ctl.written + x.2) (if x.2 = 0 then s.ctl.lostBefore else 0) .guard x.1.val
    [b2 g.count, b1 g.initiator.val, b5 g.offset, b4 (s.clock.frame - 1).toNat] s

section
variable {s : State} {a : Aperture} {n : Fin 16} (ha : ap .notices s = some a)
  (hroom : s.ctl.written - s.ctl.released < a.size / 32 - 2) (hn : (s.aps.guards.get n).count ≠ 0)
include ha hroom hn

theorem guardReport_ctl : (guardReport n s).ctl = Control.noteWritten .guard s.ctl := by
  rw [guardReport_eq n s hn, raise_room ha hroom]
  rfl

theorem guardReport_hold : (guardReport n s).ins.holds.get 0 = s.ins.holds.get 0 ++ reportEntries a s (n, 0) := by
  rw [guardReport_eq n s hn, raise_room ha hroom]
  show (pushAll byControl _ s).ins.holds.get 0 = _
  rw [pushAll_holds, if_pos rfl]
  rfl

/-- A later report finds the count one higher and no loss to tell of. -/
theorem reportEntries_guardReport {m : Fin 16} (hm : n ≠ m) (j : Nat) :
    reportEntries a (guardReport n s) (m, j) = reportEntries a s (m, j + 1) := by
  have hclock : (guardReport n s).clock = s.clock := by simp
  have hguard : (guardReport n s).aps.guards.get m = s.aps.guards.get m := by
    rw [guardReport_guards, if_neg hm]
  have htc : timecode (guardReport n s) = timecode s := by
    simp only [timecode, hclock]
  simp only [reportEntries, noticeEntries, hguard, hclock, htc, guardReport_ctl ha hroom hn, Control.noteWritten,
    Control.settleAttn, ite_self, Nat.add_eq_zero_iff, Nat.one_ne_zero, and_false, if_false]
  rw [Nat.add_right_comm s.ctl.written 1 j, ← Nat.add_assoc]

end

/-- The functions of a list with something tallied. -/
def tallied (l : List (Fin 16)) (s : State) : List (Fin 16) := l.filter fun n => decide ((s.aps.guards.get n).count ≠ 0)

theorem tallied_guardReport {n : Fin 16} {l : List (Fin 16)} (h : n ∉ l) (s : State) :
    tallied l (guardReport n s) = tallied l s := by
  refine List.filter_congr fun m hm => ?_
  have hne : n ≠ m := fun he => h (he ▸ hm)
  rw [guardReport_guards, if_neg hne]

/-- The reports, in order, while the ring has a slot for each. -/
theorem forEach_guardReport {a : Aperture} {l : List (Fin 16)} (hl : l.Nodup) {s : State} (ha : ap .notices s = some a)
    (hroom : s.ctl.written - s.ctl.released + (tallied l s).length ≤ a.size / 32 - 2)
    (hle : s.ctl.released ≤ s.ctl.written) :
    (forEach l guardReport s).ctl.unreleased
        = s.ctl.unreleased ++ List.replicate (tallied l s).length .guard
      ∧ (forEach l guardReport s).ins.holds.get 0
        = s.ins.holds.get 0 ++ (tallied l s).zipIdx.flatMap (reportEntries a s) := by
  induction l generalizing s with
  | nil => simp [tallied]
  | cons n l ih =>
    obtain ⟨hnl, hl⟩ := List.nodup_cons.1 hl
    rw [forEach_cons]
    by_cases hn : (s.aps.guards.get n).count = 0
    · have htally : tallied (n :: l) s = tallied l s := List.filter_cons_of_neg (by simpa using hn)
      rw [htally] at hroom ⊢
      rw [guardReport_none hn]
      exact ih hl ha hroom hle
    · have htally : tallied (n :: l) s = n :: tallied l s := List.filter_cons_of_pos (by simpa using hn)
      rw [htally, List.length_cons] at hroom
      have hfree : s.ctl.written - s.ctl.released < a.size / 32 - 2 := by omega
      have hctl := guardReport_ctl ha hfree hn
      have hmap : ap .notices (guardReport n s) = some a := (ap_of_map (guardReport_map n s) _).trans ha
      have hrest := ih hl hmap (by
        rw [hctl, tallied_guardReport hnl]
        simp only [Control.noteWritten, Control.settleAttn]
        omega) (by
        rw [hctl]
        exact Nat.le_succ_of_le hle)
      rw [tallied_guardReport hnl, hctl, guardReport_hold ha hfree hn] at hrest
      have hshift : (tallied l s).zipIdx.flatMap (reportEntries a (guardReport n s))
          = ((tallied l s).zipIdx 1).flatMap (reportEntries a s) := by
        rw [List.zipIdx_succ, List.flatMap_map]
        refine List.flatMap_congr fun x hx => ?_
        have hm : x.1 ∈ tallied l s := List.fst_mem_of_mem_zipIdx hx
        exact reportEntries_guardReport ha hfree hn (fun he => hnl (he ▸ List.mem_of_mem_filter hm)) x.2
      refine ⟨?_, ?_⟩
      · rw [hrest.1, htally]
        simp [Control.noteWritten, Control.settleAttn, List.replicate_succ]
      · rw [hrest.2, hshift, htally, List.zipIdx_cons, List.flatMap_cons, List.append_assoc]

end Sys2Proof.Machine
end

section
/-! Changes of many records at once, and the frame tick in its default order (R17, R137; log 4). -/

namespace Sys2Proof.Machine

open Sys2Proof.Safety

/-! ## Changes of records with their mirrors (R137) -/

/-- The mirrors of some records after their change, while LOG is SET. -/
def mirrorEntries (l : List (Fin 256)) (g : Clip → Clip) (s : State) : List InsEntry :=
  ((ap .log s).map fun a =>
    l.map fun i => ⟨.write (a.base + 64 * i.val) (clipRecord (g (s.log.recs.get i))), .nothing⟩).getD []

/-- Some records changed, and mirrored in order. -/
def changedAt (l : List (Fin 256)) (g : Clip → Clip) (s : State) : State :=
  { s with
    log := { s.log with recs := l.foldl (fun u i => u.modify i g) s.log.recs }
    ins := { s.ins with holds := s.ins.holds.modify 0 (· ++ mirrorEntries l g s) } }

theorem changedAt_nil (g : Clip → Clip) (s : State) : changedAt [] g s = s := by
  have hempty : mirrorEntries [] g s = [] := by
    unfold mirrorEntries
    cases ap .log s <;> rfl
  rw [changedAt, hempty, Table.modify_id _ _ (List.append_nil _)]
  rfl

/-- A change of one record with its revision counted and its mirror written. -/
theorem changeRec_eq (i : Fin 256) {f g : Clip → Clip} (hg : ∀ R, g R = { f R with rev := (f R).rev + 1 }) (s : State) :
    changeRec i f s = changedAt [i] g s := by
  have hcomp : (fun c : Clip => { c with rev := c.rev + 1 }) ∘ f = g := funext fun R => (hg R).symm
  have hrecs : (s.modRec i f).modRec i (fun c => { c with rev := c.rev + 1 })
      = s.modRec i g := by
    simp only [State.modRec, State.modLog, Table.modify_modify, hcomp]
  rw [changeRec, mirror, hrecs, writeRecord, changedAt, mirrorEntries]
  have hap : ap .log (s.modRec i g) = ap .log s := rfl
  rw [hap]
  cases ap .log s with
  | none =>
    simp only [Option.map_none, Option.getD_none]
    rw [Table.modify_id _ _ (List.append_nil _)]
    rfl
  | some a =>
    simp only [Option.map_some, Option.getD_some, List.map_cons, List.map_nil, State.modRec_log, Table.get_modify_self]
    rfl

theorem changedAt_changedAt {i : Fin 256} {l : List (Fin 256)} (h : i ∉ l) (g : Clip → Clip) (s : State) :
    changedAt l g (changedAt [i] g s) = changedAt (i :: l) g s := by
  have hrest : mirrorEntries l g (changedAt [i] g s) = mirrorEntries l g s := by
    have hmap (a : Aperture) : (l.map fun j =>
        (⟨.write (a.base + 64 * j.val) (clipRecord (g ((s.log.recs.modify i g).get j))), .nothing⟩ : InsEntry))
        = l.map fun j => ⟨.write (a.base + 64 * j.val) (clipRecord (g (s.log.recs.get j))), .nothing⟩ := by
      refine List.map_congr_left fun j hj => ?_
      have hne : i ≠ j := fun he => h (he ▸ hj)
      rw [Table.get_modify_ne _ _ hne]
    exact congrArg (fun m : Aperture → List InsEntry => ((ap .log s).map m).getD []) (funext hmap)
  have hcons : mirrorEntries (i :: l) g s = mirrorEntries [i] g s ++ mirrorEntries l g s := by
    unfold mirrorEntries
    cases ap .log s <;> rfl
  rw [changedAt, hrest, changedAt, changedAt, hcons]
  simp only [Table.modify_modify, Function.comp_def, List.append_assoc]
  rfl

theorem forEach_changeRec {f g : Clip → Clip} (hg : ∀ R, g R = { f R with rev := (f R).rev + 1 })
    {l : List (Fin 256)} (hl : l.Nodup) (s : State) : forEach l (changeRec · f) s = changedAt l g s := by
  induction l generalizing s with
  | nil => exact (changedAt_nil g s).symm
  | cons i l ih =>
    obtain ⟨hi, hl⟩ := List.nodup_cons.1 hl
    rw [forEach_cons, ih hl, changeRec_eq i hg, changedAt_changedAt hi]

theorem nodup_recsWhere (P : Clip → Bool) (s : State) : (recsWhere P s).Nodup :=
  (List.nodup_finRange 256).filter _

theorem mem_recsWhere {P : Clip → Bool} {s : State} {i : Fin 256} : i ∈ recsWhere P s ↔ P (s.log.recs.get i) = true := by
  simp [recsWhere, allRecs]

/-- A record changed and its revision counted. -/
def revised (f : Clip → Clip) (R : Clip) : Clip := { f R with rev := R.rev + 1 }

theorem changedAt_recsWhere (P : Clip → Bool) (f : Clip → Clip) (s : State) :
    changedAt (recsWhere P s) (revised f) s = changedWhere P f s := by
  have hrecs : (recsWhere P s).foldl (fun u i => u.modify i (revised f)) s.log.recs
      = s.log.recs.map fun R => if P R = true then revised f R else R := by
    refine Table.ext_get fun i => ?_
    rw [Table.get_foldl_modify (fun _ => revised f) (nodup_recsWhere P s), Table.get_map]
    simp only [mem_recsWhere]
  have hentries (a : Aperture) : (recsWhere P s).map (fun i =>
        (⟨.write (a.base + 64 * i.val) (clipRecord (revised f (s.log.recs.get i))), .nothing⟩ : InsEntry))
      = (recsWhere P s).map fun i => ⟨.write (a.base + 64 * i.val)
          (clipRecord (if P (s.log.recs.get i) = true then revised f (s.log.recs.get i) else s.log.recs.get i)),
          .nothing⟩ := by
    refine List.map_congr_left fun i hi => ?_
    rw [if_pos (mem_recsWhere.1 hi)]
  rw [changedAt, hrecs, mirrorEntries, changedWhere]
  cases ap .log s with
  | none =>
    simp only [Option.map_none, Option.getD_none]
    rw [Table.modify_id _ _ (List.append_nil _)]
    rfl
  | some a =>
    simp only [Option.map_some, Option.getD_some, hentries]
    rfl

/-- The records that meet a condition, each changed and mirrored in index order. -/
theorem forEach_recsWhere (P : Clip → Bool) {f : Clip → Clip} (hf : ∀ R, (f R).rev = R.rev) (s : State) :
    forEach (recsWhere P s) (changeRec · f) s = changedWhere P f s := by
  rw [forEach_changeRec (g := revised f) (fun R => by rw [hf]; rfl) (nodup_recsWhere P s), changedAt_recsWhere]

/-! ## The default order (log 4) -/

theorem schedule_default : schedule true [] = frameActs := by
  decide

theorem midnightDue_iff {s : State} (i : TickIn) :
    s.clock.midnightDue = true ↔ timecode s + 1 = dayFrames s ∧ timecode (opened i s) = 0 := by
  have hday := dayFrames_pos s
  simp only [Clock.midnightDue, Bool.and_eq_true, decide_eq_true_eq, Clock.openFrame_eq]
  refine and_congr ?_ Iff.rfl
  show timecode s = dayFrames s - 1 ↔ _
  omega

/-- The acts of a frame tick that go before the mixer's share. -/
def openingActs : List TickAct := [.guards, .midnight, .refLoss, .stall 0, .stall 1, .onAir, .tallies, .cues]

theorem forEach_frameActs (f : TickAct → State → State) (s : State) :
    forEach frameActs f s
      = f .status (forEach (List.finRange 12) (fun p => f (.pin p)) (f .mixer (forEach openingActs f s))) := by
  have hpins (t : State) :
      forEach ((List.finRange 12).map .pin) f t = forEach (List.finRange 12) (fun p => f (.pin p)) t :=
    List.foldl_map
  rw [frameActs, forEach_append, forEach_append, sampleActs, forEach_cons TickAct.mixer, hpins]
  rfl

/-- The mixer's share comes with position and opening as the tick began. -/
theorem acted_default {s : State} {i : TickIn} (hp : s.clock.pos = 0) (ho : i.order = []) : acted i s =
    statusTick (forEach (List.finRange 12) samplePin (mixerTick 0 true
      (forEach openingActs (runAct ⟨s.clock.midnightDue, s.clock.pendingRate.isSome⟩) (opened i s)))) := by
  have hpos := (forEach_ticked ⟨s.clock.midnightDue, s.clock.pendingRate.isSome⟩ openingActs (opened i s)).pos
  rw [show (opened i s).clock.pos = 0 from (openedClock_pos _).trans hp] at hpos
  rw [acted, ho, schedule_default, forEach_frameActs]
  simp only [runAct, hpos, decide_true]
  rfl

theorem onAirTick_eq (s : State) : onAirTick s = { s with sel := { s.sel with onAir := match s.sel.programme with
    | some l => s.sel.onAir.modify l (· + 1)
    | none => s.sel.onAir } } := by
  unfold onAirTick
  cases h : s.sel.programme <;> simp only [State.modSel]

theorem addTallies_eq (s : State) : addTallies s = changedWhere (fun R => decide (0 < R.tally))
    (fun R => { R with rowsStored := min (R.rowsStored + R.tally) (2 ^ 32 - 1), tally := 0 }) s :=
  forEach_recsWhere (fun R => decide (0 < R.tally)) (f := Clip.takeTally) (fun _ => rfl) s

/-! ## The parts of the statement -/

/-- The GUARD notices of the tallies come first (R9, R17). -/
theorem frameTick_guardNotices {s : State} {i : TickIn} {a : Aperture} {os : List TickAct}
    (ho : i.order = [] ∨ i.order = .guards :: os) (ha : ap .notices s = some a)
    (hle : s.ctl.released ≤ s.ctl.written)
    (hroom : s.ctl.written - s.ctl.released + (tallied (List.finRange 16) s).length ≤ a.size / 32 - 2) :
    ∃ later more, (acted i s).ctl.unreleased
        = s.ctl.unreleased ++ List.replicate (tallied (List.finRange 16) s).length .guard ++ later
      ∧ (acted i s).ins.holds.get 0
        = s.ins.holds.get 0 ++ (tallied (List.finRange 16) s).zipIdx.flatMap (reportEntries a (opened i s)) ++ more := by
  obtain ⟨rest, hs⟩ := schedule_guards ho
  obtain ⟨hunreleased, hhold⟩ := forEach_guardReport (s := opened i s) (List.nodup_finRange 16) ha hroom hle
  rw [← guardTick] at hunreleased hhold
  have hgrown := (forEach_ticked ⟨s.clock.midnightDue, s.clock.pendingRate.isSome⟩ rest (guardTick (opened i s))).grown
  obtain ⟨later, hlater⟩ := hgrown.unreleased
  obtain ⟨more, hmore⟩ := hgrown.hold
  rw [hunreleased] at hlater
  rw [hhold] at hmore
  rw [acted, hs, forEach_cons]
  exact ⟨later, more, hlater, hmore⟩

/-- In the default order the acts of the frame's opening, one after another (log 4). -/
theorem forEach_openingActs (o : Opening) (u : State) :
    forEach openingActs (runAct o) u =
      runAct o .cues (addTallies (onAirTick (stallTick 1 (stallTick 0 (refLossTick
        (runAct o .midnight (guardTick u))))))) :=
  rfl

/-- Settles O31: the acts come in any order, each exactly once, and every one leaves what the others have to say. -/
theorem frameTickOpensTheNextFrame : Obligations.FrameTickOpensTheNextFrame := by
  refine ⟨fun s i hp => ?_, fun s n g hg => ?_, ?_, ?_, fun s k => ⟨fun e rest hc hd => ?_, fun hd => ?_⟩, fun s i hp => ?_⟩
  · have ha := acted_ticked i s
    obtain ⟨hf, hr, hpr, hpos, hoff, htc, hcues⟩ := frameTick_opens hp i _ rfl
    refine ⟨_, exec_frameTick_due hp i, hf, hr, hpr, hpos, hoff, htc, hcues, fun l => ?_, ha.programme, acted_onAir i s,
      acted_guards i s, ha.map, ha.dram, ha.port, ha.grown.insQueue, ha.epIn, ha.grown.loader, ha.grown.queue,
      ha.grown.marks⟩
    show (acted i s).lanes.get l = _
    rw [ha.lanes]
    exact Table.get_map _ _ _
  · subst hg
    refine ⟨guardReport_none, fun hc t ht => ?_⟩
    rw [ht]
    exact guardReport_eq n s hc
  · rintro s i a os ns k hp ho ha rfl rfl hle hroom
    obtain ⟨later, more, hu, hh⟩ := frameTick_guardNotices ho ha hle hroom
    refine ⟨_, later, more, exec_frameTick_due hp i, hu, ?_⟩
    refine hh.trans (congrArg
      (fun f => s.ins.holds.get 0 ++ (tallied (List.finRange 16) s).zipIdx.flatMap f ++ more) (funext fun x => ?_))
    have hactedAt := acted_ticked i s
    have htc : timecode (opened i s) = timecode { acted i s with clock := clockAdvanced (acted i s).clock } :=
      timecode_of_clock hactedAt.frame.symm hactedAt.rate.symm hactedAt.offset.symm
    have hframe : (opened i s).clock.frame = s.clock.frame + 1 := openedClock_frame s.clock
    rw [reportEntries, noticeEntries, hframe, htc, BitVec.add_sub_cancel]
    rfl
  · rintro s i u v w x y hp ho hu hv hw hx hy z a hz ha
    rw [exec_frameTick_due hp]
    suffices acted i s = statusTick a by rw [this]
    have hv' : guardTick (opened i s) = v := by
      rw [hv, hu]
      rfl
    have hclock : v.clock = (opened i s).clock := by simp [← hv']
    have hw' : runAct ⟨s.clock.midnightDue, s.clock.pendingRate.isSome⟩ .midnight v = w := by
      rw [hw, hu]
      simp only [runAct, hclock]
      exact if_congr (midnightDue_iff i) rfl rfl
    have hy' : addTallies (onAirTick x) = y :=
      ((addTallies_eq _).trans (congrArg _ (onAirTick_eq x))).trans hy.symm
    have hz' : runAct ⟨s.clock.midnightDue, s.clock.pendingRate.isSome⟩ .cues y
        = if s.clock.pendingRate = none then z else rebase z := by
      rw [hz]
      cases s.clock.pendingRate <;> rfl
    rw [acted_default hp ho, forEach_openingActs, hv', hw', ← hx, hy', hz', ha]
    rfl
  · have h : headDue s = true := (headDue_cons hc).trans hd
    simp only [fireDue, h, if_true]
  · have h : headDue s = false := by
      cases hc : s.cues with
      | nil => exact headDue_nil hc
      | cons e rest => rw [headDue_cons hc, hd e rest hc]
    cases k <;> simp [fireDue, h]
  · exact exec_frameTick_other hp i

end Sys2Proof.Machine
end

section
/-! The station clock in its ranges: what the reference, the rate changes, the ticks and the host's commands do to the
clock (R16, R18, R21 to R27). -/

namespace Sys2Proof.Machine

open Sys2Proof.Safety

/-! ## A clock in its ranges -/

/-- Every count of a clock lies in its range, and while LOCKED at most one frame has been missed (R16, R18, R21, R24). -/
def Clock.InRange (c : Clock) : Prop :=
  c.pos < Config.ticksPerFrame c.rate ∧ c.offset < Config.framesPerDay c.rate ∧ c.run ≤ 2 ∧ c.miss ≤ 2
    ∧ (c.lock = .locked → c.miss ≤ 1) ∧ c.interval ≤ 65535 ∧ c.rejected ≤ 65535

theorem clockOk_iff (s : State) : ClockOk s ↔ s.clock.InRange := Iff.rfl

theorem clockOk_of_clock {s t : State} (h : t.clock = s.clock) (hs : ClockOk s) : ClockOk t := by
  rw [clockOk_iff, h]
  exact hs

theorem ticksPerFrame_pos (r : Fin 5) : 0 < Config.ticksPerFrame r := by
  revert r
  decide

theorem framesPerDay_pos (r : Fin 5) : 0 < Config.framesPerDay r := Nat.mul_pos (framesPerSecond_pos r) (by decide)

theorem holdInc_le (cap n : Nat) : holdInc cap n ≤ cap := Nat.min_le_right _ _

theorem subMod_lt (a b : Nat) {d : Nat} (h : 0 < d) : subMod a b d < d := by
  have hd : (0 : Int) < d := by exact_mod_cast h
  have hn := Int.emod_nonneg ((a : Int) - b) hd.ne'
  have hl := Int.emod_lt_of_pos ((a : Int) - b) hd
  rw [subMod]
  omega

namespace Clock

variable {c : Clock}

/-! ## Commands and the load (R21, R25 to R28) -/

theorem InRange.nameRate (h : c.InRange) (r : Fin 5) : (nameRate r c).InRange := h

theorem InRange.referenceOff (h : c.InRange) : c.referenceOff.InRange := by
  obtain ⟨hpos, hoff, hrun, hmiss, -, hint, hrej⟩ := h
  exact ⟨hpos, hoff, hrun, hmiss, nofun, hint, hrej⟩

theorem InRange.referenceOn (h : c.InRange) : c.referenceOn.InRange := by
  unfold Clock.referenceOn
  split
  · obtain ⟨hpos, hoff, -⟩ := h
    exact ⟨hpos, hoff, Nat.zero_le _, Nat.zero_le _, nofun, Nat.le_refl _, Nat.zero_le _⟩
  · exact h

/-- The clock after SET_CLOCK has switched the reference, 0 being off, and named a rate (R21, R25). -/
def switched (ref : Nat) (r : Fin 5) (c : Clock) : Clock :=
  if ref = 0 then { c with lock := .free, steer := none, pendingRate := if r = c.rate then none else some r }
  else if c.lock = .free then
    { c with lock := .seeking, run := 0, miss := 0, interval := 65535, rejected := 0, mark := false,
             pendingRate := if r = c.rate then none else some r }
  else { c with pendingRate := if r = c.rate then none else some r }

theorem switched_eq (ref : Nat) (r : Fin 5) (c : Clock) :
    c.switched ref r = Clock.nameRate r (if ref = 0 then c.referenceOff else c.referenceOn) := by
  unfold switched Clock.nameRate Clock.referenceOn
  by_cases h0 : ref = 0
  · rw [if_pos h0, if_pos h0]
    rfl
  · by_cases hl : c.lock = .free
    · simp [h0, hl, Config.hold16]
    · simp [h0, hl]

theorem InRange.switched (h : c.InRange) (ref : Nat) (r : Fin 5) : (c.switched ref r).InRange := by
  rw [switched_eq]
  split
  · exact h.referenceOff.nameRate r
  · exact h.referenceOn.nameRate r

/-- The clock after the current frame has been named a timecode: only the offset moves (R27). -/
def preset (tc : Nat) (c : Clock) : Clock := { c with offset := offsetFor c.rate tc c.frame }

theorem InRange.preset (h : c.InRange) (tc : Nat) : (c.preset tc).InRange := by
  obtain ⟨hpos, -, hrest⟩ := h
  exact ⟨hpos, subMod_lt _ _ (framesPerDay_pos _), hrest⟩

/-! ## The reference (R22 to R24) -/

theorem InRange.lockOn (h : c.InRange) : c.lockOn.InRange := by
  obtain ⟨hpos, hoff, -⟩ := h
  exact ⟨hpos, hoff, Nat.le_refl 2, Nat.zero_le _, fun _ => Nat.zero_le _, Nat.zero_le _, Nat.zero_le _⟩

theorem InRange.seekOn (h : c.InRange) : c.seekOn.InRange := by
  obtain ⟨hpos, hoff, -, hmiss, hlocked, -, hrej⟩ := h
  refine ⟨hpos, hoff, by simp [Clock.seekOn], hmiss, hlocked, by simp [Clock.seekOn], ?_⟩
  unfold Clock.seekOn
  dsimp only
  split
  · exact holdInc_le _ _
  · exact hrej

theorem InRange.judgeLocked (h : c.InRange) : c.judgeLocked.InRange := by
  obtain ⟨hpos, hoff, hrun, hmiss, hlocked, hint, hrej⟩ := h
  unfold Clock.judgeLocked
  split
  · exact ⟨hpos, hoff, hrun, hmiss, hlocked, Nat.zero_le _, hrej⟩
  · exact ⟨hpos, hoff, hrun, hmiss, hlocked, hint, holdInc_le _ _⟩

/-- What the look at the frame just ended makes of the clock (R24). -/
def lookedBack (c : Clock) : Clock :=
  if c.lock ≠ .locked then c
  else if c.mark = true then { c with miss := 0, mark := false }
  else if c.miss = 0 then { c with miss := 1 }
  else { c with miss := c.miss + 1, lock := .holdover, run := 0, rejected := 0, steer := none }

theorem InRange.lookedBack (h : c.InRange) : c.lookedBack.InRange := by
  obtain ⟨hpos, hoff, hrun, hmiss, hlocked, hint, hrej⟩ := h
  unfold Clock.lookedBack
  split
  · exact ⟨hpos, hoff, hrun, hmiss, hlocked, hint, hrej⟩
  next hl =>
    have hone : c.miss ≤ 1 := hlocked (by simpa using hl)
    split
    · exact ⟨hpos, hoff, hrun, Nat.zero_le _, fun _ => Nat.zero_le _, hint, hrej⟩
    · split
      · exact ⟨hpos, hoff, hrun, Nat.le_succ 1, fun _ => Nat.le_refl 1, hint, hrej⟩
      · exact ⟨hpos, hoff, Nat.zero_le _, Nat.succ_le_succ hone, nofun, hint, Nat.zero_le _⟩

/-! ## The tick (R16 to R18, R26) -/

/-- A frame opens at position 0, which every rate has; the offset is moved within the day of the rate then in force. -/
theorem InRange.openedClock (h : c.InRange) (hp : c.pos = 0) : (openedClock c).InRange := by
  obtain ⟨-, hoff, hrest⟩ := h
  unfold Safety.openedClock
  split
  · refine ⟨?_, ?_, hrest⟩
    · simpa only [hp] using ticksPerFrame_pos c.rate
    · dsimp only
      split
      · exact Nat.mod_lt _ (framesPerDay_pos _)
      · exact hoff
  next r _ =>
    refine ⟨?_, subMod_lt _ _ (framesPerDay_pos r), hrest⟩
    simpa only [hp] using ticksPerFrame_pos r

theorem InRange.advance (h : c.InRange) : c.advance.InRange := by
  obtain ⟨-, hoff, hrun, hmiss, hlocked, -, hrej⟩ := h
  refine ⟨?_, hoff, hrun, hmiss, hlocked, holdInc_le _ _, hrej⟩
  unfold Clock.advance
  dsimp only
  split
  next hlt => exact hlt
  next => exact ticksPerFrame_pos _

end Clock

/-! ## The acts of a tick (R16, R24) -/

theorem refLossTick_clock (s : State) : (refLossTick s).clock = s.clock.lookedBack := by
  unfold refLossTick Clock.lookedBack Clock.lossDue
  by_cases hl : s.clock.lock = .locked
  · by_cases hm : s.clock.mark = true
    · simp [hl, hm]
    · by_cases h0 : s.clock.miss = 0
      · simp [hl, hm, h0]
      · simp [hl, hm, h0, Nat.one_le_iff_ne_zero.2 h0]
  · simp [hl]

/-- Only the look at the frame just ended changes the clock among the acts of a tick. -/
theorem runAct_clock (o : Opening) {a : TickAct} (h : a ≠ .refLoss) (s : State) : (runAct o a s).clock = s.clock := by
  cases a with
  | refLoss => exact absurd rfl h
  | midnight | cues =>
    simp only [runAct]
    split <;> simp
  | _ => simp [runAct]

theorem runAct_clockOk (o : Opening) (a : TickAct) {s : State} (h : ClockOk s) : ClockOk (runAct o a s) := by
  by_cases ha : a = .refLoss
  · subst ha
    rw [clockOk_iff, runAct, refLossTick_clock]
    exact Clock.InRange.lookedBack h
  · exact clockOk_of_clock (runAct_clock o ha s) h

theorem openFrame_clockOk {s : State} (h : ClockOk s) : ClockOk (openFrame s) := by
  unfold openFrame
  split
  next hp =>
    rw [clockOk_iff, State.modLanes_clock, State.modClock_clock, Clock.openFrame_eq]
    exact Clock.InRange.openedClock h hp
  next => exact h

theorem tick_clockOk (i : TickIn) {s : State} (h : ClockOk s) : ClockOk (tick i s) := by
  have hacts : ClockOk (forEach (schedule (decide (s.clock.pos = 0)) i.order) (runAct (openingOf s))
      (openFrame (s.setLevels i.levels))) :=
    forEach_inv (openFrame_clockOk (s := s.setLevels i.levels) h) fun a _ _ ht => runAct_clockOk _ a ht
  exact Clock.InRange.advance hacts

theorem tickWhen_clockOk (b : Bool) (i : TickIn) {s : State} (h : ClockOk s) : ClockOk (tickWhen b i s) := by
  cases b with
  | false => exact h
  | true => exact tick_clockOk i h

/-! ## Pulses (R22, R23) -/

theorem refPulse_free {s : State} (h : s.clock.lock = .free) : refPulse s = s := by
  simp [refPulse, h]

theorem refPulse_seeking {s : State} (h : s.clock.lock = .seeking ∨ s.clock.lock = .holdover) : refPulse s =
    if s.clock.locks = true then raise .refLocked 0 [b1 s.clock.lock.code, b2 s.clock.rejected] (s.modClock Clock.lockOn)
    else s.modClock Clock.seekOn := by
  rcases h with h | h <;> simp [refPulse, h]

theorem refPulse_locked {s : State} (h : s.clock.lock = .locked) : refPulse s = s.modClock Clock.judgeLocked := by
  simp [refPulse, h]

theorem refPulse_clockOk {s : State} (h : ClockOk s) : ClockOk (refPulse s) := by
  have hseeking (hl : s.clock.lock = .seeking ∨ s.clock.lock = .holdover) : ClockOk (refPulse s) := by
    rw [refPulse_seeking hl]
    split
    · exact clockOk_of_clock (s := s.modClock Clock.lockOn) (by simp) (Clock.InRange.lockOn h)
    · exact Clock.InRange.seekOn h
  cases hl : s.clock.lock with
  | free => rwa [refPulse_free hl]
  | seeking => exact hseeking (.inl hl)
  | holdover => exact hseeking (.inr hl)
  | locked =>
    rw [refPulse_locked hl]
    exact Clock.InRange.judgeLocked h

/-! ## SET_CLOCK (R25) -/

theorem setClock_badRate {c : Command} (h : 4 < c.word 0) (s : State) : setClock c s = (s, .refused .badField 1) := by
  simp only [setClock, asFin_eq_none.2 h]
  rfl

theorem setClock_badReference {c : Command} (h : c.word 0 ≤ 4) (h' : 1 < c.word 1) (s : State) :
    setClock c s = (s, .refused .badField 2) := by
  simp only [setClock, asFin_lt (Nat.lt_succ_of_le h), asFin_eq_none.2 h']
  rfl

/-- With its fields in range SET_CLOCK is refused for the first block that is running, or moves the clock. -/
theorem setClock_named {c : Command} {r : Fin 5} (h : c.word 0 = r.val) (h' : c.word 1 ≤ 1) (s : State) :
    setClock c s =
      if s.lanes.items.any Lane.enabled = true then (s, .refused .active 1)
      else if s.snd.inputs.items.any SoundInput.enabled = true then (s, .refused .active 2)
      else if s.home.paths.items.any HomePath.enabled = true then (s, .refused .active 3)
      else if s.store.state ≠ .off then (s, .refused .active 4)
      else ({ s with clock := s.clock.switched (c.word 1) r }, .done 0) := by
  have href : s.clock.switched (c.word 1) r = Clock.nameRate r
      ((if (⟨c.word 1, Nat.lt_succ_of_le h'⟩ : Fin 2) = 1 then Clock.referenceOn else Clock.referenceOff) s.clock) := by
    rw [Clock.switched_eq]
    by_cases h0 : c.word 1 = 0
    · rw [if_pos h0, if_neg (by simp [h0])]
    · rw [if_neg h0, if_pos (Fin.ext (by simp; omega))]
  simp only [setClock, h, asFin_val, asFin_lt (Nat.lt_succ_of_le h'), State.modClock, href]
  rfl

/-- SET_CLOCK is refused and changes nothing, or it moves the clock alone. -/
theorem setClock_cases (c : Command) (s : State) :
    (setClock c s).1 = s ∨ ∃ ref r, (setClock c s).1 = { s with clock := s.clock.switched ref r } := by
  by_cases h : 4 < c.word 0
  · exact .inl (by rw [setClock_badRate h])
  by_cases h' : 1 < c.word 1
  · exact .inl (by rw [setClock_badReference (Nat.not_lt.1 h) h'])
  rw [setClock_named (r := ⟨c.word 0, by omega⟩) rfl (Nat.not_lt.1 h')]
  (repeat' split)
  · exact .inl rfl
  · exact .inl rfl
  · exact .inl rfl
  · exact .inl rfl
  · exact .inr ⟨_, _, rfl⟩

theorem setClock_clockOk (c : Command) {s : State} (h : ClockOk s) : ClockOk (setClock c s).1 := by
  rcases setClock_cases c s with hs | ⟨ref, r, hs⟩ <;> rw [hs]
  · exact h
  · exact Clock.InRange.switched h ref r

/-! ## PRESET_TIMECODE (R27) -/

theorem presetTimecode_badField {c : Command} {s : State} (h : dayFrames s ≤ c.word 0) :
    presetTimecode c s = (s, .refused .badField 1) :=
  if_pos h

theorem presetTimecode_done {c : Command} {s : State} (h : c.word 0 < dayFrames s) :
    presetTimecode c s = (rebase (s.modClock (Clock.preset (c.word 0))), .done 0) :=
  if_neg (Nat.not_le.2 h)

theorem presetTimecode_clockOk (c : Command) {s : State} (h : ClockOk s) : ClockOk (presetTimecode c s).1 := by
  by_cases hw : dayFrames s ≤ c.word 0
  · rwa [presetTimecode_badField hw]
  · rw [presetTimecode_done (Nat.not_le.1 hw)]
    exact clockOk_of_clock (s := s.modClock (Clock.preset (c.word 0))) (by simp) (Clock.InRange.preset h _)

/-! ## The start-up load and the resets (R14, R28, R172) -/

theorem loadClock_clockOk (data : Nat) {s : State} (h : ClockOk s) : ClockOk (loadClock data s) := by
  have href (t : State) (ht : ClockOk t) :
      ClockOk (t.modClock (if data / 256 % 256 = 0 then Clock.referenceOff else Clock.referenceOn)) := by
    split
    · exact Clock.InRange.referenceOff ht
    · exact Clock.InRange.referenceOn ht
  refine href _ ?_
  split
  · exact Clock.InRange.nameRate h _
  · exact h

theorem applyEntry_clockOk (tag data : Nat) {s : State} (h : ClockOk s) : ClockOk (applyEntry tag data s) := by
  unfold applyEntry
  split
  · exact h
  · exact h
  · exact loadClock_clockOk data h
  · exact clockOk_of_clock (by simp) h
  · exact h
  · exact h

theorem loadEntry_clockOk (i : Nat) (last : Option Nat) (e : Option (BitVec 64)) (levels : BitVec 12) {s : State}
    (h : ClockOk s) : ClockOk (loadEntry i last e levels s) := by
  have hend (result : LoadResult) (err : Nat) {t : State} (ht : ClockOk t) : ClockOk (endLoad result err levels t) :=
    clockOk_of_clock (by simp) ht
  cases e with
  | none =>
    simp only [loadEntry]
    split <;> exact hend _ _ h
  | some e =>
    simp only [loadEntry]
    split
    · exact hend _ _ h
    · split
      · exact hend _ _ h
      · split
        · exact hend _ _ h
        · split
          · exact applyEntry_clockOk _ _ h
          · exact hend _ _ (applyEntry_clockOk _ _ h)

theorem powerOnReset_clockOk {b : Bool} {s t : State} (ht : exec (.powerOnReset b) s = .next t) : ClockOk t := by
  cases ht
  refine clockOk_of_clock (s := State.reset) ?_ reset_clockOk
  cases b <;> simp

theorem carryOut_clockOk {p : Nat → Bool} {f : Command → State → State × Result} {s : State} (h : ClockOk s)
    (hf : ∀ c, ClockOk (f c s).1) : ClockOk (carryOut p f s) :=
  carryOut_keeps h hf fun _ _ _ ht => ht

/-! ## Every step (R16, R18, R21, R24) -/

theorem exec_clockOk (c : Instr) : KeptBy ClockOk c := by
  intro s t hs ht
  cases c with
  | powerOnReset b => exact powerOnReset_clockOk ht
  | linkReset =>
    rw [exec_linkReset_eq] at ht
    cases ht
    exact clockOk_of_clock (s := linkResetBlocks s) (by simp) hs
  | configEntryRead e b =>
    cases hl : s.ctl.loader with
    | reading i last =>
      rw [exec_configEntryRead_reading e b hl] at ht
      cases ht
      exact clockOk_of_clock (by simp) (loadEntry_clockOk i last e b hs)
    | ended =>
      rw [exec_configEntryRead_ended e b hl] at ht
      cases ht
      exact hs
  | requestAccept r =>
    rw [exec_requestAccept_next ht]
    exact clockOk_of_clock (by simp) hs
  | refPulse => cases ht; exact refPulse_clockOk hs
  | sampleTick i => cases ht; exact tick_clockOk i hs
  | frameTick | frameCountWrap | midnight | refLost | soundSilent | soundUnitClose | markConfirm | stall | cueFiring =>
    cases ht
    exact tickWhen_clockOk _ _ hs
  | setClock => cases ht; exact carryOut_clockOk hs fun c => setClock_clockOk c hs
  | presetTimecode => cases ht; exact carryOut_clockOk hs fun c => presetTimecode_clockOk c hs
  | _ => cases ht; exact clockOk_of_clock (by simp) hs

/-- Settles O7: only the reference, the ticks, SET_CLOCK, PRESET_TIMECODE and the load touch the clock, and a frame opens
at position 0, which lies in a frame of every rate. -/
theorem clockStaysInRange : Obligations.ClockStaysInRange :=
  keptByStep_of_exec (fun _ _ h => h) exec_clockOk

end Sys2Proof.Machine
end

section
/-! SET_CLOCK and PRESET_TIMECODE (R25, R27, R158). -/

namespace Sys2Proof.Table

variable {α : Type} {n : Nat}

/-- Some entry of a table has a property exactly when some place holds such an entry. -/
theorem any_items (t : Table α n) (p : α → Bool) : t.items.any p = true ↔ ∃ i, p (t.get i) = true := by
  rw [List.any_eq_true]
  constructor
  · rintro ⟨a, ha, hp⟩
    obtain ⟨i, rfl⟩ := mem_items.1 ha
    exact ⟨i, hp⟩
  · rintro ⟨i, hp⟩
    exact ⟨_, mem_items.2 ⟨i, rfl⟩, hp⟩

end Sys2Proof.Table

namespace Sys2Proof.Machine

open Sys2Proof.Safety

/-! ## SET_CLOCK (R25) -/

theorem exec_setClock_head {s : State} {c : Command} (h : AtHead c s) (hc : c.code = 3) :
    exec .setClock s = .next (answered c (setClock c s).2 (setClock c s).1) := by
  obtain ⟨rest, hq⟩ := h
  rw [exec_setClock, carryOut_head hq (by simp [codeIs, hc])]

theorem exec_presetTimecode_head {s : State} {c : Command} (h : AtHead c s) (hc : c.code = 4) :
    exec .presetTimecode s = .next (answered c (presetTimecode c s).2 (presetTimecode c s).1) := by
  obtain ⟨rest, hq⟩ := h
  rw [exec_presetTimecode, carryOut_head hq (by simp [codeIs, hc])]

/-- The answer to a choice of outcomes is the choice of the answers. -/
theorem answered_ite (c : Command) (p : Prop) [Decidable p] (x y : State × Result) :
    answered c (if p then x else y).2 (if p then x else y).1 = if p then answered c x.2 x.1 else answered c y.2 y.1 := by
  split <;> rfl

theorem exec_setClock_named {s : State} {c : Command} (hh : AtHead c s) (hc : c.code = 3) {r : Fin 5}
    (h : c.word 0 = r.val) (h' : c.word 1 ≤ 1) : exec .setClock s = .next
      (if ∃ l, (s.lanes.get l).enabled = true then answered c (.refused .active 1) s
      else if ∃ n, (s.snd.inputs.get n).enabled = true then answered c (.refused .active 2) s
      else if ∃ p, (s.home.paths.get p).state ≠ .off then answered c (.refused .active 3) s
      else if s.store.state ≠ .off then answered c (.refused .active 4) s
      else answered c (.done 0) { s with clock := s.clock.switched (c.word 1) r }) := by
  have hpaths : s.home.paths.items.any HomePath.enabled = true ↔ ∃ p, (s.home.paths.get p).state ≠ .off := by
    simp only [Table.any_items, HomePath.enabled, decide_eq_true_eq]
  rw [exec_setClock_head hh hc, setClock_named h h', answered_ite, answered_ite, answered_ite, answered_ite]
  simp only [Table.any_items, hpaths]

/-! ## Rebasing (R158) -/

/-- A rebasing reports the skipped entries and sets the table in order; nothing else changes. -/
theorem rebase_eq (s : State) : rebase s = { (s.cues.filter fun x => skips x s).foldl
    (fun y x => raise .cueSkipped x.id [b4 x.dueTc] y) s with cues := (rebase s).cues } := by
  simp only [rebase, cueSkipped_eq]
  rfl

/-- A rebasing touches the table, and by its notices the control block and its hold. -/
theorem rebase_blocks (s : State) :
    rebase s = { s with cues := (rebase s).cues, ctl := (rebase s).ctl, ins := (rebase s).ins } := by
  have hf := rebase_frame s
  cases h : rebase s
  simp only [h] at hf
  simp only [hf]

theorem rebase_no_cues {s : State} (h : s.cues = []) : (rebase s).ctl = s.ctl ∧ (rebase s).ins = s.ins := by
  simp [rebase, h]

theorem framesAhead_of_clock {s t : State} (h : t.clock = s.clock) (x : Cue) : framesAhead x t = framesAhead x s := by
  simp only [framesAhead, timecode, dayFrames, h]

theorem skips_of_clock {s t : State} (h : t.clock = s.clock) (x : Cue) : skips x t = skips x s := by
  rw [skips, skips, decide_eq_decide]
  simp only [framesAhead_of_clock h, dayFrames, h]

theorem mem_rebase_cues (s : State) (e : Cue) : e ∈ (rebase s).cues ↔ ∃ x ∈ s.cues, skips x s = false
    ∧ e = { x with due := s.clock.frame + BitVec.ofNat 32 (framesAhead x s), late := false } := by
  simp only [rebase_cues, mem_sortBy, rebasedEntries, List.mem_map, List.mem_filter, Bool.not_eq_true', and_assoc,
    eq_comm (a := e)]

/-! ## PRESET_TIMECODE (R27) -/

theorem timecode_preset {tc : Nat} {s : State} (h : tc < dayFrames s) : timecode (s.modClock (Clock.preset tc)) = tc :=
  add_offset_mod h

/-- Settles O43. -/
theorem clockCommandsNameRateAndTimecode : Obligations.ClockCommandsNameRateAndTimecode := by
  refine ⟨fun s c hh hc => ⟨fun h => ?_, fun h h' => ?_, fun r h h' => ?_⟩,
    fun s c hh hc => ⟨fun h => ?_, fun h => ?_⟩, fun s => ⟨_, rebased_rebase s, rebase_eq s⟩⟩
  · rw [exec_setClock_head hh hc, setClock_badRate h]
  · rw [exec_setClock_head hh hc, setClock_badReference h h']
  · exact exec_setClock_named hh hc h h'
  · rw [exec_presetTimecode_head hh hc, presetTimecode_badField h]
  · obtain ⟨u, hu⟩ : ∃ u, u = s.modClock (Clock.preset (c.word 0)) := ⟨_, rfl⟩
    have hclock : (rebase u).clock = u.clock := by simp
    have htc : timecode u = c.word 0 := by rw [hu, timecode_preset h]
    refine ⟨u, rebase u, ?_, by rw [hu]; rfl, htc, ?_, rfl, ?_, ?_, fun e => ?_, fun he => ?_⟩
    · rw [exec_presetTimecode_head hh hc, presetTimecode_done h, hu]
    · rw [hu]
      exact subMod_lt _ _ (dayFrames_pos s)
    · rw [timecode, hclock]
      exact htc
    · rw [hclock, hu]
      exact rebase_blocks _
    · simp only [skips_of_clock hclock, framesAhead_of_clock hclock, mem_rebase_cues]
      rw [hu]
      rfl
    · rw [hu]
      exact rebase_no_cues (s := s.modClock _) he

end Sys2Proof.Machine
end

section
/-! The reference: pulses by the lock state, and its loss (R21 to R24). -/

namespace Sys2Proof.Machine

open Sys2Proof.Safety

/-! ## Pulses (R22, R23) -/

section
variable {s : State} {near : Nat → Prop}
  (hnear : ∀ n, near n ↔ n * (48000 / Config.framesPerSecond s.clock.rate) ≤ s.clock.interval + 2
    ∧ s.clock.interval ≤ n * (48000 / Config.framesPerSecond s.clock.rate) + 2)
include hnear

theorem inStep_iff (n : Nat) : s.clock.inStep n = true ↔ near n := by
  rw [hnear, Clock.inStep, Bool.and_eq_true, decide_eq_true_eq, decide_eq_true_eq]
  rfl

theorem locks_iff : s.clock.locks = true ↔ s.clock.run = 1 ∧ near 1 := by
  simp only [Clock.locks, Bool.and_eq_true, decide_eq_true_eq, inStep_iff hnear]

theorem refPulse_locks (h : s.clock.lock = .seeking ∨ s.clock.lock = .holdover) (hr : s.clock.run = 1) (hn : near 1) :
    refPulse s = raise .refLocked 0 [b1 (if s.clock.lock = .seeking then 1 else 3), b2 s.clock.rejected]
      { s with clock := { s.clock with
          lock := .locked, run := 2, interval := 0, miss := 0, mark := true, rejected := 0 } } := by
  have hcode : s.clock.lock.code = if s.clock.lock = .seeking then 1 else 3 := by
    rcases h with h | h <;> rw [h] <;> rfl
  rw [refPulse_seeking h, if_pos ((locks_iff hnear).2 ⟨hr, hn⟩), hcode]
  rfl

theorem refPulse_rejected (h : s.clock.lock = .seeking ∨ s.clock.lock = .holdover) (hr : s.clock.run = 1)
    (hn : ¬near 1) : refPulse s =
      { s with clock := { s.clock with run := 1, interval := 0, rejected := min (s.clock.rejected + 1) 65535 } } := by
  rw [refPulse_seeking h, if_neg fun hl => hn ((locks_iff hnear).1 hl).2]
  simp only [State.modClock, Clock.seekOn, if_pos hr]
  rfl

theorem refPulse_first (h : s.clock.lock = .seeking ∨ s.clock.lock = .holdover) (hr : s.clock.run ≠ 1) :
    refPulse s = { s with clock := { s.clock with run := 1, interval := 0 } } := by
  rw [refPulse_seeking h, if_neg fun hl => hr ((locks_iff hnear).1 hl).1]
  simp only [State.modClock, Clock.seekOn, if_neg hr]

theorem refPulse_accepted (h : s.clock.lock = .locked) (hn : near 1 ∨ near 2) : refPulse s =
    { s with clock := { s.clock with interval := 0, mark := true, steer := some s.clock.pos } } := by
  have hstep : (s.clock.inStep 1 || s.clock.inStep 2) = true := by
    simpa only [Bool.or_eq_true, inStep_iff hnear] using hn
  rw [refPulse_locked h, State.modClock, Clock.judgeLocked, if_pos hstep]

theorem refPulse_refused (h : s.clock.lock = .locked) (hn : ¬(near 1 ∨ near 2)) : refPulse s =
    { s with clock := { s.clock with rejected := min (s.clock.rejected + 1) 65535 } } := by
  have hstep : ¬(s.clock.inStep 1 || s.clock.inStep 2) = true := by
    simpa only [Bool.or_eq_true, inStep_iff hnear] using hn
  rw [refPulse_locked h, State.modClock, Clock.judgeLocked, if_neg hstep]
  rfl

end

/-! ## The look at the frame just ended (R24) -/

section
variable {s : State}

theorem refLossTick_other (h : s.clock.lock ≠ .locked) : refLossTick s = s := by
  simp [refLossTick, h]

theorem refLossTick_marked (h : s.clock.lock = .locked) (hm : s.clock.mark = true) :
    refLossTick s = { s with clock := { s.clock with miss := 0, mark := false } } := by
  simp [refLossTick, h, hm, State.modClock]

theorem refLossTick_missed (h : s.clock.lock = .locked) (hm : s.clock.mark = false) (h0 : s.clock.miss = 0) :
    refLossTick s = { s with clock := { s.clock with miss := 1 } } := by
  simp [refLossTick, Clock.lossDue, h, hm, h0, State.modClock]

theorem lossDue_iff : s.clock.lossDue = true ↔ s.clock.lock = .locked ∧ s.clock.mark = false ∧ 1 ≤ s.clock.miss := by
  simp [Clock.lossDue, and_assoc]

theorem refLossTick_lost (h : s.clock.lock = .locked) (hm : s.clock.mark = false) (h1 : 1 ≤ s.clock.miss) :
    refLossTick s = raise .refLost 0 [b2 s.clock.rejected] { s with clock := { s.clock with
      miss := s.clock.miss + 1, lock := .holdover, run := 0, rejected := 0, steer := none } } := by
  have hdue := lossDue_iff.2 ⟨h, hm, h1⟩
  simp [refLossTick, hdue, h, hm, State.modClock]

end

/-! ## REF_LOST -/

/-- Of the acts of a frame tick, taken in any order, only the look at the frame just ended changes the clock. -/
theorem acted_clock (i : TickIn) (s : State) : (acted i s).clock = (openedClock s.clock).lookedBack := by
  obtain ⟨before, after, hs, hbefore, hafter⟩ := schedule_split (a := .refLoss) (by decide) i.order
  have hkeep {acts : List TickAct} (h : .refLoss ∉ acts) (o : Opening) (t : State) :
      (forEach acts (runAct o) t).clock = t.clock :=
    forEach_inv (Inv := fun u => u.clock = t.clock) rfl fun a ha u hu =>
      (runAct_clock o (fun he => h (he ▸ ha)) u).trans hu
  rw [acted, hs, forEach_append, forEach_cons, hkeep hafter, runAct, refLossTick_clock, hkeep hbefore]
  rfl

theorem openedClock_reference (c : Clock) :
    (openedClock c).lock = c.lock ∧ (openedClock c).mark = c.mark ∧ (openedClock c).miss = c.miss := by
  unfold openedClock
  split <;> exact ⟨rfl, rfl, rfl⟩

/-- The clock that loses its reference at a frame tick (R24). -/
theorem lookedBack_lost {c : Clock} (h : c.lock = .locked) (hm : c.mark = false) (h1 : c.miss = 1) :
    c.lookedBack = { c with miss := 2, lock := .holdover, run := 0, rejected := 0, steer := none } := by
  simp [Clock.lookedBack, h, hm, h1]

theorem exec_refLost_due {s : State} (i : TickIn) (hl : s.clock.lock = .locked) (hm : s.clock.mark = false)
    (h1 : 1 ≤ s.clock.miss) : exec (.refLost i) s = exec (.frameTick i) s := by
  rw [exec_refLost, lossDue_iff.2 ⟨hl, hm, h1⟩, Bool.and_true, exec_frameTick]

theorem exec_refLost_other {s : State} (i : TickIn) (h : s.clock.mark = true ∨ s.clock.miss = 0 ∨ s.clock.lock ≠ .locked) :
    exec (.refLost i) s = .next s := by
  have hno : s.clock.lossDue = false := by
    rw [Bool.eq_false_iff, Ne, lossDue_iff]
    rintro ⟨hl, hm, h1⟩
    rcases h with h | h | h
    · rw [hm] at h
      cases h
    · omega
    · exact h hl
  rw [exec_refLost, hno, Bool.and_false]
  rfl

/-- Settles O35. -/
theorem refPulsesAndLossesMoveTheLock : Obligations.RefPulsesAndLossesMoveTheLock := by
  refine ⟨fun s near hnear => ⟨fun h => ?_, fun h => ⟨?_, ?_, ?_⟩, fun h => ⟨?_, ?_⟩⟩, fun s i hp hl hm h1 => ?_,
    fun s i _ hl hm h1 => exec_refLost_due i hl hm h1,
    fun s => ⟨refLossTick_other, refLossTick_marked, refLossTick_missed, refLossTick_lost⟩,
    fun s i h => exec_refLost_other i h⟩
  · rw [exec_refPulse, refPulse_free h]
  · rintro ⟨hr, hn⟩
    rw [exec_refPulse, refPulse_locks hnear h hr hn]
  · intro hr hn
    rw [exec_refPulse, refPulse_rejected hnear h hr hn]
  · intro hr
    rw [exec_refPulse, refPulse_first hnear h hr]
  · intro hn
    rw [exec_refPulse, refPulse_accepted hnear h hn]
  · intro hn
    rw [exec_refPulse, refPulse_refused hnear h hn]
  · obtain ⟨hlock, hmark, hmiss⟩ := openedClock_reference s.clock
    have hclock := acted_clock i s
    rw [lookedBack_lost (hlock.trans hl) (hmark.trans hm) (hmiss.trans h1)] at hclock
    refine ⟨_, (exec_refLost_due i hl hm h1.ge).trans (exec_frameTick_due hp i), ?_⟩
    simp only [clockAdvanced, hclock, openedClock_frame, hmark, hm, and_self]

end Sys2Proof.Machine
end

section
/-! What the blocks' work at a tick leaves of the control block's counts and of the mixer's hold: notices are raised one
after another, each written while the ring has a slot and else lost (R178), and only the monitor record joins the mixer's
hold (R88). -/

namespace Sys2Proof.Machine

open Sys2Proof.Safety

/-- What notices raised one after another make of the control block, the ring having `slots` slots (R178). -/
inductive Control.Noted (slots : Nat) (c : Control) : Control → Prop
  | refl : Control.Noted slots c c
  | lost {d : Control} (h : Control.Noted slots c d) : Control.Noted slots c (d.lose 1)
  | written {d : Control} (kind : NoticeKind) (h : Control.Noted slots c d) (hroom : d.written - d.released < slots) :
    Control.Noted slots c (d.noteWritten kind)

theorem Control.Noted.trans {n : Nat} {c d e : Control} (h : Control.Noted n c d) (h' : Control.Noted n d e) :
    Control.Noted n c e := by
  induction h' with
  | refl => exact h
  | lost _ ih => exact ih.lost
  | written k _ hroom ih => exact ih.written k hroom

theorem Control.Noted.released {n : Nat} {c d : Control} (h : Control.Noted n c d) : d.released = c.released := by
  induction h with
  | refl => rfl
  | lost _ ih => exact ih
  | written k _ _ ih => exact ih

theorem Control.Noted.written_le {n : Nat} {c d : Control} (h : Control.Noted n c d) : c.written ≤ d.written := by
  induction h with
  | refl => exact Nat.le_refl _
  | lost _ ih => exact ih
  | written k _ _ ih => exact Nat.le_succ_of_le ih

/-- The slots of the notice ring; none while NOTICES is UNSET. -/
def noticeRoom (s : State) : Nat := ((ap .notices s).map fun a => noticeSlots a.size).getD 0

/-- From `s` to `t` the blocks have worked at a tick: the map stands, the control block has no more than noted notices,
and the mixer has taken the entries `es` into its hold. -/
def Worked (s : State) (es : List InsEntry) (t : State) : Prop :=
  t.aps.map = s.aps.map ∧ Control.Noted (noticeRoom s) s.ctl t.ctl ∧ t.ins.holds.get 4 = s.ins.holds.get 4 ++ es

/-! ## What follows from it -/

theorem noticeRoom_of_map {s t : State} (h : t.aps.map = s.aps.map) : noticeRoom t = noticeRoom s := by
  rw [noticeRoom, noticeRoom, ap_of_map h]

@[simp] theorem Worked.refl (s : State) : Worked s [] s := ⟨rfl, .refl, (List.append_nil _).symm⟩

theorem Worked.trans {s t u : State} {es es' : List InsEntry} (h : Worked s es t) (h' : Worked t es' u) :
    Worked s (es ++ es') u := by
  obtain ⟨hm, hc, hi⟩ := h
  obtain ⟨hm', hc', hi'⟩ := h'
  rw [noticeRoom_of_map hm] at hc'
  exact ⟨hm'.trans hm, hc.trans hc', by rw [hi', hi, List.append_assoc]⟩

/-- Work behind which the mixer takes no entry. -/
theorem Worked.trans_nil {s t u : State} {es : List InsEntry} (h : Worked s es t) (h' : Worked t [] u) :
    Worked s es u := by
  simpa using h.trans h'

variable {s₀ s : State} {es : List InsEntry}

/-! ## Changes of the other blocks -/

@[simp] theorem modClock_worked (f : Clock → Clock) : Worked s₀ es (s.modClock f) ↔ Worked s₀ es s := Iff.rfl
@[simp] theorem modSnd_worked (f : Sound → Sound) : Worked s₀ es (s.modSnd f) ↔ Worked s₀ es s := Iff.rfl
@[simp] theorem modInput_worked (i : Fin 4) (f : SoundInput → SoundInput) :
    Worked s₀ es (s.modInput i f) ↔ Worked s₀ es s := Iff.rfl
@[simp] theorem modBus_worked (b : Fin 8) (f : Bus → Bus) : Worked s₀ es (s.modBus b f) ↔ Worked s₀ es s := Iff.rfl
@[simp] theorem modPath_worked (p : Fin 2) (f : HomePath → HomePath) :
    Worked s₀ es (s.modPath p f) ↔ Worked s₀ es s := Iff.rfl
@[simp] theorem modStore_worked (f : Store → Store) : Worked s₀ es (s.modStore f) ↔ Worked s₀ es s := Iff.rfl
@[simp] theorem modPin_worked (p : Fin 12) (f : Pin → Pin) : Worked s₀ es (s.modPin p f) ↔ Worked s₀ es s := Iff.rfl
@[simp] theorem modLog_worked (f : ClipLog → ClipLog) : Worked s₀ es (s.modLog f) ↔ Worked s₀ es s := Iff.rfl
@[simp] theorem modRec_worked (i : Fin 256) (f : Clip → Clip) : Worked s₀ es (s.modRec i f) ↔ Worked s₀ es s := Iff.rfl
@[simp] theorem modCues_worked (f : List Cue → List Cue) : Worked s₀ es (s.modCues f) ↔ Worked s₀ es s := Iff.rfl

/-- What leaves the map, the control block and the holds. -/
theorem Worked.of_blocks {t : State} (h : Worked s₀ es s) (hm : t.aps = s.aps) (hc : t.ctl = s.ctl) (hi : t.ins = s.ins) :
    Worked s₀ es t := by
  unfold Worked at *
  rwa [hm, hc, hi]

/-! ## Entries, notices, repetition (R12, R178) -/

@[simp] theorem byPath_ne_mixer (p : Fin 2) : byPath p ≠ 4 := by
  revert p
  decide

/-- Entries of another block than the mixer. -/
@[simp] theorem pushAll_worked {b : Fin 6} (hb : b ≠ 4) (l : List InsEntry) (h : Worked s₀ es s) :
    Worked s₀ es (pushAll b l s) := by
  refine h.trans_nil ⟨rfl, .refl, ?_⟩
  rw [pushAll_holds, if_neg hb, List.append_nil]

@[simp] theorem push_worked {b : Fin 6} (hb : b ≠ 4) (e : InsEntry) (h : Worked s₀ es s) : Worked s₀ es (push b e s) :=
  pushAll_worked hb [e] h

@[simp] theorem raiseAt_worked (n : W32) (tc : Nat) (k : NoticeKind) (j : Nat) (d : List Item) (h : Worked s₀ es s) :
    Worked s₀ es (raiseAt n tc k j d s) := by
  rcases raiseAt_cases n tc k j d s with ⟨he, -⟩ | ⟨a, l, ha, hroom, -, he⟩
  · obtain ⟨hm, hc, hi⟩ := h
    rw [he]
    exact ⟨hm, hc.lost, hi⟩
  · have ⟨hmap, _, _⟩ := h
    have hslots : s.ctl.written - s.ctl.released < noticeRoom s₀ := by
      rw [← noticeRoom_of_map hmap, noticeRoom, ha]
      exact hroom
    obtain ⟨hm, hc, hi⟩ := pushAll_worked (b := byControl) (by decide) l h
    rw [he]
    exact ⟨hm, hc.written k hslots, hi⟩

@[simp] theorem raise_worked (k : NoticeKind) (j : Nat) (d : List Item) (h : Worked s₀ es s) :
    Worked s₀ es (raise k j d s) :=
  raiseAt_worked _ _ k j d h

@[simp] theorem forEach_worked {α : Type} {f : α → State → State} (hf : ∀ i t, Worked t [] (f i t)) (l : List α)
    (h : Worked s₀ es s) : Worked s₀ es (forEach l f s) :=
  forEach_inv h fun i _ t ht => ht.trans_nil (hf i t)

/-! ## The clip log's mirror (R148) -/

@[simp] theorem writeRecord_worked (i : Fin 256) (h : Worked s₀ es s) : Worked s₀ es (writeRecord i s) := by
  unfold writeRecord
  split
  · exact h
  · exact push_worked (by decide) _ h

@[simp] theorem mirror_worked (i : Fin 256) (h : Worked s₀ es s) : Worked s₀ es (mirror i s) := writeRecord_worked i h

@[simp] theorem changeRec_worked (i : Fin 256) (f : Clip → Clip) (h : Worked s₀ es s) : Worked s₀ es (changeRec i f s) :=
  mirror_worked i h

/-! ## The home paths (R95 to R112) -/

@[simp] theorem ringHeaderWrite_worked (p : Fin 2) (v : Nat) (e : JoinEffect) (h : Worked s₀ es s) :
    Worked s₀ es (ringHeaderWrite p v e s) := push_worked (byPath_ne_mixer p) _ h

@[simp] theorem padStep_worked (p : Fin 2) (f : Fit) (h : Worked s₀ es s) : Worked s₀ es (padStep p f s) := by
  have hpad (e : Nat) : Worked s₀ es (padWrite p e s) := push_worked (byPath_ne_mixer p) _ h
  cases f with
  | plain | no => exact h
  | padded e | passedOver e => exact hpad e

@[simp] theorem dataStep_worked (p : Fin 2) (u : MUnit) (n : Nat) (h : Worked s₀ es s) : Worked s₀ es (dataStep p u n s) :=
  pushAll_worked (byPath_ne_mixer p) _ h

@[simp] theorem pressureTest_worked (p : Fin 2) (k : UnitKind) (h : Worked s₀ es s) :
    Worked s₀ es (pressureTest p k s) := by
  simp only [pressureTest]
  split
  · exact raise_worked _ _ _ h
  · exact h

@[simp] theorem place_worked (p : Fin 2) (u : MUnit) (n : Nat) (h : Worked s₀ es s) : Worked s₀ es (place p u n s) :=
  pressureTest_worked _ _ (ringHeaderWrite_worked _ _ _ (dataStep_worked _ _ _ (padStep_worked _ _ h)))

@[simp] theorem offerLive_worked (src : Fin 5) (u : MUnit) (p : Fin 2) (h : Worked s₀ es s) :
    Worked s₀ es (offerLive src u p s) := by
  simp only [offerLive]
  split
  · exact place_worked _ _ _ h
  · exact h

@[simp] theorem offerTag_worked (u : MUnit) (p : Fin 2) (h : Worked s₀ es s) : Worked s₀ es (offerTag u p s) := by
  simp only [offerTag]
  (repeat' split) <;> simp [h]

@[simp] theorem stallTick_worked (p : Fin 2) (h : Worked s₀ es s) : Worked s₀ es (stallTick p s) := by
  simp only [stallTick]
  (repeat' split) <;> simp [h]

@[simp] theorem offerToRoute_worked {f : Fin 2 → State → State} (hf : ∀ p t, Worked t [] (f p t)) (h : Worked s₀ es s) :
    Worked s₀ es (offerToRoute f s) :=
  forEach_worked hf _ h

/-! ## Clips and the store (R117 to R127) -/

@[simp] theorem loseClip_worked (i : Fin 256) (h : Worked s₀ es s) : Worked s₀ es (loseClip i s) := by
  simp only [loseClip]
  split <;> simp [h]

@[simp] theorem resolveFirst_worked (l : Fin 4) (e : IndexEntry) (b : List IndexEntry) (h : Worked s₀ es s) :
    Worked s₀ es (resolveFirst l e b s) :=
  forEach_worked (fun i _ => changeRec_worked i _ (.refl _)) _ h

@[simp] theorem storeHeaderWrite_worked (h : Worked s₀ es s) : Worked s₀ es (storeHeaderWrite s) :=
  push_worked (by decide) _ h

@[simp] theorem markGaps_worked (src : Option (Fin 4)) (n : W32) (h : Worked s₀ es s) : Worked s₀ es (markGaps src n s) :=
  forEach_worked (fun i _ => changeRec_worked i _ (.refl _)) _ h

@[simp] theorem refuseOffer_worked (src : Option (Fin 4)) (n : W32) (i : Fin 256) (h : Worked s₀ es s) :
    Worked s₀ es (refuseOffer src n i s) := by
  simp only [refuseOffer]
  split <;> simp [h]

@[simp] theorem unitLeaves_worked (u : StoredUnit) (h : Worked s₀ es s) : Worked s₀ es (unitLeaves u s) :=
  forEach_worked (fun i _ => loseClip_worked i (.refl _)) _ h

@[simp] theorem storePadStep_worked (e : Nat) (h : Worked s₀ es s) : Worked s₀ es (storePadStep e s) := by
  unfold storePadStep
  split
  · exact h
  · exact push_worked (by decide) _ h

@[simp] theorem storeDataStep_worked (src : Option (Fin 4)) (n : W32) (u : MUnit) (h : Worked s₀ es s) :
    Worked s₀ es (storeDataStep src n u s) :=
  pushAll_worked (by decide) _ h

@[simp] theorem indexStep_worked (l : Fin 4) (n q : W32) (c : Nat) (h : Worked s₀ es s) :
    Worked s₀ es (indexStep l n q c s) := by
  simp only [indexStep]
  (repeat' split) <;> simp [h]

/-- What a stored unit makes leave is overwritten first, and the cells before its first one (R120, R121). -/
@[simp] theorem storeUnit_worked (src : Option (Fin 4)) (n : W32) (u : MUnit) (a b : List Retained)
    (h : Worked s₀ es s) : Worked s₀ es (storeUnit src n u a b s) := by
  have hdata (k : State → Nat) : Worked s₀ es (storeDataStep src n u
      (storePadStep (k (forEach (a.filterMap (·.unit)) unitLeaves (s.modStore fun st => { st with retained := b })))
        (forEach (a.filterMap (·.unit)) unitLeaves (s.modStore fun st => { st with retained := b })))) :=
    storeDataStep_worked _ _ _ (storePadStep_worked _ (forEach_worked (fun x _ => unitLeaves_worked x (.refl _)) _ h))
  cases src with
  | none => exact storeHeaderWrite_worked (hdata fun t => storePad (storeCells t) t.store.head u.cells)
  | some l =>
    exact storeHeaderWrite_worked (indexStep_worked l n _ _ (hdata fun t => storePad (storeCells t) t.store.head u.cells))

@[simp] theorem resumeStore_worked (h : Worked s₀ es s) : Worked s₀ es (resumeStore s) := by
  unfold resumeStore
  split
  · exact raise_worked _ _ _ h
  · exact h
  · exact h

@[simp] theorem offerStore_worked (src : Option (Fin 4)) (n : W32) (u : MUnit) (h : Worked s₀ es s) :
    Worked s₀ es (offerStore src n u s) := by
  simp only [offerStore]
  split
  · exact refuseOffer_worked _ _ _ h
  · exact storeUnit_worked _ _ _ _ _ (resumeStore_worked h)

/-! ## Marks and labels (R138 to R149) -/

@[simp] theorem sendTag_worked (i : Fin 256) (e : TagEvent) (h : Worked s₀ es s) : Worked s₀ es (sendTag i e s) :=
  offerToRoute_worked (fun p _ => offerTag_worked _ p (.refl _)) h

@[simp] theorem closeClip_worked (i : Fin 256) (n : W32) (tc : Nat) (o : Origin) (h : Worked s₀ es s) :
    Worked s₀ es (closeClip i n tc o s) :=
  mirror_worked _ (sendTag_worked _ _ (raise_worked _ _ _ h))

theorem closedForMarkIn_worked (src : Fin 4) (f : W32) (tc : Nat) (o : Origin) (h : Worked s₀ es s) :
    Worked s₀ es (closedForMarkIn src f tc o s) := by
  simp only [closedForMarkIn]
  (repeat' split) <;> simp [h]

theorem openedByMarkIn_worked (i : Fin 256) (src : Fin 4) (f : W32) (tc : Nat) (h : Worked s₀ es s) :
    Worked s₀ es (openedByMarkIn i src f tc s) := by
  simp only [openedByMarkIn, modLog_worked, resolveOpen]
  (repeat' split) <;> exact h

@[simp] theorem markIn_worked (src : Fin 4) (g : W32) (c p : Nat) (o : Origin) (h : Worked s₀ es s) :
    Worked s₀ es (markIn src g c p o s).1 := by
  have hclosed := closedForMarkIn_worked src (g - BitVec.ofNat 32 p) (subMod c p (dayFrames s)) o h
  have hcases : (markIn src g c p o s).1
        = raise .logFull 0 [b1 src.val, b4 (g - BitVec.ofNat 32 p).toNat, o.item]
            (closedForMarkIn src (g - BitVec.ofNat 32 p) (subMod c p (dayFrames s)) o s)
      ∨ ∃ i n d, (markIn src g c p o s).1 = mirror i (sendTag i .opened (raise .clipOpened n d
          (openedByMarkIn i src (g - BitVec.ofNat 32 p) (subMod c p (dayFrames s))
            (closedForMarkIn src (g - BitVec.ofNat 32 p) (subMod c p (dayFrames s)) o s)))) := by
    unfold markIn
    dsimp only
    split
    · exact .inl rfl
    · exact .inr ⟨_, _, _, rfl⟩
  rcases hcases with he | ⟨i, n, d, he⟩ <;> rw [he]
  · exact raise_worked _ _ _ hclosed
  · exact mirror_worked _ (sendTag_worked _ _ (raise_worked _ _ _ (openedByMarkIn_worked _ _ _ _ hclosed)))

@[simp] theorem markOut_worked (src : Fin 4) (g : W32) (c : Nat) (o : Origin) (h : Worked s₀ es s) :
    Worked s₀ es (markOut src g c o s).1 := by
  simp only [markOut]
  (repeat' split) <;> simp [h]

@[simp] theorem markLabel_worked (src : Fin 4) (k : W16) (o : Origin) (h : Worked s₀ es s) :
    Worked s₀ es (markLabel src k o s).1 := by
  simp only [markLabel, addLabel]
  (repeat' split) <;> simp [h]

@[simp] theorem markArrival_worked (a : MarkAction) (src : Fin 4) (k : W16) (g : W32) (c p : Nat) (o : Origin)
    (h : Worked s₀ es s) : Worked s₀ es (markArrival a src k g c p o s).1 := by
  cases a with
  | markIn => exact markIn_worked _ _ _ _ _ h
  | markOut => exact markOut_worked _ _ _ _ h
  | toggle =>
    simp only [markArrival]
    split
    · exact markIn_worked _ _ _ _ _ h
    · exact markOut_worked _ _ _ _ h
  | label => exact markLabel_worked _ _ _ h

@[simp] theorem addTallies_worked (h : Worked s₀ es s) : Worked s₀ es (addTallies s) :=
  forEach_worked (fun i _ => changeRec_worked i _ (.refl _)) _ h

/-! ## Sound (R77, R82 to R92) -/

@[simp] theorem settleInput_worked (i : Fin 4) (h : Worked s₀ es s) : Worked s₀ es (settleInput i s) := by
  simp only [settleInput]
  (repeat' split) <;> simp [h]

@[simp] theorem settleBus_worked (n : Nat) (b : Fin 8) (h : Worked s₀ es s) : Worked s₀ es (settleBus n b s) := by
  simp only [settleBus]
  (repeat' split) <;> simp [h]

@[simp] theorem offerSound_worked (u : MUnit) (n : W32) (h : Worked s₀ es s) : Worked s₀ es (offerSound u n s) := by
  refine offerToRoute_worked (fun p _ => offerLive_worked _ _ p (.refl _)) ?_
  split
  · exact offerStore_worked _ _ _ h
  · exact h

@[simp] theorem accumulate_worked (n : Nat) (o : List Int) (h : Worked s₀ es s) : Worked s₀ es (accumulate n o s) := by
  simp only [accumulate, closeUnit]
  (repeat' split) <;> simp [h]

/-- The entries of a tick's monitor record: none while MONITOR is UNSET (R88). -/
def monitorEntries (outs : List Int) (s : State) : List InsEntry :=
  ((ap .monitor s).map fun a =>
    [writeEntry (a.base + 32 * s.snd.monPos) (monitorRecord s.snd outs)]).getD []

theorem monitorWrite_worked (outs : List Int) (h : Worked s₀ es s) :
    Worked s₀ (es ++ monitorEntries outs s) (monitorWrite outs s) := by
  unfold monitorWrite monitorEntries
  cases ap .monitor s with
  | none => simpa using h
  | some a =>
    refine h.trans ⟨rfl, .refl, ?_⟩
    simp [push_holds]

/-- The outputs of the buses at a tick: those of the settled inputs, before any bus is settled (R83). -/
def mixerOutputs (opening : Bool) (s : State) : List Int :=
  (List.finRange 8).map fun b => busOutput b (inputsSettled opening s).snd

/-- The mixer's share of a tick before the monitor record: inputs and buses settled, ramps stepped (R77, R84, R85). -/
def mixedBefore (pos : Nat) (opening : Bool) (s : State) : State :=
  (forEach (List.finRange 8) (settleBus pos) (inputsSettled opening s)).modSnd fun d =>
    { d with taps := d.taps.map Tap.stepped }

theorem mixedAt_eq (pos : Nat) (opening : Bool) (s : State) :
    mixedAt pos opening s = monitorWrite (mixerOutputs opening s) (mixedBefore pos opening s) := by
  simp only [mixedAt, mixedBefore, mixerOutputs, forEach, State.modSnd]

theorem inputsSettled_eq (opening : Bool) (s : State) : inputsSettled opening s =
    forEach (List.finRange 4) settleInput
      (if opening = true then s.modSnd fun d => { d with buses := d.buses.map Bus.openFrame } else s) := by
  unfold inputsSettled
  rfl

theorem mixerTick_eq (pos : Nat) (opening : Bool) (s : State) :
    mixerTick pos opening s = accumulate pos (mixerOutputs opening s) (mixedAt pos opening s) := by
  simp only [mixerTick, mixedAt_eq, mixedBefore, mixerOutputs, inputsSettled_eq]

theorem inputsSettled_worked (opening : Bool) (s : State) : Worked s [] (inputsSettled opening s) := by
  rw [inputsSettled_eq]
  refine forEach_worked (fun i _ => settleInput_worked i (.refl _)) _ ?_
  cases opening <;> exact .refl s

theorem mixedBefore_worked (pos : Nat) (opening : Bool) (s : State) : Worked s [] (mixedBefore pos opening s) :=
  (modSnd_worked _).2 (forEach_worked (fun b _ => settleBus_worked pos b (.refl _)) _ (inputsSettled_worked opening s))

theorem mixerTick_worked (pos : Nat) (opening : Bool) (s : State) :
    Worked s (monitorEntries (mixerOutputs opening s) (mixedBefore pos opening s)) (mixerTick pos opening s) := by
  have h := monitorWrite_worked (mixerOutputs opening s) (mixedBefore_worked pos opening s)
  rw [List.nil_append] at h
  rw [mixerTick_eq, mixedAt_eq]
  exact accumulate_worked _ _ h

/-! ## Reference, pins and cues (R22 to R24, R133, R154 to R158, R161) -/

@[simp] theorem refLossTick_worked (h : Worked s₀ es s) : Worked s₀ es (refLossTick s) := by
  simp only [refLossTick]
  (repeat' split) <;> simp [h]

@[simp] theorem samplePin_worked (p : Fin 12) (h : Worked s₀ es s) : Worked s₀ es (samplePin p s) := by
  simp only [samplePin]
  (repeat' split) <;> simp [h]

@[simp] theorem applyAct_worked (n : Nat) (a : CueAct) (h : Worked s₀ es s) : Worked s₀ es (applyAct n a s).1 := by
  cases a with
  | none => exact h
  | switch l | fade t x y =>
    simp only [applyAct]
    split <;> exact h
  | lines m d => exact h.of_blocks (by simp [applyAct]) (by simp [applyAct]) (by simp [applyAct])
  | clipIn i | clipOut i | label i k => exact markArrival_worked _ _ _ _ _ _ _ h

theorem applySlot_worked (e : Cue) (i : Fin 4) (r : State × List Nat) (h : Worked s₀ es r.1) :
    Worked s₀ es (applySlot e i r).1 := by
  simp only [applySlot]
  split <;> simp [h]

@[simp] theorem applySlots_worked (e : Cue) (h : Worked s₀ es s) : Worked s₀ es (applySlots e s).1 := by
  suffices ∀ (l : List (Fin 4)) (r : State × List Nat), Worked s₀ es r.1 →
      Worked s₀ es (l.foldl (fun r i => applySlot e i r) r).1 from this _ (s, []) h
  intro l
  induction l with
  | nil => exact fun _ hr => hr
  | cons i l ih => exact fun r hr => ih _ (applySlot_worked e i r hr)

@[simp] theorem fireHead_worked (h : Worked s₀ es s) : Worked s₀ es (fireHead s) := by
  unfold fireHead
  split
  · exact h
  · exact raise_worked _ _ _ ((modCues_worked _).2 (applySlots_worked _ h))

@[simp] theorem fireDue_worked (k : Nat) (h : Worked s₀ es s) : Worked s₀ es (fireDue k s) := by
  induction k generalizing s with
  | zero => exact h
  | succ k ih =>
    unfold fireDue
    split
    · exact ih (fireHead_worked h)
    · exact h

@[simp] theorem rebase_worked (h : Worked s₀ es s) : Worked s₀ es (rebase s) :=
  (modCues_worked _).2 (forEach_worked (fun _ _ => raise_worked _ _ _ (.refl _)) _ h)

/-! ## Ticks (R9, R16, R67, R181) -/

@[simp] theorem guardReport_worked (n : Fin 16) (h : Worked s₀ es s) : Worked s₀ es (guardReport n s) := by
  simp only [guardReport]
  split
  · exact h
  · exact raise_worked _ _ _ h

/-- Every act of a tick is such work; the mixer's adds the monitor record. -/
theorem runAct_worked (o : Opening) (a : TickAct) (s : State) : ∃ es, Worked s es (runAct o a s) := by
  cases a with
  | mixer =>
    rw [runAct]
    exact ⟨_, mixerTick_worked _ _ s⟩
  | guards => exact ⟨[], forEach_worked (fun n _ => guardReport_worked n (.refl _)) _ (.refl s)⟩
  | onAir => exact ⟨[], (Worked.refl s).of_blocks (by simp [runAct]) (by simp [runAct]) (by simp [runAct])⟩
  | status =>
    refine ⟨[], ?_⟩
    simp only [runAct, statusTick]
    split
    · exact .refl s
    · exact pushAll_worked (by decide) _ (.refl s)
  | midnight | cueNext | cues =>
    refine ⟨[], ?_⟩
    simp only [runAct, fireNext]
    split <;> simp
  | _ => exact ⟨[], by simp [runAct]⟩

theorem forEach_runAct_worked (o : Opening) (acts : List TickAct) (s : State) :
    ∃ es, Worked s es (forEach acts (runAct o) s) := by
  refine forEach_inv (Inv := fun t => ∃ es, Worked s es t) ⟨[], .refl s⟩ fun a _ t ⟨es, ht⟩ => ?_
  obtain ⟨es', ha⟩ := runAct_worked o a t
  exact ⟨es ++ es', ht.trans ha⟩

end Sys2Proof.Machine
end

section
/-! The count wrap and MIDNIGHT (R17 to R19, R178). -/

namespace Sys2Proof.Machine

open Sys2Proof.Safety

/-! ## The count wrap (R18) -/

theorem wrapDue_iff (s : State) : s.clock.wrapDue = true ↔ s.clock.frame = 4294967295 := by
  rw [Clock.wrapDue, decide_eq_true_eq]
  constructor
  · intro h
    bv_omega
  · intro h
    rw [h]
    rfl

theorem exec_frameCountWrap_due {s : State} (i : TickIn) (h : s.clock.frame = 4294967295) :
    exec (.frameCountWrap i) s = exec (.frameTick i) s := by
  rw [exec_frameCountWrap, (wrapDue_iff s).2 h, Bool.and_true, exec_frameTick]

theorem exec_frameCountWrap_other {s : State} (i : TickIn) (h : s.clock.frame ≠ 4294967295) :
    exec (.frameCountWrap i) s = .next s := by
  rw [exec_frameCountWrap, Bool.eq_false_iff.2 fun hw => h ((wrapDue_iff s).1 hw), Bool.and_false]
  rfl

/-- The last frame before the wrap and the first behind it read successive timecodes (R18). -/
theorem wrapped_timecode_succ (o d : Nat) : (o + 2 ^ 32) % d = ((4294967295 + o) % d + 1) % d := by
  rw [Nat.mod_add_mod]
  congr 1
  omega

/-- At the wrap the count is 0, the rate stands, and the timecode goes on by one (R17, R18). -/
theorem frameTick_wraps {s t : State} (i : TickIn) (hp : s.clock.pos = 0) (hf : s.clock.frame = 4294967295)
    (hr : s.clock.pendingRate = none) (ht : t = { acted i s with clock := clockAdvanced (acted i s).clock }) :
    t.clock.frame = 0 ∧ t.clock.rate = s.clock.rate
      ∧ t.clock.offset = (s.clock.offset + 2 ^ 32 % dayFrames s) % dayFrames s
      ∧ timecode t = (timecode s + 1) % dayFrames s := by
  obtain ⟨hframe, hrate, -, -, hoffset, htc, -⟩ := frameTick_opens hp i t ht
  have hnext : s.clock.frame + 1 = 0 := by
    rw [hf]
    rfl
  refine ⟨hframe.trans hnext, by rw [hrate, hr, Option.getD_none], ?_, ?_⟩
  · simp only [hoffset, openedClock, hr, hnext, if_true]
    rfl
  · obtain ⟨htc, -⟩ := htc _ rfl
    rw [htc hr, if_pos hnext, hnext, timecode, Clock.timecodeAt, hf]
    simpa [dayFrames] using wrapped_timecode_succ s.clock.offset (Config.framesPerDay s.clock.rate)

/-! ## The act that an order names first (log 4) -/

/-- What stands first among the acts named stays first. -/
theorem namedActs_head (opening : Bool) (a : TickAct) (done order : List TickAct) :
    ∃ rest, namedActs opening (a :: done) order = a :: rest := by
  induction order generalizing done with
  | nil => exact ⟨done, rfl⟩
  | cons b order ih =>
    unfold namedActs
    split
    · exact ih (done ++ [b])
    · exact ih done

theorem schedule_head {a : TickAct} (ha : a ∈ frameActs) (os : List TickAct) :
    ∃ rest, schedule true (a :: os) = a :: rest := by
  obtain ⟨named, hn⟩ := namedActs_head true a [] os
  have hfirst : namedActs true [] (a :: os) = a :: named := by
    rw [namedActs, if_pos (.inr ⟨ha, List.not_mem_nil⟩)]
    exact hn
  exact ⟨_, by rw [schedule, hfirst]; rfl⟩

/-! ## MIDNIGHT (R19) -/

/-- With no rate change the frame after timecode D - 1 reads 0. -/
theorem timecode_opened_midnight {s : State} (i : TickIn) (hr : s.clock.pendingRate = none)
    (h : timecode s + 1 = dayFrames s) : timecode (opened i s) = 0 := by
  obtain ⟨htc, -⟩ := openedClock_timecode s.clock rfl
  have hwrap : ((s.clock.frame + 1).toNat + if s.clock.frame + 1 = 0 then s.clock.offset + 2 ^ 32 else s.clock.offset)
      = s.clock.frame.toNat + s.clock.offset + 1 := by
    split <;> bv_omega
  refine (htc hr).trans ?_
  rw [hwrap, ← Nat.mod_add_mod]
  show (timecode s + 1) % dayFrames s = 0
  rw [h, Nat.mod_self]

theorem midnightDue_true {s : State} (i : TickIn) (hr : s.clock.pendingRate = none) (h : timecode s + 1 = dayFrames s) :
    s.clock.midnightDue = true :=
  (midnightDue_iff i).2 ⟨h, timecode_opened_midnight i hr h⟩

theorem exec_midnight_due {s : State} (i : TickIn) (hr : s.clock.pendingRate = none)
    (h : timecode s + 1 = dayFrames s) : exec (.midnight i) s = exec (.frameTick i) s := by
  rw [exec_midnight, midnightDue_true i hr h, Bool.and_true, exec_frameTick]

theorem exec_midnight_other {s : State} (i : TickIn) (h : timecode s + 1 ≠ dayFrames s) :
    exec (.midnight i) s = .next s := by
  rw [exec_midnight, Bool.eq_false_iff.2 fun hm => h ((midnightDue_iff i).1 hm).1, Bool.and_false]
  rfl

/-- Taken first at the end of a day, with a free slot, MIDNIGHT is the next notice, and the other acts of the tick come
behind it (R19, R178). -/
theorem acted_midnight {s : State} {i : TickIn} {a : Aperture} {os : List TickAct} (hr : s.clock.pendingRate = none)
    (h : timecode s + 1 = dayFrames s) (ho : i.order = .midnight :: os) (ha : ap .notices s = some a)
    (hroom : s.ctl.written - s.ctl.released < a.size / 32 - 2) :
    ∃ later more, (acted i s).ctl.unreleased = s.ctl.unreleased ++ .midnight :: later
      ∧ (acted i s).ctl.released = s.ctl.released ∧ s.ctl.written + 1 ≤ (acted i s).ctl.written
      ∧ (acted i s).ins.holds.get 0 = s.ins.holds.get 0
        ++ noticeEntries a s.ctl.written s.ctl.lostBefore .midnight 0 [b1 s.clock.rate.val] (opened i s) ++ more := by
  obtain ⟨rest, hs⟩ := schedule_head (a := .midnight) (by decide) os
  obtain ⟨u, hu⟩ : ∃ u, u = raise .midnight 0 [b1 (opened i s).clock.rate.val] (opened i s) := ⟨_, rfl⟩
  have hacted : acted i s = forEach rest (runAct ⟨true, s.clock.pendingRate.isSome⟩) u := by
    rw [acted, ho, hs, midnightDue_true i hr h, forEach_cons, hu]
    rfl
  have hrate : (opened i s).clock.rate = s.clock.rate := by
    refine (openedClock_rate s.clock).trans ?_
    rw [hr, Option.getD_none]
  rw [raise_room (s := opened i s) ha hroom, hrate] at hu
  have hctl : u.ctl = Control.noteWritten .midnight s.ctl := by
    rw [hu]
    rfl
  have hhold : u.ins.holds.get 0 = s.ins.holds.get 0
      ++ noticeEntries a s.ctl.written s.ctl.lostBefore .midnight 0 [b1 s.clock.rate.val] (opened i s) := by
    rw [hu]
    exact (pushAll_holds _ _ _ (opened i s)).trans (if_pos rfl)
  have hgrown := (forEach_ticked ⟨true, s.clock.pendingRate.isSome⟩ rest u).grown
  obtain ⟨later, hlater⟩ := hgrown.unreleased
  obtain ⟨more, hmore⟩ := hgrown.hold
  obtain ⟨es, -, hnoted, -⟩ := forEach_runAct_worked ⟨true, s.clock.pendingRate.isSome⟩ rest u
  rw [← hacted] at hlater hmore hnoted
  refine ⟨later, more, ?_, ?_, ?_, by rw [hmore, hhold]⟩
  · rw [hlater, hctl]
    simp [Control.noteWritten, Control.settleAttn]
  · rw [hnoted.released, hctl]
    rfl
  · have hle := hnoted.written_le
    rw [hctl] at hle
    exact hle

/-- Settles O34. -/
theorem wrapKeepsTimecodeAndMidnightIsNoticed : Obligations.WrapKeepsTimecodeAndMidnightIsNoticed := by
  refine ⟨⟨fun s i hp hf hr => ?_, fun s i hf => exec_frameCountWrap_other i hf⟩,
    fun s i a os hp hr h ho ha hroom => ?_, fun s i _ h hr => exec_midnight_due i hr h,
    fun s i h => exec_midnight_other i h⟩
  · exact ⟨_, (exec_frameCountWrap_due i hf).trans (exec_frameTick_due hp i), frameTick_wraps i hp hf hr rfl⟩
  · obtain ⟨later, more, hu, hreleased, hwritten, hhold⟩ := acted_midnight hr h ho ha hroom
    have hzero := timecode_opened_midnight i hr h
    have hticked := acted_ticked i s
    have htc : timecode { acted i s with clock := clockAdvanced (acted i s).clock } = 0 :=
      (timecode_of_clock hticked.frame hticked.rate hticked.offset).trans hzero
    refine ⟨_, later, (exec_midnight_due i hr h).trans (exec_frameTick_due hp i), htc, hu, hreleased, hwritten, more, ?_⟩
    have hframe : (opened i s).clock.frame = s.clock.frame + 1 := openedClock_frame s.clock
    rw [noticeEntries, hframe, hzero] at hhold
    exact hhold

end Sys2Proof.Machine
end

section
/-! The mixer's share of a tick, step by step: inputs, buses, ramps, the monitor record (R77, R82 to R85, R88). -/

namespace Sys2Proof.Machine

open Sys2Proof.Safety

/-! ## Inputs (R77) -/

/-- What a tick makes of a sound input (R77). -/
def SoundInput.settled (X : SoundInput) : SoundInput :=
  if X.enabled = false then X
  else if X.fresh = true then { X with fresh := false, starve := 0, silent := false }
  else if X.silent = true then X
  else if X.starve + 1 < 8 then { X with starve := X.starve + 1, slips := X.slips + 1 }
  else { X with starve := 8, silent := true }

section
variable {X : SoundInput}

theorem SoundInput.settled_idle (h : X.enabled = false ∨ (X.fresh = false ∧ X.silent = true)) : X.settled = X := by
  rcases h with h | ⟨hf, hs⟩
  · simp [SoundInput.settled, h]
  · simp [SoundInput.settled, hf, hs]

theorem SoundInput.settled_fresh (he : X.enabled = true) (hf : X.fresh = true) :
    X.settled = { X with fresh := false, starve := 0, silent := false } := by
  simp [SoundInput.settled, he, hf]

theorem SoundInput.settled_late (he : X.enabled = true) (hf : X.fresh = false) (hs : X.silent = false)
    (h7 : X.starve < 7) : X.settled = { X with starve := X.starve + 1, slips := X.slips + 1 } := by
  simp [SoundInput.settled, he, hf, hs, h7]

theorem SoundInput.settled_starved (he : X.enabled = true) (hf : X.fresh = false) (hs : X.silent = false)
    (h7 : 7 ≤ X.starve) : X.settled = { X with starve := 8, silent := true } := by
  have h8 : ¬X.starve + 1 < 8 := by omega
  simp [SoundInput.settled, he, hf, hs, h8]

/-- An input is idle, or has a fresh slot, or is late (R77). -/
theorem SoundInput.settling_cases (X : SoundInput) :
    (X.enabled = false ∨ (X.fresh = false ∧ X.silent = true)) ∨ (X.enabled = true ∧ X.fresh = true)
      ∨ (X.enabled = true ∧ X.fresh = false ∧ X.silent = false) := by
  cases X.enabled with
  | false => exact .inl (.inl rfl)
  | true =>
    cases X.fresh with
    | true => exact .inr (.inl ⟨rfl, rfl⟩)
    | false =>
      cases X.silent with
      | true => exact .inl (.inr ⟨rfl, rfl⟩)
      | false => exact .inr (.inr ⟨rfl, rfl, rfl⟩)

end

/-- The state with sound input `n` replaced. -/
def withInput (n : Fin 4) (s : State) (X : SoundInput) : State :=
  { s with snd := { s.snd with inputs := s.snd.inputs.set n X } }

section
variable {s : State} {n : Fin 4} {X : SoundInput} (hX : X = s.snd.inputs.get n)
include hX

theorem settleInput_idle (h : X.enabled = false ∨ (X.fresh = false ∧ X.silent = true)) : settleInput n s = s := by
  subst hX
  rcases h with h | ⟨hf, hs⟩
  · simp [settleInput, h]
  · simp [settleInput, hf, hs]

theorem settleInput_fresh (he : X.enabled = true) (hf : X.fresh = true) {v : State}
    (hv : v = withInput n s { X with fresh := false, starve := 0, silent := false }) : settleInput n s =
      if X.silent = true then raise .soundBack n.val [b4 X.slips.toNat, b4 X.overruns.toNat] v else v := by
  subst hX hv
  unfold settleInput
  dsimp only
  rw [if_neg (by simp [he]), if_pos hf]
  rfl

theorem settleInput_late (he : X.enabled = true) (hf : X.fresh = false) (hs : X.silent = false) (h7 : X.starve < 7) :
    settleInput n s = withInput n s { X with starve := X.starve + 1, slips := X.slips + 1 } := by
  subst hX
  unfold settleInput
  dsimp only
  rw [if_neg (by simp [he]), if_neg (by simp [hf]), if_neg (by simp [hs]), if_pos (Nat.add_lt_add_right h7 1)]
  rfl

theorem settleInput_starved (he : X.enabled = true) (hf : X.fresh = false) (hs : X.silent = false)
    (h7 : 7 ≤ X.starve) : settleInput n s = raise .soundSilent n.val [b4 X.slips.toNat, b4 X.overruns.toNat]
      (withInput n s { X with starve := 8, silent := true }) := by
  subst hX
  unfold settleInput
  dsimp only
  rw [if_neg (by simp [he]), if_neg (by simp [hf]), if_neg (by simp [hs]), if_neg (by omega)]
  rfl

end

/-- An input's settling changes that input alone in the mixer. -/
theorem settleInput_snd (n : Fin 4) (s : State) :
    (settleInput n s).snd = { s.snd with inputs := s.snd.inputs.modify n SoundInput.settled } := by
  obtain ⟨X, hX⟩ : ∃ X, X = s.snd.inputs.get n := ⟨_, rfl⟩
  rw [Table.modify, ← hX]
  rcases X.settling_cases with h | ⟨he, hf⟩ | ⟨he, hf, hs⟩
  · have hid : s.snd.inputs.set n X.settled = s.snd.inputs := by
      rw [SoundInput.settled_idle h, hX]
      exact Table.modify_id (f := id) _ _ rfl
    rw [settleInput_idle hX h, hid]
  · rw [settleInput_fresh hX he hf rfl, SoundInput.settled_fresh he hf]
    split <;> simp [withInput]
  · by_cases h7 : X.starve < 7
    · rw [settleInput_late hX he hf hs h7, SoundInput.settled_late he hf hs h7]
      rfl
    · rw [settleInput_starved hX he hf hs (Nat.not_lt.1 h7), SoundInput.settled_starved he hf hs (Nat.not_lt.1 h7)]
      simp [withInput]

/-- Every input is settled once. -/
theorem forEach_settleInput_snd (s : State) : (forEach (List.finRange 4) settleInput s).snd
    = { s.snd with inputs := s.snd.inputs.map SoundInput.settled } := by
  have hfold (l : List (Fin 4)) (t : State) : (forEach l settleInput t).snd
      = { t.snd with inputs := l.foldl (fun u n => u.modify n SoundInput.settled) t.snd.inputs } := by
    induction l generalizing t with
    | nil => rfl
    | cons n l ih => rw [forEach_cons, ih, settleInput_snd, List.foldl_cons]
  have hmap : (Table.ofFn fun n => (s.snd.inputs.get n).settled) = s.snd.inputs.map SoundInput.settled :=
    Table.ext_get fun n => by simp
  rw [hfold, Table.foldl_modify_finRange fun _ => SoundInput.settled, hmap]

/-! ## Buses (R83, R84) -/

/-- What a tick makes of a bus whose rounded sum is `v` (R84). -/
def Bus.settled (v : Int) (B : Bus) : Bus :=
  if B.mute = true ∨ (-8388608 ≤ v ∧ v ≤ 8388607) then B
  else { B with clips := B.clips + 1, satMark := true, arm := false }

@[simp] theorem Bus.settled_monitor (v : Int) (B : Bus) : (B.settled v).monitor = B.monitor := by
  unfold Bus.settled
  split <;> rfl

/-- The state with bus `b` replaced. -/
def withBus (b : Fin 8) (s : State) (B : Bus) : State := { s with snd := { s.snd with buses := s.snd.buses.set b B } }

section
variable {s : State} {b : Fin 8} {B : Bus} {v : Int} (hB : B = s.snd.buses.get b)
  (hv : v = (busSum b s.snd + 16384) / 32768)
include hB hv

theorem settleBus_clear (h : B.mute = true ∨ (-8388608 ≤ v ∧ v ≤ 8388607)) (pos : Nat) : settleBus pos b s = s := by
  subst hB hv
  exact if_pos h

theorem settleBus_saturates (h : ¬(B.mute = true ∨ (-8388608 ≤ v ∧ v ≤ 8388607))) (pos : Nat) {u : State}
    (hu : u = withBus b s { B with clips := B.clips + 1, satMark := true, arm := false }) : settleBus pos b s =
      if B.arm = true then raise .busClip b.val [b4s v, b2 pos, b4 (B.clips + 1).toNat] u else u := by
  subst hB hv hu
  exact if_neg h

end

/-- A bus's settling changes that bus alone in the mixer. -/
theorem settleBus_snd (pos : Nat) (b : Fin 8) (s : State) : (settleBus pos b s).snd
    = { s.snd with buses := s.snd.buses.modify b (Bus.settled (unityDiv (busSum b s.snd))) } := by
  obtain ⟨B, hB⟩ : ∃ B, B = s.snd.buses.get b := ⟨_, rfl⟩
  rw [Table.modify, ← hB, Bus.settled]
  by_cases h : B.mute = true ∨ (-8388608 ≤ unityDiv (busSum b s.snd) ∧ unityDiv (busSum b s.snd) ≤ 8388607)
  · have hid : s.snd.buses.set b B = s.snd.buses := by
      rw [hB]
      exact Table.modify_id (f := id) _ _ rfl
    rw [settleBus_clear hB rfl h, if_pos h, hid]
  · rw [settleBus_saturates hB rfl h pos rfl, if_neg h]
    split <;> simp [withBus]

/-- Every bus is settled once, by the sum over the inputs, which the others' settling does not touch. -/
theorem forEach_settleBus_snd (pos : Nat) (s : State) : (forEach (List.finRange 8) (settleBus pos) s).snd
    = { s.snd with buses := Table.ofFn fun b => (s.snd.buses.get b).settled (unityDiv (busSum b s.snd)) } := by
  have hfold (l : List (Fin 8)) (t : State) : (forEach l (settleBus pos) t).snd = { t.snd with
      buses := l.foldl (fun u b => u.modify b (Bus.settled (unityDiv (busSum b t.snd)))) t.snd.buses } := by
    induction l generalizing t with
    | nil => rfl
    | cons b l ih =>
      rw [forEach_cons, ih, settleBus_snd, List.foldl_cons]
      rfl
  rw [hfold, Table.foldl_modify_finRange fun b => Bus.settled (unityDiv (busSum b s.snd))]

/-! ## The monitor record and the accumulator (R88, R89) -/

theorem monitorWrite_unset {s : State} (h : ap .monitor s = none) (outs : List Int) : monitorWrite outs s = s := by
  simp [monitorWrite, h]

theorem monitorWrite_set {s : State} {a : Aperture} (h : ap .monitor s = some a) (outs : List Int) :
    monitorWrite outs s = { s with
      snd := { s.snd with monPos := if s.snd.monPos + 1 < a.size / 32 then s.snd.monPos + 1 else 0 }
      ins := { s.ins with holds := s.ins.holds.modify 4 fun h => h ++ [⟨.write (a.base + 32 * s.snd.monPos)
        ((List.finRange 8).flatMap fun b => leInt 4 (if (s.snd.buses.get b).monitor then outs.getD b.val 0 else 0)),
        .nothing⟩] } } := by
  simp only [monitorWrite, h]
  rfl

/-- The monitor position behind a tick's record (R88). -/
def nextMonPos (s : State) : Nat :=
  match ap .monitor s with
  | none => s.snd.monPos
  | some a => if s.snd.monPos + 1 < a.size / 32 then s.snd.monPos + 1 else 0

theorem monitorWrite_snd (outs : List Int) (s : State) :
    (monitorWrite outs s).snd = { s.snd with monPos := nextMonPos s } := by
  unfold nextMonPos
  cases h : ap .monitor s with
  | none => rw [monitorWrite_unset h]
  | some a => rw [monitorWrite_set h]

/-- The accumulator's share leaves the rest of the mixer. -/
theorem accumulate_snd (pos : Nat) (outs : List Int) (s : State) :
    ∃ acc restart, (accumulate pos outs s).snd = { s.snd with acc := acc, restart := restart } := by
  unfold accumulate
  split
  · exact ⟨_, _, rfl⟩
  · dsimp only
    split
    · refine ⟨none, if s.snd.acc.isSome then s.snd.restart else false, ?_⟩
      simp [closeUnit]
    · exact ⟨_, _, rfl⟩

/-! ## The mixer's whole share at a tick inside a frame -/

/-- The mixer with its inputs settled. -/
def Sound.withSettled (d : Sound) : Sound := { d with inputs := d.inputs.map SoundInput.settled }

theorem inputsSettled_snd (s : State) : (inputsSettled false s).snd = s.snd.withSettled := by
  rw [inputsSettled_eq, forEach_settleInput_snd]
  rfl

theorem mixedBefore_snd (pos : Nat) (s : State) : (mixedBefore pos false s).snd = { s.snd.withSettled with
    buses := Table.ofFn fun b => (s.snd.buses.get b).settled (unityDiv (busSum b s.snd.withSettled))
    taps := s.snd.taps.map Tap.stepped } := by
  rw [mixedBefore, State.modSnd_snd, forEach_settleBus_snd, inputsSettled_snd]
  rfl

theorem mixedBefore_aps (pos : Nat) (s : State) : (mixedBefore pos false s).aps = s.aps := by
  simp [mixedBefore, inputsSettled_eq]

theorem mixerTick_snd (pos : Nat) (s : State) : ∃ acc restart, (mixerTick pos false s).snd = { s.snd.withSettled with
    buses := Table.ofFn fun b => (s.snd.buses.get b).settled (unityDiv (busSum b s.snd.withSettled))
    taps := s.snd.taps.map Tap.stepped, monPos := nextMonPos s, acc := acc, restart := restart } := by
  obtain ⟨acc, restart, h⟩ := accumulate_snd pos (mixerOutputs false s) (mixedAt pos false s)
  refine ⟨acc, restart, ?_⟩
  have hpos : nextMonPos (mixedBefore pos false s) = nextMonPos s := by
    simp only [nextMonPos, ap, mixedBefore_aps, mixedBefore_snd]
    rfl
  rw [mixerTick_eq, h, mixedAt_eq, monitorWrite_snd, hpos, mixedBefore_snd]

/-- The outputs in the monitor record are those over the settled inputs (R83, R88). -/
theorem monitorEntries_mixed {s : State} {a : Aperture} (h : ap .monitor s = some a) (pos : Nat) :
    monitorEntries (mixerOutputs false s) (mixedBefore pos false s) = [⟨.write (a.base + 32 * s.snd.monPos)
      ((List.finRange 8).flatMap fun b => leInt 4
        (if (s.snd.withSettled.buses.get b).monitor then busOutput b s.snd.withSettled else 0)), .nothing⟩] := by
  have hap : ap .monitor (mixedBefore pos false s) = some a := by
    rw [ap, mixedBefore_aps]
    exact h
  have hout (b : Fin 8) : (mixerOutputs false s).getD b.val 0 = busOutput b s.snd.withSettled := by
    simp [mixerOutputs, inputsSettled_snd]
  have hmon (b : Fin 8) : ((mixedBefore pos false s).snd.buses.get b).monitor
      = (s.snd.withSettled.buses.get b).monitor := by
    rw [mixedBefore_snd, Table.get_ofFn, Bus.settled_monitor]
    rfl
  have hpos : (mixedBefore pos false s).snd.monPos = s.snd.monPos := by
    rw [mixedBefore_snd]
    rfl
  simp only [monitorEntries, hap, Option.map_some, Option.getD_some, monitorRecord, hout, hmon, hpos]
  rfl

theorem monitorEntries_unset {s : State} (h : ap .monitor s = none) (pos : Nat) :
    monitorEntries (mixerOutputs false s) (mixedBefore pos false s) = [] := by
  have hap : ap .monitor (mixedBefore pos false s) = none := by
    rw [ap, mixedBefore_aps]
    exact h
  rw [monitorEntries, hap]
  rfl

end Sys2Proof.Machine
end

section
/-! A sample tick inside a frame: the mixer's share and the pins' samples in any order (R16, R21; log 4). -/

namespace Sys2Proof.Machine

open Sys2Proof.Safety

/-! ## The order of the acts -/

theorem namedActs_sample {done order : List TickAct} (hn : done.Nodup) (hs : done ⊆ sampleActs) :
    (namedActs false done order).Nodup ∧ namedActs false done order ⊆ sampleActs := by
  induction order generalizing done with
  | nil => exact ⟨hn, hs⟩
  | cons a rest ih =>
    unfold namedActs
    split
    next h =>
      obtain ⟨ha, hnew⟩ : a ∈ sampleActs ∧ a ∉ done := by simpa [actsOf] using h
      refine ih (hn.append (List.nodup_singleton a) (List.disjoint_singleton.2 hnew)) ?_
      rw [List.append_subset]
      exact ⟨hs, by simpa using ha⟩
    next => exact ih hn hs

/-- Inside a frame every act is taken once, whatever the order (log 4). -/
theorem schedule_sample_perm (order : List TickAct) : (schedule false order).Perm sampleActs := by
  obtain ⟨hn, hs⟩ := namedActs_sample (order := order) List.nodup_nil (List.nil_subset _)
  have hacts : sampleActs.Nodup := by decide
  refine (List.perm_ext_iff_of_nodup ?_ hacts).2 fun a => ?_
  · refine hn.append (hacts.filter _) fun a ha hf => ?_
    simpa [ha] using (List.mem_filter.1 hf).2
  · simp only [schedule, actsOf, List.mem_append, List.mem_filter, decide_eq_true_eq, Bool.false_eq_true, if_false]
    constructor
    · rintro (h | ⟨h, -⟩)
      · exact hs h
      · exact h
    · intro h
      by_cases ha : a ∈ namedActs false [] order
      · exact .inl ha
      · exact .inr ⟨h, ha⟩

theorem exists_pins {acts : List TickAct} (h : ∀ a ∈ acts, ∃ p, a = .pin p) :
    ∃ ps : List (Fin 12), acts = ps.map .pin := by
  induction acts with
  | nil => exact ⟨[], rfl⟩
  | cons a acts ih =>
    obtain ⟨p, rfl⟩ := h a List.mem_cons_self
    obtain ⟨ps, rfl⟩ := ih fun b hb => h b (List.mem_cons_of_mem _ hb)
    exact ⟨p :: ps, rfl⟩

/-- The mixer's share stands among the samples of pins. -/
theorem schedule_sample_split (order : List TickAct) :
    ∃ before after : List (Fin 12), schedule false order = before.map .pin ++ .mixer :: after.map .pin := by
  have hperm := schedule_sample_perm order
  have hmem : .mixer ∈ schedule false order := hperm.mem_iff.2 List.mem_cons_self
  obtain ⟨l, r, he⟩ := List.append_of_mem hmem
  have hrest : (l ++ r).Perm ((List.finRange 12).map .pin) := by
    refine List.Perm.cons_inv (a := TickAct.mixer) (List.Perm.trans ?_ hperm)
    rw [he]
    exact List.perm_middle.symm
  have hpins {acts : List TickAct} (h : acts ⊆ l ++ r) : ∃ ps : List (Fin 12), acts = ps.map .pin := by
    refine exists_pins fun a ha => ?_
    obtain ⟨p, -, hp⟩ := List.mem_map.1 (hrest.subset (h ha))
    exact ⟨p, hp.symm⟩
  obtain ⟨before, rfl⟩ := hpins (List.subset_append_left l r)
  obtain ⟨after, rfl⟩ := hpins (List.subset_append_right _ r)
  exact ⟨before, after, he⟩

/-! ## The tick -/

theorem forEach_pinActs (o : Opening) (ps : List (Fin 12)) (s : State) :
    forEach (ps.map .pin) (runAct o) s = forEach ps samplePin s := by
  induction ps generalizing s with
  | nil => rfl
  | cons p ps ih => exact ih _

theorem exec_sampleTick_inside {s : State} (h : s.clock.pos ≠ 0) (i : TickIn) {a : State}
    (ha : a = forEach (schedule false i.order) (runAct ⟨false, false⟩) { s with epIn := i.levels }) :
    exec (.sampleTick i) s = .next { a with clock := clockAdvanced a.clock } := by
  have hopen : openFrame (s.setLevels i.levels) = { s with epIn := i.levels } := if_neg h
  simp only [exec_sampleTick, tick, openingOf, h, decide_false, if_false, hopen, ha]
  rfl

theorem runAct_mixer {s : State} (h : s.clock.pos ≠ 0) (o : Opening) :
    runAct o .mixer s = mixerTick s.clock.pos false s := by
  simp only [runAct, h, decide_false]

/-- Samples of pins, the mixer's share, and further samples. -/
def sampledAround (before after : List (Fin 12)) (s : State) : State :=
  forEach after samplePin (mixerTick s.clock.pos false (forEach before samplePin s))

theorem sampledAround_eq {before after : List (Fin 12)} {s : State} (h : s.clock.pos ≠ 0) (o : Opening) :
    forEach (before.map .pin ++ .mixer :: after.map .pin) (runAct o) s = sampledAround before after s := by
  have hclock : (forEach before samplePin s).clock = s.clock := by simp
  rw [forEach_append, forEach_cons, forEach_pinActs, forEach_pinActs, runAct_mixer (by rwa [hclock]), hclock]
  rfl

theorem schedule_sample_default : schedule false [] = (([] : List (Fin 12)).map .pin)
    ++ TickAct.mixer :: (List.finRange 12).map .pin := by
  decide

section
variable (before after : List (Fin 12)) (s : State)

/-- A sample tick inside a frame, taken in any order, leaves all but the mixer, the pins, the clip log, the control block,
the paths and the store. -/
theorem sampledAround_frame :
    (sampledAround before after s).clock = s.clock ∧ (sampledAround before after s).lanes = s.lanes
      ∧ (sampledAround before after s).sel = s.sel ∧ (sampledAround before after s).cues = s.cues
      ∧ (sampledAround before after s).aps = s.aps ∧ (sampledAround before after s).port = s.port
      ∧ (sampledAround before after s).dram = s.dram ∧ (sampledAround before after s).xfer = s.xfer
      ∧ (sampledAround before after s).epIn = s.epIn := by
  simp [sampledAround]

/-- The pins do not reach the mixer. -/
theorem sampledAround_snd : ∃ acc restart, (sampledAround before after s).snd = { s.snd.withSettled with
    buses := Table.ofFn fun b => (s.snd.buses.get b).settled (unityDiv (busSum b s.snd.withSettled))
    taps := s.snd.taps.map Tap.stepped, monPos := nextMonPos s, acc := acc, restart := restart } := by
  have hsnd : (forEach before samplePin s).snd = s.snd := by simp
  have haps : (forEach before samplePin s).aps = s.aps := by simp
  have hpos : nextMonPos (forEach before samplePin s) = nextMonPos s := by
    simp only [nextMonPos, ap, haps, hsnd]
  obtain ⟨acc, restart, h⟩ := mixerTick_snd s.clock.pos (forEach before samplePin s)
  rw [hpos, hsnd] at h
  exact ⟨acc, restart, by simpa [sampledAround] using h⟩

/-- The mixer's hold takes the monitor record alone. -/
theorem sampledAround_hold :
    (sampledAround before after s).ins.holds.get 4 = s.ins.holds.get 4
      ++ monitorEntries (mixerOutputs false (forEach before samplePin s))
        (mixedBefore s.clock.pos false (forEach before samplePin s)) := by
  have hpins (ps : List (Fin 12)) (t : State) : Worked t [] (forEach ps samplePin t) :=
    forEach_worked (fun p _ => samplePin_worked p (.refl _)) ps (.refl t)
  have hmixer := mixerTick_worked s.clock.pos false (forEach before samplePin s)
  obtain ⟨-, -, hbefore⟩ := hpins before s
  obtain ⟨-, -, hhold⟩ := hmixer.trans_nil (hpins after _)
  rw [List.append_nil] at hbefore
  rw [hbefore] at hhold
  exact hhold

end

section
variable {s : State} (before after : List (Fin 12))

theorem sampledAround_hold_unset (h : ap .monitor s = none) :
    (sampledAround before after s).ins.holds.get 4 = s.ins.holds.get 4 := by
  have haps : (forEach before samplePin s).aps = s.aps := by simp
  have hap : ap .monitor (forEach before samplePin s) = none := by rwa [ap_congr haps]
  rw [sampledAround_hold, monitorEntries_unset hap, List.append_nil]

theorem sampledAround_hold_set {a : Aperture} (h : ap .monitor s = some a) :
    (sampledAround before after s).ins.holds.get 4 = s.ins.holds.get 4 ++ [⟨.write (a.base + 32 * s.snd.monPos)
      ((List.finRange 8).flatMap fun b => leInt 4
        (if (s.snd.withSettled.buses.get b).monitor then busOutput b s.snd.withSettled else 0)), .nothing⟩] := by
  have haps : (forEach before samplePin s).aps = s.aps := by simp
  have hsnd : (forEach before samplePin s).snd = s.snd := by simp
  have hap : ap .monitor (forEach before samplePin s) = some a := by rwa [ap_congr haps]
  rw [sampledAround_hold, monitorEntries_mixed hap, hsnd]

end

/-- What a sample tick inside a frame, taken in any order, leaves in the mixer (R77, R84, R85, R88). -/
theorem sampleTick_mixes {s t : State} {acc : Option Accumulator} {restart : Bool}
    (ht : t.snd = { s.snd.withSettled with
      buses := Table.ofFn fun b => (s.snd.buses.get b).settled (unityDiv (busSum b s.snd.withSettled))
      taps := s.snd.taps.map Tap.stepped, monPos := nextMonPos s, acc := acc, restart := restart }) :
    (∀ k, t.snd.taps.get k = (s.snd.taps.get k).stepped)
      ∧ (∀ n, t.snd.inputs.get n = (s.snd.inputs.get n).settled)
      ∧ (∀ D, D = { s.snd with inputs := t.snd.inputs } → D = s.snd.withSettled)
      ∧ (∀ b, t.snd.buses.get b = (s.snd.buses.get b).settled (unityDiv (busSum b s.snd.withSettled)))
      ∧ t.snd.monPos = nextMonPos s := by
  rw [ht]
  exact ⟨fun k => Table.get_map _ _ _, fun n => Table.get_map _ _ _, fun D hD => hD, fun b => Table.get_ofFn _ _, rfl⟩

/-- Settles O33. -/
theorem sampleTicksAdvanceAndMix : Obligations.SampleTicksAdvanceAndMix := by
  refine ⟨fun s i hp => ?_, fun s i a hp ho ha => ?_, fun s pos opening => mixerTick_eq pos opening s, ?_, ?_,
    fun s outs => ⟨fun h => monitorWrite_unset h outs, fun a h => monitorWrite_set h outs⟩⟩
  · obtain ⟨before, after, hs⟩ := schedule_sample_split i.order
    obtain ⟨x, hx⟩ : ∃ x, x = sampledAround before after { s with epIn := i.levels } := ⟨_, rfl⟩
    have hexec : exec (.sampleTick i) s = .next { x with clock := clockAdvanced x.clock } := by
      refine exec_sampleTick_inside hp i ?_
      rw [hx, hs, sampledAround_eq (s := { s with epIn := i.levels }) hp]
    obtain ⟨hclock, hlanes, hsel, hcues, haps, hport, hdram, hxfer, hep⟩ :=
      sampledAround_frame before after { s with epIn := i.levels }
    obtain ⟨acc, restart, hsnd⟩ := sampledAround_snd before after { s with epIn := i.levels }
    have hunset := sampledAround_hold_unset (s := { s with epIn := i.levels }) before after
    have hset (a : Aperture) := sampledAround_hold_set (s := { s with epIn := i.levels }) before after (a := a)
    rw [← hx] at hclock hlanes hsel hcues haps hport hdram hxfer hep hsnd hunset hset
    obtain ⟨htaps, hinputs, hD, hbuses, hpos⟩ := sampleTick_mixes (s := s) (t := x) hsnd
    refine ⟨_, hexec, by rw [hclock]; rfl, htaps, fun n X hX => ?_, fun b B D v hB hd hv => ?_, fun h => ?_,
      fun a D h hd => ?_, hlanes, hsel, hcues, haps, hport, hdram, hxfer, hep⟩
    · have hn : x.snd.inputs.get n = X.settled := by rw [hinputs, hX]
      exact ⟨fun h => hn.trans (SoundInput.settled_idle h), fun he hf => hn.trans (SoundInput.settled_fresh he hf),
        fun he hf hs h7 => hn.trans (SoundInput.settled_late he hf hs h7),
        fun he hf hs h7 => hn.trans (SoundInput.settled_starved he hf hs h7)⟩
    · rw [hD D hd] at hv
      subst hB hv
      exact hbuses b
    · refine ⟨hpos.trans ?_, hunset h⟩
      simp only [nextMonPos, h]
    · rw [hD D hd]
      refine ⟨hpos.trans ?_, hset a h⟩
      simp only [nextMonPos, h]
  · have hdefault := sampledAround_eq (before := []) (after := List.finRange 12) (s := { s with epIn := i.levels }) hp
    refine exec_sampleTick_inside hp i ?_
    rw [ho, schedule_sample_default, hdefault, ha]
    rfl
  · rintro s n X u hX rfl
    exact ⟨settleInput_idle hX, fun he hf v hv => settleInput_fresh hX he hf hv, settleInput_late hX,
      settleInput_starved hX⟩
  · rintro s pos b B v u hB hv hu
    refine ⟨fun h => settleBus_clear hB hv h pos, fun hm hout => settleBus_saturates hB hv (fun h => ?_) pos hu⟩
    rcases h with h | h
    · rw [hm] at h
      cases h
    · omega

end Sys2Proof.Machine
end

section
/-! The lengths of Rice codes and of coded rows (R41 to R46). -/

namespace Sys2Proof.Machine

/-! ## Codes of samples (R43, R44) -/

theorem clampInt_bounds {a b : Int} (h : a ≤ b) (x : Int) : a ≤ clampInt x a b ∧ clampInt x a b ≤ b :=
  ⟨le_max_left _ _, max_le h (min_le_right _ _)⟩

@[simp] theorem length_bitsOf (n v : Nat) : (bitsOf n v).length = n := by
  induction n with
  | zero => rfl
  | succ n ih => rw [bitsOf, List.length_cons, ih]

/-- A code that is no escape: its unary part, the zero and the low bits. -/
theorem length_riceCode_plain {k u : Nat} (h : u / 2 ^ k ≤ 22) : (riceCode k u).length = u / 2 ^ k + 1 + k := by
  rw [riceCode, if_pos h, List.length_append, List.length_replicate, List.length_cons, length_bitsOf]
  omega

/-- An escape: 23 ones and 11 bits. -/
theorem length_riceCode_escape {k u : Nat} (h : 22 < u / 2 ^ k) : (riceCode k u).length = 34 := by
  rw [riceCode, if_neg (by omega), List.length_append, List.length_replicate, length_bitsOf]

theorem length_riceCode_bounds {k : Nat} (hk : k ≤ 7) (u : Nat) :
    1 ≤ (riceCode k u).length ∧ (riceCode k u).length ≤ 34 := by
  rcases Nat.lt_or_ge 22 (u / 2 ^ k) with h | h
  · rw [length_riceCode_escape h]
    decide
  · rw [length_riceCode_plain h]
    generalize u / 2 ^ k = ones at h
    omega

/-! ## Coded rows (R45) -/

/-- Every sample adds the bits of one code, whatever index and predictors the row has reached. -/
theorem length_codeSamples_bounds {k : Nat} (hk : k ≤ 7) (q i : Nat) (P : Predictors) (xs : List Nat) :
    xs.length ≤ (codeSamples q k i P xs).length ∧ (codeSamples q k i P xs).length ≤ 34 * xs.length := by
  induction xs generalizing i P with
  | nil => exact ⟨Nat.le_refl _, Nat.le_refl _⟩
  | cons x xs ih =>
    obtain ⟨m, hm⟩ : ∃ m, m = quantize q ((x : Int) - P.at i) := ⟨_, rfl⟩
    obtain ⟨hcode, hcode'⟩ := length_riceCode_bounds hk (mapCount m)
    obtain ⟨hrest, hrest'⟩ := ih (i + 1) (P.put i (reconstruct (P.at i) m q))
    rw [codeSamples, ← hm, List.length_append, List.length_cons]
    omega

/-- Settles O58. -/
theorem rowsAreCodedWithinBounds : Obligations.RowsAreCodedWithinBounds := by
  refine ⟨fun p m q => clampInt_bounds (by decide) _, fun k u hk => length_riceCode_bounds hk u, rfl, fun k u hk h => ?_,
    by decide, fun k u h => length_riceCode_escape h, fun q kbase xs hk => ?_⟩
  · rw [length_riceCode_plain h]
    omega
  · exact length_codeSamples_bounds ((Nat.sub_le kbase q).trans hk) q 0 .start xs

end Sys2Proof.Machine
end

section
/-! SET_PICTURE, SET_PROGRAM and SET_ROUTE, and the effective route set (R30, R63, R110, R111). -/

namespace Sys2Proof.Machine

open Sys2Proof.Safety

/-! ## Commands carried out at the head of the queue (R175) -/

/-- A command at the head of the queue is carried out by the meaning that `exec` names for its code. -/
theorem exec_atHead {i : Instr} {n : Nat} {f : Command → State → State × Result} {s : State} {c : Command}
    (hexec : exec i s = .next (carryOut (codeIs n) f s)) (h : AtHead c s) (hc : c.code = n) :
    exec i s = .next (answered c (f c s).2 (f c s).1) := by
  obtain ⟨rest, hq⟩ := h
  rw [hexec, carryOut_head hq (by simp [codeIs, hc])]

theorem Lane.enabled_iff (L : Lane) : L.enabled = true ↔ L.intake ≠ .disabled := decide_eq_true_iff

/-! ## SET_PICTURE (R30) -/

theorem setPicture_badLane {c : Command} (h : 3 < c.word 0) (s : State) :
    setPicture c s = (s, .refused .badField 1) := by
  rw [setPicture, asFin_eq_none.2 h]
  rfl

/-- SET_PICTURE for a lane: the checks in order, and then the geometry. -/
theorem setPicture_lane {c : Command} {l : Fin 4} (h : c.word 0 = l.val) (s : State) : setPicture c s =
    if c.word 1 < 16 ∨ 7680 < c.word 1 ∨ c.word 1 % 4 ≠ 0 then (s, .refused .badField 2)
    else if c.word 2 < 1 ∨ 2160 < c.word 2 then (s, .refused .badField 3)
    else if c.word 3 < 1 ∨ 8 < c.word 3 then (s, .refused .badField 4)
    else if (s.lanes.get l).intake ≠ .disabled then (s, .refused .active 0)
    else if ((ap (.picture l) s).any fun a => decide (a.size < c.word 3 * c.word 1 * c.word 2 * 2)) = true then
      (s, .refused .badField 5)
    else ({ s with lanes := (s.lanes.set l
      { s.lanes.get l with geom := some ⟨c.word 1, c.word 2, c.word 3⟩ }) }, .done 0) := by
  simp only [setPicture, h, asFin_val, Lane.enabled_iff]
  rfl

/-! ## SET_PROGRAM (R63) -/

theorem setProgram_badLane {c : Command} (h : 3 < c.word 0) (s : State) :
    setProgram c s = (s, .refused .badField 1) := by
  rw [setProgram, asFin_eq_none.2 h]
  rfl

theorem setProgram_lane {c : Command} {l : Fin 4} (h : c.word 0 = l.val) (s : State) : setProgram c s =
    if (s.lanes.get l).intake = .disabled then (s, .refused .state 1)
    else ({ s with sel := s.sel.request l }, .done 0) := by
  simp only [setProgram, h, asFin_val, Lane.enabled_iff, ite_not]
  rfl

/-! ## SET_ROUTE and the effective route set (R110, R111) -/

theorem routeOf_none {v : Nat} (h : 3 < v) : routeOf v = none :=
  match v, h with
  | _ + 4, _ => rfl

theorem setRoute_badRoute {c : Command} (h : 3 < c.word 0) (s : State) :
    setRoute c s = (s, .refused .badField 1) := by
  rw [setRoute, routeOf_none h]
  rfl

theorem setRoute_named {c : Command} {r : Route} (h : routeOf (c.word 0) = some r) (s : State) :
    setRoute c s = ({ s with home := { s.home with route := r } }, .done 0) := by
  rw [setRoute, h]
  rfl

/-- Settles O45. -/
theorem geometrySwitchAndRouteRequests : Obligations.GeometrySwitchAndRouteRequests := by
  refine ⟨⟨fun s c hh hc => ⟨fun h => ?_, fun l hl => ?_⟩, fun s c hh hc => ⟨fun h => ?_, fun l hl => ?_⟩,
    fun s c hh hc => ⟨fun h => ?_, fun r hr => ?_⟩⟩, ?_⟩
  · rw [exec_atHead (exec_setPicture s) hh hc, setPicture_badLane h]
  · rw [exec_atHead (exec_setPicture s) hh hc, setPicture_lane hl]
    simp only [answered_ite]
  · rw [exec_atHead (exec_setProgram s) hh hc, setProgram_badLane h]
  · rw [exec_atHead (exec_setProgram s) hh hc, setProgram_lane hl, answered_ite]
    rfl
  · rw [exec_atHead (exec_setRoute s) hh hc, setRoute_badRoute h]
  · have hroute : routeOf (c.word 0) = some r := by
      rcases hr with ⟨h, rfl⟩ | ⟨h, rfl⟩ | ⟨h, rfl⟩ | ⟨h, rfl⟩ <;> rw [h] <;> rfl
    rw [exec_atHead (exec_setRoute s) hh hc, setRoute_named hroute]
  · rintro s on rfl
    refine ⟨fun h => ?_, fun h => ?_, fun h => ?_, fun h => ?_⟩
    · simp only [effectiveRoute, h, decide_eq_true_eq]
    · simp only [effectiveRoute, h, decide_eq_true_eq]
    · simp only [effectiveRoute, h, List.filter_cons, List.filter_nil, decide_eq_true_eq]
      split <;> rfl
    · simp only [effectiveRoute, h, decide_eq_true_eq]

end Sys2Proof.Machine
end

section
/-! A complete row: the charge of its cost, the order of its offers, and what it leaves of its lane (R40, R46 to R49,
R53 to R55). -/

namespace Sys2Proof.Machine

/-! ## The charge (R53 to R55) -/

theorem underPressure_iff (s : State) : underPressure s = true ↔ ∃ p ∈ effectiveRoute s,
    (s.home.paths.get p).high < (s.home.paths.get p).placed - (s.home.paths.get p).consumed := by
  simp only [underPressure, List.any_eq_true, HomePath.inUse]
  exact exists_congr fun p => and_congr_right fun _ => decide_eq_true_iff

/-- The q that a fullness chooses, with the conversion of a negative one to 0 (R54). -/
theorem Lane.chooseQ_eq (L : Lane) (f : Int) : L.chooseQ f = max L.qFloor (min (L.qFloor + f.toNat / L.span) 5) := by
  have hf : (max f 0).toNat = f.toNat := by omega
  rw [Lane.chooseQ, hf]
  rfl

section
variable {s : State} {l : Fin 4}

/-- A charge that finds the programme lane under pressure raises the chosen q by one (R55). -/
theorem chargeRow_pressed (h : s.sel.programme = some l ∧ underPressure s = true) (c : Nat) :
    chargeRow l c s = { s with lanes := s.lanes.set l { s.lanes.get l with
      fullness := (s.lanes.get l).charged c, q := min ((s.lanes.get l).chooseQ ((s.lanes.get l).charged c) + 1) 5 } } := by
  have hraised : (decide (s.sel.programme = some l) && underPressure s) = true := by simpa using h
  rw [chargeRow, hraised]
  rfl

theorem chargeRow_unpressed (h : ¬(s.sel.programme = some l ∧ underPressure s = true)) (c : Nat) :
    chargeRow l c s = { s with lanes := s.lanes.set l { s.lanes.get l with
      fullness := (s.lanes.get l).charged c, q := (s.lanes.get l).chooseQ ((s.lanes.get l).charged c) } } := by
  have hraised : (decide (s.sel.programme = some l) && underPressure s) = false := by simpa using h
  rw [chargeRow, hraised]
  rfl

/-- A charge keeps a lane's settings and its frame. -/
theorem chargeRow_lane (c : Nat) : ∃ f q, (chargeRow l c s).lanes.get l = { s.lanes.get l with fullness := f, q := q } := by
  by_cases h : s.sel.programme = some l ∧ underPressure s = true
  · rw [chargeRow_pressed h, Table.get_set_self]
    exact ⟨_, _, rfl⟩
  · rw [chargeRow_unpressed h, Table.get_set_self]
    exact ⟨_, _, rfl⟩

end

/-! ## ROW COMPLETE (R40, R48, R49) -/

/-- The offers of a row unit in their order: the store, and then the paths of the route set as it stands (log 32). -/
theorem offerRow_eq {l : Fin 4} {u : MUnit} {w x : State}
    (hx : x = if (w.lanes.get l).record = true ∧ w.store.state ≠ .off then
      offerStore (some l) (w.lanes.get l).frameNo u w else w) :
    offerRow l u w = if w.sel.programme = some l then
      (effectiveRoute x).foldl (fun y p => offerLive ⟨l.val, by omega⟩ u p y) x else x := by
  have hsel : x.sel = w.sel := by
    rw [hx]
    split
    · simp
    · rfl
  rw [← hsel, hx]
  rfl

/-- The state in which a complete row of these coded bits is offered: the row counted and its cost charged (R40, R46). -/
def chargedRow (l : Fin 4) (bits : List Bool) (s : State) : State :=
  chargeRow l (rowCost bits.length) (s.modLane l fun L => { L with rowsThis := L.rowsThis + 1 })

theorem rowComplete_eq {l : Fin 4} {j : Nat} {row : List Byte} {s : State} {L : Lane} {bits : List Bool}
    (hL : L = s.lanes.get l) (hbits : bits = codeRow L.q L.kbase (samplesOf row)) : rowComplete l j row s =
      offerRow l (.row l L.frameNo L.frameTc j L.q (L.kbase - L.q) bits.length (payloadOf bits)) (chargedRow l bits s) := by
  rw [hbits, hL]
  rfl

theorem chargedRow_lane (l : Fin 4) (bits : List Bool) (s : State) :
    ∃ n f q, (chargedRow l bits s).lanes.get l = { s.lanes.get l with rowsThis := n, fullness := f, q := q } := by
  obtain ⟨f, q, h⟩ := chargeRow_lane (l := l) (s := s.modLane l fun L => { L with rowsThis := L.rowsThis + 1 })
    (rowCost bits.length)
  rw [State.modLane_lanes, Table.get_modify_self] at h
  exact ⟨_, f, q, h⟩

/-- A complete row leaves its lane all but the count of rows, the fullness and q. -/
theorem rowComplete_lane (l : Fin 4) (j : Nat) (row : List Byte) (s : State) :
    ∃ n f q, (rowComplete l j row s).lanes.get l = { s.lanes.get l with rowsThis := n, fullness := f, q := q } := by
  rw [rowComplete_eq rfl rfl]
  simpa using chargedRow_lane l _ s

/-- Settles O59. -/
theorem rowsAreCountedChargedAndOffered : Obligations.RowsAreCountedChargedAndOffered := by
  refine ⟨?_, ?_⟩
  · rintro s l c L f q rfl hf hq
    have hfull : (s.lanes.get l).charged c = f := hf.symm
    have hchosen : (s.lanes.get l).chooseQ f = q := (Lane.chooseQ_eq _ f).trans hq.symm
    rw [← underPressure_iff]
    refine ⟨fun h => ?_, fun h => ?_⟩
    · rw [chargeRow_pressed h, hfull, hchosen]
    · rw [chargeRow_unpressed h, hfull, hchosen]
  · rintro s l j row L bits u w x hL hbits rfl rfl hx
    obtain ⟨n, f, q, hlane⟩ := chargedRow_lane l bits s
    have hstore : (chargedRow l bits s).store = s.store := by simp [chargedRow]
    have hsel : (chargedRow l bits s).sel = s.sel := by simp [chargedRow]
    rw [rowComplete_eq hL hbits, ← hsel]
    refine offerRow_eq ?_
    rw [hlane, hstore, hx, hL]
    rfl

end Sys2Proof.Machine
end

section
/-! Changes of clip records at picture events: the ends that a frame start resolves, the damage that a skew reports, and
the most recent stored unit (R37, R128, R147, R148). -/

namespace Sys2Proof.Machine

open Sys2Proof.Safety

/-! ## The most recent stored unit (R128; log 33) -/

theorem splitLast_none_iff {α : Type} {p : α → Bool} {l : List α} : splitLast p l = none ↔ ∀ x ∈ l, p x = false := by
  induction l with
  | nil => simp [splitLast]
  | cons y l ih =>
    rw [splitLast, List.forall_mem_cons]
    cases h : splitLast p l with
    | some r => simp [← ih, h]
    | none => simp [← ih, h]

theorem splitLast_append {α : Type} {p : α → Bool} {x : α} {post : List α} (hx : p x = true)
    (hpost : ∀ y ∈ post, p y = false) (pre : List α) : splitLast p (pre ++ x :: post) = some (x, post) := by
  induction pre with
  | nil => rw [List.nil_append, splitLast, splitLast_none_iff.2 hpost, hx, if_pos rfl]
  | cons y pre ih => rw [List.cons_append, splitLast, ih]

theorem lastStored_none {s : State} (h : ∀ e ∈ s.store.retained, e.unit = none) :
    lastStored s = (s.store.nextSeq - 1, 0) := by
  have hnone : splitLast (fun e : Retained => e.unit.isSome) s.store.retained = none :=
    splitLast_none_iff.2 fun e he => by rw [h e he]; rfl
  rw [lastStored, hnone]

theorem lastStored_some {s : State} {pre post : List Retained} {e : Retained} (h : s.store.retained = pre ++ e :: post)
    (he : e.unit.isSome = true) (hpost : ∀ x ∈ post, x.unit = none) :
    lastStored s = (s.store.nextSeq - 1, e.start % storeCells s) := by
  have hlast : splitLast (fun e : Retained => e.unit.isSome) s.store.retained = some (e, post) := by
    rw [h]
    exact splitLast_append (p := fun e : Retained => e.unit.isSome) he (fun x hx => by rw [hpost x hx]; rfl) pre
  rw [lastStored, hlast]

/-- The most recent stored unit is read from the store's sequence, its retained units and its aperture. -/
theorem lastStored_congr {s t : State} (hn : t.store.nextSeq = s.store.nextSeq)
    (hr : t.store.retained = s.store.retained) (ha : t.aps = s.aps) : lastStored t = lastStored s := by
  simp only [lastStored, storeCells, apSize, ap_congr ha, hn, hr]

/-! ## Ends resolved at a frame start (R128) -/

/-- A change of a record depends on the change of that record alone. -/
theorem changeRec_congr {i : Fin 256} {f g : Clip → Clip} {s : State} (h : f (s.log.recs.get i) = g (s.log.recs.get i)) :
    changeRec i f s = changeRec i g s := by
  simp only [changeRec, State.modRec, State.modLog, Table.modify, h]

theorem changedWhere_get (P : Clip → Bool) (f : Clip → Clip) (s : State) (i : Fin 256) :
    (changedWhere P f s).log.recs.get i = if P (s.log.recs.get i) = true then
      { f (s.log.recs.get i) with rev := (s.log.recs.get i).rev + 1 } else s.log.recs.get i := Table.get_map _ _ _

/-- A clip whose end has been resolved, its revision not yet counted: `last` is its last unit, or it is LOG_ONLY with no
first unit (R128). -/
def endResolved (last : W32 × Nat) (R : Clip) : Clip :=
  if R.first.isSome = true then endedClip last R
  else { R with firstPending := false, endPending := false, logOnly := true }

theorem endResolved_rev (last : W32 × Nat) (R : Clip) : (endResolved last R).rev = R.rev := by
  unfold endResolved
  split <;> rfl

theorem resolveAt_eq (i : Fin 256) (s : State) :
    (if (s.log.recs.get i).first.isSome = true then resolveEnd i s else makeLogOnly i s)
      = changeRec i (endResolved (lastStored s)) s := by
  split
  · next h => exact changeRec_congr (by rw [endResolved, if_pos h]; rfl)
  · next h => exact changeRec_congr (by rw [endResolved, if_neg h])

/-- One change after another of records leaves the most recent stored unit, so all of them take the same one. -/
theorem forEach_resolveAt (last : W32 × Nat) (is : List (Fin 256)) {s : State} (h : lastStored s = last) :
    forEach is (fun i t => if (t.log.recs.get i).first.isSome then resolveEnd i t else makeLogOnly i t) s
      = forEach is (changeRec · (endResolved last)) s := by
  induction is generalizing s with
  | nil => rfl
  | cons i is ih =>
    rw [forEach_cons, forEach_cons, resolveAt_eq, h]
    exact ih ((lastStored_congr (by simp) (by simp) (by simp)).trans h)

theorem resolveAtFrameStart_eq (l : Fin 4) (n : W32) (s : State) : resolveAtFrameStart l n s = endsResolved l n s := by
  have hdue (o : Option (W32 × Nat)) : (o.map fun x => isAfter n x.1).getD false = o.any fun x => isAfter n x.1 := by
    cases o <;> rfl
  rw [resolveAtFrameStart, forEach_resolveAt _ _ rfl, forEach_recsWhere _ (endResolved_rev _), endsResolved, changedWhere,
    changedWhere]
  simp only [hdue]
  have hrevised (R : Clip) : ({ endResolved (lastStored s) R with rev := R.rev + 1 } : Clip)
      = { (if R.first.isSome = true then endedClip (lastStored s) R else logOnlyClip R) with rev := R.rev + 1 } := by
    unfold endResolved
    split <;> rfl
  simp only [hrevised]

theorem endsResolved_waiting {l : Fin 4} {n : W32} {s : State} {i : Fin 256} {o : W32 × Nat}
    (hp : (s.log.recs.get i).endPending = true) (hs : (s.log.recs.get i).source = l) (ho : (s.log.recs.get i).out = some o)
    (hn : isAfter n o.1 = true) : (endsResolved l n s).log.recs.get i =
      if (s.log.recs.get i).first.isSome = true then
        { endedClip (lastStored s) (s.log.recs.get i) with rev := (s.log.recs.get i).rev + 1 }
      else logOnlyClip (s.log.recs.get i) := by
  rw [endsResolved, changedWhere_get, if_pos (by simp [hp, hs, ho, hn])]
  split <;> rfl

theorem endsResolved_other {l : Fin 4} {n : W32} {s : State} {i : Fin 256}
    (h : (s.log.recs.get i).endPending = false ∨ (s.log.recs.get i).source ≠ l
      ∨ ∀ o, (s.log.recs.get i).out = some o → isAfter n o.1 = false) :
    (endsResolved l n s).log.recs.get i = s.log.recs.get i := by
  rw [endsResolved, changedWhere_get, if_neg]
  simp only [Bool.and_eq_true, decide_eq_true_eq, Option.any_eq_true, not_and]
  rintro ⟨hp, hs⟩ ⟨o, ho, hn⟩
  rcases h with h | h | h
  · rw [hp] at h
    cases h
  · exact h hs
  · rw [h o ho] at hn
    cases hn

/-! ## Damage reports (R37, R139, R147) -/

theorem openClip_none {l : Fin 4} {s : State} (h : s.log.opens.get l = none) : openClip l s = none := by
  rw [openClip, h]
  rfl

/-- The open-clip pointer of a lane leads to the one OPEN clip of the lane (R138, R139). -/
theorem openClip_opened {s : State} (hn : NumbersOk s) (hp : PointersOk s) {i : Fin 256}
    (h : (s.log.recs.get i).state = .opened) : openClip (s.log.recs.get i).source s = some i := by
  obtain ⟨-, -, -, hinj⟩ := hn
  have hopen : s.log.opens.get (s.log.recs.get i).source = some (s.log.recs.get i).num := (hp _ _).2 ⟨i, h, rfl, rfl⟩
  rw [openClip, hopen]
  refine find?_finRange (by simp [h]) fun j hj => ?_
  by_contra hother
  simp only [Bool.not_eq_false, Bool.and_eq_true, decide_eq_true_eq] at hother
  obtain ⟨hstate, hnum⟩ := hother
  exact absurd (hinj j i (by rw [hstate]; decide) hnum) (ne_of_lt hj)

theorem reportDamage_none {l : Fin 4} {s : State} (h : openClip l s = none) : reportDamage l s = s := by
  rw [reportDamage, h]

theorem reportDamage_some {l : Fin 4} {s : State} {i : Fin 256} (h : openClip l s = some i) :
    reportDamage l s = mirror i { s with log := { s.log with recs := (s.log.recs.set i
      { s.log.recs.get i with damaged := min ((s.log.recs.get i).damaged + 1) 65535 }) } } := by
  rw [reportDamage, h]
  rfl

end Sys2Proof.Machine
end

section
/-! Picture intake: what a lane does with a piece, by its intake state (R33 to R39). -/

namespace Sys2Proof.Machine

open Sys2Proof.Safety

/-! ## Slots (R29) -/

theorem Geometry.slotAt_some_iff {g : Geometry} (hg : 0 < g.slotLen) {off k : Nat} :
    g.slotAt off = some k ↔ k < g.slots ∧ off = k * g.slotLen := by
  unfold slotAt
  constructor
  · intro h
    split at h
    · next hin =>
      cases h
      exact ⟨hin.2, (Nat.div_mul_cancel (Nat.dvd_of_mod_eq_zero hin.1)).symm⟩
    · cases h
  · rintro ⟨hk, rfl⟩
    rw [Nat.mul_mod_left, Nat.mul_div_cancel _ hg, if_pos ⟨rfl, hk⟩]

theorem Geometry.slotAt_none_iff {g : Geometry} (hg : 0 < g.slotLen) {off : Nat} :
    g.slotAt off = none ↔ ∀ k, k < g.slots → off ≠ k * g.slotLen := by
  simp only [Option.eq_none_iff_forall_ne_some, ne_eq, slotAt_some_iff hg, not_and]

theorem Geometry.slotLen_even (g : Geometry) (k : Nat) : k * g.slotLen % 2 = 0 := by
  rw [slotLen, ← Nat.mul_assoc, Nat.mul_mod_left]

/-! ## A piece handed to a lane, by its intake state (R33, R34, R37, R38) -/

/-- A piece that does not begin and end at a sample boundary (R34). -/
def OddPiece (off : Nat) (d : List Byte) : Prop := off % 2 = 1 ∨ d.length % 2 = 1

theorem oddPiece_iff (off : Nat) (d : List Byte) :
    (decide (off % 2 = 1) || decide (d.length % 2 = 1)) = true ↔ OddPiece off d := by
  simp [OddPiece]

theorem not_oddPiece {off : Nat} {d : List Byte} : ¬OddPiece off d ↔ off % 2 = 0 ∧ d.length % 2 = 0 := by
  unfold OddPiece
  omega

section
variable {s : State} {l : Fin 4} {off : Nat} {d : List Byte} {g : Geometry}

theorem takePicture_disabled (h : (s.lanes.get l).intake = .disabled) : takePicture l off d s = s := by
  simp only [takePicture, h]

variable (hg : (s.lanes.get l).geom = some g)
include hg

section
variable (hi : (s.lanes.get l).intake = .waiting)
include hi

theorem takePicture_waiting_odd (h : OddPiece off d) : takePicture l off d s =
    raiseSkew l .odd 0 off 0 (s.modLane l fun L => { L with skews := L.skews + 1 }) := by
  simp only [takePicture, hg, hi, if_pos ((oddPiece_iff off d).2 h)]

theorem takePicture_waiting_stray (h : ¬OddPiece off d) (hslot : g.slotAt off = none) :
    takePicture l off d s = s.modLane l fun L => { L with strays := L.strays + 1 } := by
  simp only [takePicture, hg, hi, if_neg (h ∘ (oddPiece_iff off d).1), hslot]

theorem takePicture_waiting_start (h : ¬OddPiece off d) {k : Nat} (hslot : g.slotAt off = some k) :
    takePicture l off d s = frameStart l k off d s := by
  simp only [takePicture, hg, hi, if_neg (h ∘ (oddPiece_iff off d).1), hslot]

end

variable {slot expected j : Nat} {part : List Byte} (hi : (s.lanes.get l).intake = .inFrame slot expected j part)
include hi

theorem takePicture_inFrame_odd (h : OddPiece off d) : takePicture l off d s = abandon l .odd expected off j s := by
  simp only [takePicture, hg, hi, if_pos ((oddPiece_iff off d).2 h)]

theorem takePicture_inFrame_expected (h : ¬OddPiece off d) (he : off = expected) :
    takePicture l off d s = feedRows l (d.length + 1) d s := by
  simp only [takePicture, hg, hi, if_neg (h ∘ (oddPiece_iff off d).1), if_pos he]

theorem takePicture_inFrame_offset (h : ¬OddPiece off d) (he : off ≠ expected) (hslot : g.slotAt off = none) :
    takePicture l off d s = abandon l .offset expected off j s := by
  simp only [takePicture, hg, hi, if_neg (h ∘ (oddPiece_iff off d).1), if_neg he, hslot]

theorem takePicture_inFrame_restart (h : ¬OddPiece off d) (he : off ≠ expected) {k : Nat} (hslot : g.slotAt off = some k) :
    takePicture l off d s = frameStart l k off d (abandon l .restart expected off j s) := by
  simp only [takePicture, hg, hi, if_neg (h ∘ (oddPiece_iff off d).1), if_neg he, hslot]

/-! ## Rows filled by a piece (R36, R39) -/

theorem feedRows_short (h : d.length < g.lineLen - part.length) (n : Nat) : feedRows l (n + 1) d s =
    s.modLane l fun L => { L with intake := .inFrame slot (expected + d.length) j (part ++ d) } := by
  simp only [feedRows, hg, hi, if_pos h]

theorem feedRows_last {need : Nat} (hneed : need = g.lineLen - part.length) (h : need ≤ d.length) (hj : j + 1 = g.lines)
    (n : Nat) : feedRows l (n + 1) d s = (rowComplete l j (part ++ d.take need) s).modLane l fun L =>
      { L with intake := .waiting, strays := if d.length = need then L.strays else L.strays + 1 } := by
  have hrest : d.drop need = [] ↔ d.length = need := by
    rw [List.drop_eq_nil_iff]
    omega
  simp only [feedRows, hg, hi, ← hneed, if_neg (Nat.not_lt.2 h), if_pos hj, hrest]

end

/-- The lane after a row that is not its frame's last: it expects the next row from `off` on (R36). -/
def nextRow (l : Fin 4) (slot off j : Nat) (row : List Byte) (s : State) : State :=
  (rowComplete l j row s).modLane l fun L => { L with intake := .inFrame slot off (j + 1) [] }

section
variable (l : Fin 4) (slot off j : Nat) (row : List Byte) (s : State)

theorem nextRow_geom : ((nextRow l slot off j row s).lanes.get l).geom = (s.lanes.get l).geom := by
  obtain ⟨n, f, q, h⟩ := rowComplete_lane l j row s
  rw [nextRow, State.modLane_lanes, Table.get_modify_self, h]

theorem nextRow_intake : ((nextRow l slot off j row s).lanes.get l).intake = .inFrame slot off (j + 1) [] := by
  rw [nextRow, State.modLane_lanes, Table.get_modify_self]

end

section
variable {s : State} {l : Fin 4} {d : List Byte} {g : Geometry} {slot expected j need : Nat} {part : List Byte}

theorem feedRows_next (hg : (s.lanes.get l).geom = some g) (hi : (s.lanes.get l).intake = .inFrame slot expected j part)
    (hneed : need = g.lineLen - part.length) (h : need ≤ d.length) (hj : j + 1 ≠ g.lines) (n : Nat) :
    feedRows l (n + 1) d s
      = feedRows l n (d.drop need) (nextRow l slot (expected + need) j (part ++ d.take need) s) := by
  simp only [feedRows, hg, hi, ← hneed, if_neg (Nat.not_lt.2 h), if_neg hj]
  rfl

/-- Each row takes at least a byte, so any fuel above the number of bytes gives the same state. -/
theorem feedRows_fuel {n m : Nat} (hg : (s.lanes.get l).geom = some g)
    (hi : (s.lanes.get l).intake = .inFrame slot expected j part) (hpart : part.length < g.lineLen) (hn : d.length < n)
    (hm : d.length < m) : feedRows l n d s = feedRows l m d s := by
  induction n generalizing m s d expected j part with
  | zero => omega
  | succ n ih =>
    obtain ⟨m, rfl⟩ : ∃ k, m = k + 1 := ⟨m - 1, by omega⟩
    rcases Nat.lt_or_ge d.length (g.lineLen - part.length) with hd | hd
    · rw [feedRows_short hg hi hd, feedRows_short hg hi hd]
    · by_cases hj : j + 1 = g.lines
      · rw [feedRows_last hg hi rfl hd hj, feedRows_last hg hi rfl hd hj]
      · have hrest : (d.drop (g.lineLen - part.length)).length < d.length := by
          rw [List.length_drop]
          omega
        rw [feedRows_next hg hi rfl hd hj, feedRows_next hg hi rfl hd hj]
        exact ih ((nextRow_geom _ _ _ _ _ _).trans hg) (nextRow_intake _ _ _ _ _ _)
          (Nat.zero_lt_of_lt hpart) (by omega) (by omega)

/-- Past a row that is not its frame's last, the rest of the piece is taken as a piece at the next offset (R36). -/
theorem takePicture_nextRow (hg : (s.lanes.get l).geom = some g)
    (hi : (s.lanes.get l).intake = .inFrame slot expected j part) (hodd : ¬OddPiece expected d)
    (hpart : part.length < g.lineLen) (heven : part.length % 2 = 0) (hneed : need = g.lineLen - part.length)
    (h : need ≤ d.length) (hj : j + 1 ≠ g.lines) {v : State}
    (hv : v = nextRow l slot (expected + need) j (part ++ d.take need) s) :
    takePicture l expected d s
      = if d.length = need then v else takePicture l (expected + need) (d.drop need) v := by
  have hvg : (v.lanes.get l).geom = some g := hv ▸ (nextRow_geom _ _ _ _ _ _).trans hg
  have hvi : (v.lanes.get l).intake = .inFrame slot (expected + need) (j + 1) [] := hv ▸ nextRow_intake _ _ _ _ _ _
  rw [takePicture_inFrame_expected hg hi hodd rfl, feedRows_next hg hi hneed h hj, ← hv]
  split
  · next hall =>
    have hnil : d.drop need = [] := List.drop_eq_nil_iff.2 hall.le
    obtain ⟨n, hn⟩ : ∃ n, d.length = n + 1 := ⟨d.length - 1, by omega⟩
    rw [hnil, hn, feedRows_short hvg hvi (by simp; omega)]
    refine congrArg (fun t : Table Lane 4 => { v with lanes := t }) (Table.modify_id _ _ ?_)
    simp [← hvi]
  · next hmore =>
    have hline : g.lineLen % 2 = 0 := Nat.mul_mod_left _ _
    obtain ⟨hoff, hlen⟩ := not_oddPiece.1 hodd
    have hrest : ¬OddPiece (expected + need) (d.drop need) := by
      rw [not_oddPiece, List.length_drop]
      omega
    rw [takePicture_inFrame_expected hvg hvi hrest rfl]
    exact feedRows_fuel hvg hvi (by simp; omega) (by rw [List.length_drop]; omega) (Nat.lt_succ_self _)

end

/-! ## Frame starts (R38, R64, R128) -/

/-- The lane in its frame from `off` on, with the frame's number and timecode (R35, R38). -/
def inFrameFrom (l : Fin 4) (slot off : Nat) (s : State) : State :=
  s.modLane l fun L =>
    { L with intake := .inFrame slot off 0 [], frameNo := s.clock.frame, frameTc := timecode s }

/-- The state in which the bytes of a piece that starts a frame are taken: the selector and then the store have been told
(log 43). -/
def frameStarted (l : Fin 4) (slot off : Nat) (s : State) : State :=
  storeFrameStart l s.clock.frame (completeSwitch l s.clock.frame (inFrameFrom l slot off s))

theorem frameStarted_lane (l : Fin 4) (slot off : Nat) (s : State) : (frameStarted l slot off s).lanes.get l =
    { s.lanes.get l with intake := .inFrame slot off 0 [], frameNo := s.clock.frame, frameTc := timecode s } := by
  simp [frameStarted, inFrameFrom]

/-- A frame start tells the selector and the store, and then the lane takes the piece as one at the offset it expects. -/
theorem frameStart_eq {s : State} {l : Fin 4} {slot off : Nat} {d : List Byte} {g : Geometry}
    (hg : (s.lanes.get l).geom = some g) (h : ¬OddPiece off d) :
    frameStart l slot off d s = takePicture l off d (frameStarted l slot off s) := by
  have hlane := frameStarted_lane l slot off s
  rw [takePicture_inFrame_expected (g := g) (by rw [hlane, hg]) (by rw [hlane]) h rfl]
  rfl

theorem storeFrameStart_eq (l : Fin 4) (n : W32) (s : State) : storeFrameStart l n s =
    endsResolved l n { s with store := { s.store with openMark := s.store.openMark.set l true } } :=
  resolveAtFrameStart_eq l n _

/-- The clips of the lane that wait for their end take it as the frame starts; every other record stands (R128). -/
theorem endsResolved_records {l : Fin 4} {s x : State} (hlog : x.log = s.log) (hlast : lastStored x = lastStored s)
    {i : Fin 256} {R : Clip} (hR : R = s.log.recs.get i) (n : W32) :
    (R.endPending = true → R.source = l → ∀ o, R.out = some o → isAfter n o.1 = true →
      (R.first.isSome = true →
        (endsResolved l n x).log.recs.get i = { endedClip (lastStored s) R with rev := R.rev + 1 })
      ∧ (R.first.isSome = false → (endsResolved l n x).log.recs.get i = logOnlyClip R))
    ∧ (R.endPending = false ∨ R.source ≠ l ∨ (∀ o, R.out = some o → isAfter n o.1 = false) →
      (endsResolved l n x).log.recs.get i = R) := by
  rw [← hlog] at hR
  subst hR
  refine ⟨fun hp hs o ho hn => ?_, endsResolved_other⟩
  rw [endsResolved_waiting hp hs ho hn, hlast]
  exact ⟨fun hf => if_pos hf, fun hf => if_neg (by rw [hf]; decide)⟩

/-! ## Frames abandoned (R37) -/

theorem abandon_lane (l : Fin 4) (reason : SkewReason) (expected off j : Nat) (s : State) :
    (abandon l reason expected off j s).lanes.get l
      = { s.lanes.get l with intake := .waiting, skews := (s.lanes.get l).skews + 1 } := by
  simp [abandon]

/-- A piece at a slot start elsewhere abandons the frame and is then taken as a WAITING lane takes it (R37). -/
theorem takePicture_restart {s : State} {l : Fin 4} {off : Nat} {d : List Byte} {g : Geometry} {slot expected j k : Nat}
    {part : List Byte} (hg : (s.lanes.get l).geom = some g)
    (hi : (s.lanes.get l).intake = .inFrame slot expected j part) (hodd : ¬OddPiece off d) (he : off ≠ expected)
    (hslot : g.slotAt off = some k) :
    takePicture l off d s = takePicture l off d (abandon l .restart expected off j s) := by
  have hlane := abandon_lane l .restart expected off j s
  rw [takePicture_inFrame_restart hg hi hodd he hslot,
    takePicture_waiting_start (by rw [hlane, hg]) (by rw [hlane]) hodd hslot]

/-! ## The intake as a whole -/

/-- A piece handed to a WAITING lane (R34, R35, R38). -/
theorem takePicture_waiting {s : State} {l : Fin 4} {off : Nat} {d : List Byte} {L : Lane} {g : Geometry}
    (hL : L = s.lanes.get l) (hg : L.geom = some g) (hpos : 0 < g.slotLen) (hi : L.intake = .waiting) :
    (OddPiece off d → takePicture l off d s = raise .skew l.val [b1 2, b5 0, b5 off, b4 0]
      { s with lanes := s.lanes.set l { L with skews := L.skews + 1 } })
    ∧ (off % 2 = 0 → d.length % 2 = 0 → (∀ k, k < g.slots → off ≠ k * g.slotLen) →
      takePicture l off d s = { s with lanes := s.lanes.set l { L with strays := L.strays + 1 } })
    ∧ ∀ k, k < g.slots → off = k * g.slotLen → d.length % 2 = 0 →
      takePicture l off d s = takePicture l off d (frameStarted l k off s) := by
  subst hL
  refine ⟨fun h => takePicture_waiting_odd hg hi h, fun ho hd h => ?_, fun k hk ho hd => ?_⟩
  · exact takePicture_waiting_stray hg hi (not_oddPiece.2 ⟨ho, hd⟩) ((Geometry.slotAt_none_iff hpos).2 h)
  · have hodd : ¬OddPiece off d := not_oddPiece.2 ⟨ho ▸ g.slotLen_even k, hd⟩
    rw [takePicture_waiting_start hg hi hodd ((Geometry.slotAt_some_iff hpos).2 ⟨hk, ho⟩), frameStart_eq hg hodd]

/-- A piece that abandons the frame in progress, for each reason (R37). -/
theorem takePicture_abandons {s : State} {l : Fin 4} {off : Nat} {d : List Byte} {g : Geometry} {slot expected j : Nat}
    {part : List Byte} (hg : (s.lanes.get l).geom = some g) (hpos : 0 < g.slotLen)
    (hi : (s.lanes.get l).intake = .inFrame slot expected j part) (h : OddPiece off d ∨ off ≠ expected) :
    (OddPiece off d → takePicture l off d s = abandon l .odd expected off j s)
    ∧ (¬OddPiece off d → ¬(∃ k, k < g.slots ∧ off = k * g.slotLen) →
      takePicture l off d s = abandon l .offset expected off j s)
    ∧ (¬OddPiece off d → (∃ k, k < g.slots ∧ off = k * g.slotLen) →
      takePicture l off d s = takePicture l off d (abandon l .restart expected off j s)) := by
  refine ⟨takePicture_inFrame_odd hg hi, fun hodd hstart => ?_, fun hodd hstart => ?_⟩
  · refine takePicture_inFrame_offset hg hi hodd (h.resolve_left hodd) ((Geometry.slotAt_none_iff hpos).2 ?_)
    exact fun k hk ho => hstart ⟨k, hk, ho⟩
  · obtain ⟨k, hk⟩ := hstart
    exact takePicture_restart hg hi hodd (h.resolve_left hodd) ((Geometry.slotAt_some_iff hpos).2 hk)

/-- Settles O18. -/
theorem pictureWritesDriveTheIntake : Obligations.PictureWritesDriveTheIntake := by
  refine ⟨fun s r l off d h => exec_observed h, fun s l off d => takePicture_disabled, ?_, ?_⟩
  · intro s l off d L g hL hg hwidth hlines hi
    have hpos : 0 < g.slotLen := Nat.mul_pos (Nat.mul_pos (by omega) hlines) two_pos
    obtain ⟨hodd, hstray, hstart⟩ := takePicture_waiting (off := off) (d := d) hL hg hpos hi
    refine ⟨hodd, hstray, fun k hk ho hd u w x v hu hw hx hv => ?_⟩
    have hswitched : w = completeSwitch l s.clock.frame (inFrameFrom l k off s) := by
      rw [hw, hu, hL]
      rfl
    have hstore : w.store = s.store := by simp [hswitched, inFrameFrom]
    have hlog : x.log = s.log := by simp [hx, hswitched, inFrameFrom]
    have hlast : lastStored x = lastStored s :=
      lastStored_congr (by rw [hx]) (by rw [hx]) (by simp [hx, hswitched, inFrameFrom])
    refine ⟨?_, fun i R hR => ?_⟩
    · rw [hstart k hk ho hd, frameStarted, storeFrameStart_eq, ← hswitched, hstore, ← hx, hv]
    · rw [hv]
      exact endsResolved_records hlog hlast hR _
  · intro s l off d L g slot expected j part hL hg hwidth hlines hi odd hodd
    subst hL
    have hpos : 0 < g.slotLen := Nat.mul_pos (Nat.mul_pos (by omega) hlines) two_pos
    have hodd : odd ↔ OddPiece off d := hodd
    rw [hodd]
    refine ⟨fun h he hd => ?_, fun h he hpart hd need w hneed hw => ⟨fun hj => ?_, fun hj heven v hv => ?_⟩,
      fun h start hstart u v hu hv => ?_, fun t => ⟨lastStored_none, fun pre e post => lastStored_some⟩⟩
    · rw [takePicture_inFrame_expected hg hi h he, feedRows_short hg hi hd]
      rfl
    · rw [takePicture_inFrame_expected hg hi h he, feedRows_last hg hi hneed (hneed ▸ hd) hj, hw]
      rfl
    · subst he
      exact takePicture_nextRow hg hi h hpart heven hneed (hneed ▸ hd) hj (hv.trans (by rw [hw]; rfl))
    · have habandon (reason : SkewReason) : abandon l reason expected off j s = v reason.code := by
        rw [hv, hu]
        rfl
      obtain ⟨hskew, hoffset, hrestart⟩ := takePicture_abandons hg hpos hi h
      have hlogu : u.log = s.log := by rw [hu]
      rw [hstart]
      refine ⟨fun h => (hskew h).trans (habandon .odd), fun h h' => (hoffset h h').trans (habandon .offset),
        fun h h' => (hrestart h h').trans (by rw [habandon]; rfl), fun h => ?_, fun hn hp i R hR hstate hsource => ?_⟩
      · exact reportDamage_none (openClip_none (by rw [hlogu, h]))
      · subst hR hsource
        have hopen : openClip (s.log.recs.get i).source u = some i :=
          (congrArg (fun t : State => openClip _ t) hu).trans (openClip_opened hn hp hstate)
        rw [reportDamage_some hopen, hlogu]

end Sys2Proof.Machine
end

section
/-! The rate law of the enabled lanes and the law of the selector: every operation keeps both (R56, R62, R65). -/

namespace Sys2Proof.Machine

open Sys2Proof.Safety

/-! ## One lane (R53 to R59) -/

theorem clampNat_bounds {a b : Nat} (h : a ≤ b) (x : Nat) : a ≤ clampNat x a b ∧ clampNat x a b ≤ b :=
  ⟨Nat.le_max_left _ _, Nat.max_le.2 ⟨h, Nat.min_le_right _ _⟩⟩

/-- What R56 asks of an enabled lane. -/
def Lane.RateLaw (L : Lane) : Prop :=
  L.qFloor ≤ L.q ∧ L.q ≤ 5 ∧ -(L.bound : Int) ≤ L.fullness ∧ L.fullness ≤ (L.bound : Int)

theorem laneOk_iff (L : Lane) : laneOk L ↔ (L.enabled = true → L.RateLaw) := Iff.rfl

/-- A change of a lane that does not disable it and keeps the rate law. -/
structure Lane.Kept (L M : Lane) : Prop where
  enabled : L.enabled = true → M.enabled = true
  ok : laneOk L → laneOk M

namespace Lane

variable {L M : Lane}

theorem Kept.refl (L : Lane) : L.Kept L := ⟨id, id⟩

/-- The rate state and the settings it depends on stand. -/
theorem Kept.of_rate (he : M.enabled = L.enabled) (hf : M.qFloor = L.qFloor) (hq : M.q = L.q) (hb : M.bound = L.bound)
    (hF : M.fullness = L.fullness) : L.Kept M :=
  ⟨fun h => he.trans h, fun h => by rw [laneOk_iff, RateLaw, he, hf, hq, hb, hF]; exact h⟩

/-- A lane under the law has its q_floor at 5 or less, so a rate state set afresh may rest on that. -/
theorem Kept.of_floor (he : M.enabled = L.enabled) (h : L.qFloor ≤ 5 → M.RateLaw) : L.Kept M :=
  ⟨fun hL => he.trans hL, fun hL hM =>
    have hlaw : L.RateLaw := hL (he ▸ hM)
    h (hlaw.1.trans hlaw.2.1)⟩

/-- An enabled lane's intake moves on. -/
theorem Kept.of_intake (h : L.enabled = true) (hi : M.intake ≠ .disabled) (hf : M.qFloor = L.qFloor) (hq : M.q = L.q)
    (hb : M.bound = L.bound) (hF : M.fullness = L.fullness) : L.Kept M :=
  .of_rate (((enabled_iff M).2 hi).trans h.symm) hf hq hb hF

theorem chooseQ_bounds (h : L.qFloor ≤ 5) (f : Int) : L.qFloor ≤ L.chooseQ f ∧ L.chooseQ f ≤ 5 := clampNat_bounds h _

theorem charged_bounds (L : Lane) (c : Nat) : -(L.bound : Int) ≤ L.charged c ∧ L.charged c ≤ L.bound :=
  clampInt_bounds (by omega) _

theorem toWaiting_kept (L : Lane) : L.Kept L.toWaiting := by
  unfold toWaiting
  split
  next h => exact .of_intake h nofun rfl rfl rfl rfl
  next => exact .refl L

/-- CLEAR_MEDIA sets F to 0 and q to q_floor (R68). -/
theorem cleared_kept (L : Lane) : L.Kept L.cleared := by
  have hset : L.cleared = { L with intake := L.cleared.intake, fullness := 0, q := L.qFloor } := by
    unfold cleared toWaiting
    split <;> rfl
  have henabled : L.cleared.enabled = L.enabled := by
    simp only [cleared, toWaiting_eq, enabled]
    by_cases h : L.intake = .disabled <;> simp [h]
  refine .of_floor henabled fun h => ?_
  rw [hset]
  exact ⟨Nat.le_refl _, h, by simp, by simp⟩

/-- An enabled lane with new settings has its rate state brought into them (R59). -/
theorem retune_kept (L : Lane) {x : LaneSettings} (hx : x.qFloor ≤ 5) : L.Kept (L.write x).retune := by
  obtain ⟨hq, hq5⟩ := clampNat_bounds hx L.q
  obtain ⟨hF, hF'⟩ := clampInt_bounds (a := -(x.bound : Int)) (b := x.bound) (by omega) L.fullness
  exact .of_floor rfl fun _ => ⟨hq, hq5, hF, hF'⟩

/-- A lane is enabled with F at 0 and q at q_floor (R58). -/
theorem enable_kept (L : Lane) {x : LaneSettings} (hx : x.qFloor ≤ 5) : L.Kept (L.write x).enable :=
  ⟨fun _ => rfl, fun _ _ => ⟨Nat.le_refl _, hx, by simp [enable], by simp [enable]⟩⟩

end Lane

/-! ## Both laws from one state to another -/

/-- From `s` to `t` the law of R56 is kept, and so is that of R62. -/
structure PictureKept (s t : State) : Prop where
  lanes : LanesOk s → LanesOk t
  selector : SelectorOk s → SelectorOk t

section
variable {s t : State}

theorem PictureKept.refl (s : State) : PictureKept s s := ⟨id, id⟩

theorem PictureKept.trans {u : State} (h : PictureKept s t) (h' : PictureKept t u) : PictureKept s u :=
  ⟨h'.lanes ∘ h.lanes, h'.selector ∘ h.selector⟩

/-- No lane is disabled, each keeps its law, and the programme and the pending lane stand. -/
theorem PictureKept.of_lanes (h : ∀ l, (s.lanes.get l).Kept (t.lanes.get l)) (hp : t.sel.programme = s.sel.programme)
    (hw : t.sel.waiting = s.sel.waiting) : PictureKept s t := by
  refine ⟨fun hs l => (h l).ok (hs l), fun ⟨hprog, hwait⟩ => ⟨fun l hl => ?_, fun l hl => ?_⟩⟩
  · exact (h l).enabled (hprog l (hp ▸ hl))
  · obtain ⟨henabled, hother⟩ := hwait l (hw ▸ hl)
    exact ⟨(h l).enabled henabled, hp ▸ hother⟩

theorem PictureKept.of_air (hl : t.lanes = s.lanes) (hp : t.sel.programme = s.sel.programme)
    (hw : t.sel.waiting = s.sel.waiting) : PictureKept s t :=
  .of_lanes (fun l => by rw [hl]; exact .refl _) hp hw

theorem PictureKept.of_blocks (hl : t.lanes = s.lanes) (hs : t.sel = s.sel) : PictureKept s t :=
  .of_air hl (by rw [hs]) (by rw [hs])

/-- What comes first leaves the lanes and the selector. -/
theorem PictureKept.from_blocks {u : State} (h : PictureKept t u) (hl : t.lanes = s.lanes) (hs : t.sel = s.sel) :
    PictureKept s u := (PictureKept.of_blocks hl hs).trans h

/-- One lane is changed. -/
theorem PictureKept.of_lane {l : Fin 4} {M : Lane} (hl : t.lanes = s.lanes.set l M) (hs : t.sel = s.sel)
    (h : (s.lanes.get l).Kept M) : PictureKept s t := by
  refine .of_lanes (fun k => ?_) (by rw [hs]) (by rw [hs])
  rw [hl, Table.get_set]
  split
  next hk => exact hk ▸ h
  next => exact .refl _

theorem PictureKept.of_map {f : Lane → Lane} (hl : t.lanes = s.lanes.map f) (hs : t.sel = s.sel)
    (h : ∀ L : Lane, L.Kept (f L)) : PictureKept s t :=
  .of_lanes (fun l => by rw [hl, Table.get_map]; exact h _) (by rw [hs]) (by rw [hs])

end

section
variable {s : State}

theorem modLane_kept {l : Fin 4} {f : Lane → Lane} (h : (s.lanes.get l).Kept (f (s.lanes.get l))) :
    PictureKept s (s.modLane l f) := .of_lane rfl rfl h

theorem forEach_kept {α : Type} {f : α → State → State} (h : ∀ a t, PictureKept t (f a t)) (l : List α) :
    PictureKept s (forEach l f s) :=
  forEach_inv (.refl s) fun a _ t ht => ht.trans (h a t)

end

/-! ## The selector (R61 to R65) -/

/-- A request makes an enabled lane wait, unless it is the programme lane (R63). -/
theorem request_kept {s : State} {l : Fin 4} (h : (s.lanes.get l).enabled = true) :
    PictureKept s (s.modSel (Selector.request l)) := by
  refine ⟨id, fun ⟨hprog, _⟩ => ⟨hprog, fun k hk => ?_⟩⟩
  simp only [State.modSel_sel, Selector.request] at hk
  split at hk
  · cases hk
  next hother =>
    cases hk
    exact ⟨h, hother⟩

/-- A switch completed makes the pending lane, which is enabled, the programme lane (R64). -/
theorem completeSwitch_kept (l : Fin 4) (n : W32) (s : State) : PictureKept s (completeSwitch l n s) := by
  unfold completeSwitch
  split
  next hw =>
    refine ⟨fun hs => by simpa [LanesOk] using hs, fun ⟨_, hwait⟩ => ?_⟩
    simp only [SelectorOk, raise_frame, State.modSel_lanes, State.modSel_sel, Option.some.injEq, reduceCtorEq,
      false_implies, implies_true, and_true, forall_eq']
    exact (hwait l hw).1
  next => exact .refl s

/-- The selector after lane `l` has been disabled (R61, R65). -/
def Selector.dropped (l : Fin 4) (sel : Selector) : Selector :=
  { sel with
    programme := if sel.programme = some l then none else sel.programme
    waiting := if sel.waiting = some l then none else sel.waiting }

theorem dropFromSelector_sel (l : Fin 4) (s : State) : (dropFromSelector l s).sel = s.sel.dropped l := by
  unfold dropFromSelector Selector.dropped
  by_cases hw : s.sel.waiting = some l <;> by_cases hp : s.sel.programme = some l <;> simp [hw, hp]

/-- A lane that is disabled leaves the selector with it (R61). -/
theorem disabled_kept {s t : State} {l : Fin 4} {M : Lane} (hM : M.intake = .disabled) (hl : t.lanes = s.lanes.set l M)
    (hs : t.sel = s.sel.dropped l) : PictureKept s t := by
  have hget (k : Fin 4) (hk : k ≠ l) : t.lanes.get k = s.lanes.get k := by rw [hl, Table.get_set_ne _ _ hk.symm]
  refine ⟨fun h k hk => ?_, fun ⟨hprog, hwait⟩ => ⟨fun k hk => ?_, fun k hk => ?_⟩⟩
  · by_cases he : k = l
    · rw [he, hl, Table.get_set_self, M.enabled_iff] at hk
      exact absurd hM hk
    · rw [hget k he] at hk ⊢
      exact h k hk
  · simp only [hs, Selector.dropped] at hk
    split at hk
    · cases hk
    next hne =>
      rw [hget k fun he => hne (he ▸ hk)]
      exact hprog k hk
  · simp only [hs, Selector.dropped] at hk ⊢
    split at hk
    · cases hk
    next hne =>
      obtain ⟨henabled, hother⟩ := hwait k hk
      rw [hget k fun he => hne (he ▸ hk)]
      refine ⟨henabled, ?_⟩
      split
      · exact nofun
      · exact hother

/-! ## Rows and the intake (R33 to R40, R53 to R55) -/

/-- A charge chooses q from q_floor to 5, one more under pressure up to 5, and F within the bound (R53 to R55). -/
theorem chargeRow_kept (l : Fin 4) (c : Nat) (s : State) : PictureKept s (chargeRow l c s) := by
  obtain ⟨hF, hF'⟩ := (s.lanes.get l).charged_bounds c
  by_cases h : s.sel.programme = some l ∧ underPressure s = true
  · refine .of_lane (congrArg State.lanes (chargeRow_pressed h c)) (by simp) (.of_floor rfl fun hfloor => ?_)
    · obtain ⟨hq, -⟩ := Lane.chooseQ_bounds hfloor ((s.lanes.get l).charged c)
      exact ⟨Nat.le_min.2 ⟨Nat.le_succ_of_le hq, hfloor⟩, Nat.min_le_right _ _, hF, hF'⟩
  · refine .of_lane (congrArg State.lanes (chargeRow_unpressed h c)) (by simp) (.of_floor rfl fun hfloor => ?_)
    · obtain ⟨hq, hq5⟩ := Lane.chooseQ_bounds hfloor ((s.lanes.get l).charged c)
      exact ⟨hq, hq5, hF, hF'⟩

theorem rowComplete_kept (l : Fin 4) (j : Nat) (row : List Byte) (s : State) : PictureKept s (rowComplete l j row s) := by
  have hcharged (bits : List Bool) : PictureKept s (chargedRow l bits s) :=
    (modLane_kept (.of_rate rfl rfl rfl rfl rfl)).trans (chargeRow_kept l (rowCost bits.length) _)
  have hoffered (u : MUnit) (t : State) : PictureKept t (offerRow l u t) := .of_blocks (by simp) (by simp)
  rw [rowComplete_eq rfl rfl]
  exact (hcharged _).trans (hoffered _ _)

theorem rowComplete_enabled (l : Fin 4) (j : Nat) (row : List Byte) (s : State) :
    ((rowComplete l j row s).lanes.get l).enabled = (s.lanes.get l).enabled := by
  obtain ⟨n, f, q, h⟩ := rowComplete_lane l j row s
  rw [h]
  rfl

theorem feedRows_kept (l : Fin 4) (k : Nat) (d : List Byte) (s : State) : PictureKept s (feedRows l k d s) := by
  induction k generalizing d s with
  | zero => exact .refl s
  | succ k ih =>
    unfold feedRows
    split
    next g slot expected j part hg hi =>
      have henabled : (s.lanes.get l).enabled = true := (Lane.enabled_iff _).2 (by rw [hi]; exact nofun)
      have hrow (row : List Byte) : ((rowComplete l j row s).lanes.get l).enabled = true :=
        (rowComplete_enabled l j row s).trans henabled
      have hnext (off : Nat) (row : List Byte) : PictureKept s (nextRow l slot off j row s) :=
        (rowComplete_kept l j row s).trans (modLane_kept (.of_intake (hrow row) nofun rfl rfl rfl rfl))
      dsimp only
      split
      · exact modLane_kept (.of_intake henabled nofun rfl rfl rfl rfl)
      · split
        · exact (rowComplete_kept l j _ s).trans (modLane_kept (.of_intake (hrow _) nofun rfl rfl rfl rfl))
        · exact (hnext _ _).trans (ih _ _)
    next => exact .refl s

theorem frameStart_kept {l : Fin 4} {s : State} (h : (s.lanes.get l).enabled = true) (slot off : Nat) (d : List Byte) :
    PictureKept s (frameStart l slot off d s) := by
  have hintake : PictureKept s (inFrameFrom l slot off s) := modLane_kept (.of_intake h nofun rfl rfl rfl rfl)
  have hannounced (t : State) : PictureKept t (storeFrameStart l s.clock.frame t) := .of_blocks (by simp) (by simp)
  have hstarted : PictureKept s (frameStarted l slot off s) :=
    (hintake.trans (completeSwitch_kept l s.clock.frame _)).trans (hannounced _)
  exact hstarted.trans (feedRows_kept l _ d _)

theorem raiseSkew_kept {s t : State} (h : PictureKept s t) (l : Fin 4) (reason : SkewReason) (expected off rows : Nat) :
    PictureKept s (raiseSkew l reason expected off rows t) := h.trans (.of_blocks (by simp) (by simp))

theorem abandon_kept {l : Fin 4} {s : State} (h : (s.lanes.get l).enabled = true) (reason : SkewReason)
    (expected off rows : Nat) : PictureKept s (abandon l reason expected off rows s) := by
  have hwaiting : PictureKept s (s.modLane l fun L => { L with intake := .waiting, skews := L.skews + 1 }) :=
    modLane_kept (.of_intake h nofun rfl rfl rfl rfl)
  exact raiseSkew_kept (hwaiting.trans (.of_blocks (by simp) (by simp))) _ _ _ _ _

/-- A lane without a geometry takes nothing (R33). -/
theorem takePicture_no_geometry {l : Fin 4} {s : State} (h : (s.lanes.get l).geom = none) (off : Nat) (d : List Byte) :
    takePicture l off d s = s := by
  cases hi : (s.lanes.get l).intake <;> simp only [takePicture, h, hi]

theorem takePicture_kept (l : Fin 4) (off : Nat) (d : List Byte) (s : State) : PictureKept s (takePicture l off d s) := by
  have henabled : (s.lanes.get l).intake ≠ .disabled → (s.lanes.get l).enabled = true := (Lane.enabled_iff _).2
  have habandoned (reason : SkewReason) (expected j : Nat) :
      ((abandon l reason expected off j s).lanes.get l).enabled = true := by rw [abandon_lane]; rfl
  cases hg : (s.lanes.get l).geom with
  | none =>
    rw [takePicture_no_geometry hg]
    exact .refl s
  | some g =>
    cases hi : (s.lanes.get l).intake with
    | disabled =>
      rw [takePicture_disabled hi]
      exact .refl s
    | waiting =>
      by_cases hodd : OddPiece off d
      · rw [takePicture_waiting_odd hg hi hodd]
        exact raiseSkew_kept (modLane_kept (.of_rate rfl rfl rfl rfl rfl)) _ _ _ _ _
      cases hslot : g.slotAt off with
      | none =>
        rw [takePicture_waiting_stray hg hi hodd hslot]
        exact modLane_kept (.of_rate rfl rfl rfl rfl rfl)
      | some k =>
        rw [takePicture_waiting_start hg hi hodd hslot]
        exact frameStart_kept (henabled (by rw [hi]; exact nofun)) _ _ _
    | inFrame slot expected j part =>
      have hon := henabled (by rw [hi]; exact nofun)
      by_cases hodd : OddPiece off d
      · rw [takePicture_inFrame_odd hg hi hodd]
        exact abandon_kept hon _ _ _ _
      by_cases he : off = expected
      · rw [takePicture_inFrame_expected hg hi hodd he]
        exact feedRows_kept _ _ _ _
      cases hslot : g.slotAt off with
      | none =>
        rw [takePicture_inFrame_offset hg hi hodd he hslot]
        exact abandon_kept hon _ _ _ _
      | some k =>
        rw [takePicture_inFrame_restart hg hi hodd he hslot]
        exact (abandon_kept hon _ _ _ _).trans (frameStart_kept (habandoned _ _ _) _ _ _)

/-! ## Acceptance (R1, R10) -/

theorem handWrite_kept (f : Fn) (off : Nat) (i : Fin 16) (d : List Byte) (s : State) :
    PictureKept s (handWrite f off i d s) := by
  cases f with
  | picture l => exact takePicture_kept l off d s
  | notices =>
    simp only [handWrite]
    split
    · exact .of_blocks (by simp) (by simp)
    · exact .refl s
  | _ => exact .of_blocks (by simp [handWrite]) (by simp [handWrite])

theorem takePiece_kept (p : Piece) (s : State) : PictureKept s (takePiece p s) := by
  unfold takePiece
  split
  · split
    · exact .refl s
    · exact .of_blocks (by simp) (by simp)
  · dsimp only
    split
    · exact (handWrite_kept _ _ _ _ _).from_blocks rfl rfl
    · exact .of_blocks rfl rfl

theorem acceptRequest_kept (r : Request) (s : State) : PictureKept s (acceptRequest r s) :=
  PictureKept.from_blocks (forEach_kept takePiece_kept _) (by simp) (by simp)

theorem acceptHeld_kept (s : State) : PictureKept s (acceptHeld s) :=
  acceptHeld_inv (.refl s) fun r _ _ ht =>
    ht.trans ((acceptRequest_kept r _).from_blocks rfl rfl)

/-! ## Cues and ticks (R16, R40, R67, R154, R155) -/

theorem applyAct_kept (n : Nat) (a : CueAct) (s : State) : PictureKept s (applyAct n a s).1 := by
  cases a with
  | switch l =>
    simp only [applyAct]
    split
    next h => exact request_kept h
    next => exact .refl s
  | fade t g p =>
    simp only [applyAct]
    split
    · exact .of_blocks rfl rfl
    · exact .refl s
  | _ => exact .of_blocks (by simp [applyAct]) (by simp [applyAct])

theorem applySlot_kept (e : Cue) (i : Fin 4) (r : State × List Nat) : PictureKept r.1 (applySlot e i r).1 := by
  refine (applyAct_kept e.id (e.acts.get i) r.1).trans ?_
  simp only [applySlot]
  split
  · exact .refl _
  · exact .of_blocks (by simp) (by simp)

theorem applySlots_kept (e : Cue) (s : State) : PictureKept s (applySlots e s).1 := by
  suffices ∀ (l : List (Fin 4)) (r : State × List Nat), PictureKept r.1 (l.foldl (fun r i => applySlot e i r) r).1 from
    this _ (s, [])
  intro l
  induction l with
  | nil => exact fun r => .refl r.1
  | cons i l ih => exact fun r => (applySlot_kept e i r).trans (ih _)

theorem fireHead_kept (s : State) : PictureKept s (fireHead s) := by
  unfold fireHead
  split
  · exact .refl s
  next e _ _ => exact (applySlots_kept e s).trans (.of_blocks (by simp) (by simp))

theorem fireDue_kept (k : Nat) (s : State) : PictureKept s (fireDue k s) := by
  induction k generalizing s with
  | zero => exact .refl s
  | succ k ih =>
    unfold fireDue
    split
    · exact (fireHead_kept s).trans (ih _)
    · exact .refl s

theorem runAct_kept (o : Opening) (a : TickAct) (s : State) : PictureKept s (runAct o a s) := by
  cases a with
  | cueNext =>
    simp only [runAct, fireNext]
    split
    · exact fireHead_kept s
    · exact .refl s
  | cues =>
    have hrebase (t : State) : PictureKept t (rebase t) := .of_blocks (by simp) (by simp)
    simp only [runAct]
    split
    · exact (fireDue_kept _ s).trans (hrebase _)
    · exact fireDue_kept _ s
  | onAir =>
    rw [runAct, onAirTick_eq]
    exact .of_air rfl rfl rfl
  | midnight =>
    simp only [runAct]
    split
    · exact .of_blocks (by simp) (by simp)
    · exact .refl s
  | _ => exact .of_blocks (by simp [runAct]) (by simp [runAct])

theorem openFrame_kept (s : State) : PictureKept s (openFrame s) := by
  unfold openFrame
  split
  · exact .of_map rfl rfl fun _ => .of_rate rfl rfl rfl rfl rfl
  · exact .refl s

theorem tick_kept (i : TickIn) (s : State) : PictureKept s (tick i s) := by
  have hopen : PictureKept s (openFrame (s.setLevels i.levels)) :=
    (openFrame_kept _).from_blocks rfl rfl
  exact (hopen.trans (forEach_kept (runAct_kept _) _)).trans (.of_blocks rfl rfl)

theorem tickWhen_kept (b : Bool) (i : TickIn) (s : State) : PictureKept s (tickWhen b i s) := by
  cases b with
  | false => exact .refl s
  | true => exact tick_kept i s

/-! ## The host's commands (R30, R57 to R65, R68, R157) -/

theorem carryOut_kept {p : Nat → Bool} {f : Command → State → State × Result} {s : State}
    (h : ∀ c, PictureKept s (f c s).1) : PictureKept s (carryOut p f s) :=
  carryOut_keeps (.refl s) h fun _ _ _ ht => ht.trans (.of_blocks (by simp) (by simp))

theorem setPicture_kept (c : Command) (s : State) : PictureKept s (setPicture c s).1 := by
  by_cases hl : 3 < c.word 0
  · rw [setPicture_badLane hl]
    exact .refl s
  · rw [setPicture_lane (l := ⟨c.word 0, by omega⟩) rfl]
    (repeat' split)
    · exact .refl s
    · exact .refl s
    · exact .refl s
    · exact .refl s
    · exact .refl s
    · exact .of_lane rfl rfl (.of_rate rfl rfl rfl rfl rfl)

theorem setProgram_kept (c : Command) (s : State) : PictureKept s (setProgram c s).1 := by
  by_cases hl : 3 < c.word 0
  · rw [setProgram_badLane hl]
    exact .refl s
  · rw [setProgram_lane (l := ⟨c.word 0, by omega⟩) rfl]
    split
    · exact .refl s
    next h => exact request_kept ((Lane.enabled_iff _).2 h)

/-- SET_LANE with a q_floor of 5 or less enables, retunes or disables the lane, or only writes its settings. -/
theorem writeLane_kept (l : Fin 4) (enable : Bool) {x : LaneSettings} (hx : x.qFloor ≤ 5) (s : State) :
    PictureKept s (writeLane l enable x s) := by
  unfold writeLane
  dsimp only
  split
  next hoff =>
    split
    · exact modLane_kept (Lane.enable_kept _ hx)
    · exact modLane_kept ⟨fun h => h, fun _ h => absurd (h.symm.trans hoff) (by simp)⟩
  next =>
    have hretuned : PictureKept s (s.modLane l fun L => (L.write x).retune) := modLane_kept (Lane.retune_kept _ hx)
    split
    · split
      · exact hretuned.trans (.of_blocks (by simp) (by simp))
      · exact hretuned
    · refine disabled_kept (l := l) (M := { (s.lanes.get l).write x with intake := .disabled }) rfl ?_ ?_
      · split <;> simp [Table.modify]
      · rw [dropFromSelector_sel]
        split <;> simp

theorem LaneSettings.clamped_qFloor (x : LaneSettings) : x.clamped.qFloor ≤ 5 := Nat.min_le_right _ _

theorem setLane_kept (c : Command) (s : State) : PictureKept s (setLane c s).1 := by
  unfold setLane
  split
  · exact .refl s
  · exact .refl s
  · exact .refl s
  · dsimp only
    split
    · exact .refl s
    · split
      · exact .refl s
      · exact writeLane_kept _ _ (LaneSettings.clamped_qFloor _) s

theorem forceCue_kept (c : Command) (s : State) : PictureKept s (forceCue c s).1 := by
  unfold forceCue
  split
  · exact .refl s
  next e _ => exact (applySlots_kept e s).trans (.of_blocks (by simp) (by simp))

theorem clearMedia_kept (c : Command) (s : State) : PictureKept s (clearMedia c s).1 :=
  .of_map (by simp [clearMedia]) (by simp) Lane.cleared_kept

/-! ## Every step -/

theorem powerOnReset_kept {b : Bool} {s t : State} (ht : exec (.powerOnReset b) s = .next t) : PictureKept s t := by
  cases ht
  refine PictureKept.trans ⟨fun _ => reset_lanesOk, fun _ => reset_selectorOk⟩ (.of_blocks ?_ ?_) <;> cases b <;> simp

/-- Every command keeps the law of R56 and the law of R62. -/
theorem exec_pictureKept {c : Instr} {s t : State} (ht : exec c s = .next t) : PictureKept s t := by
  cases c with
  | powerOnReset b => exact powerOnReset_kept ht
  | linkReset =>
    rw [exec_linkReset_eq] at ht
    cases ht
    exact .of_map (by simp [linkResetBlocks]) (by simp [linkResetBlocks]) Lane.toWaiting_kept
  | configEntryRead e b =>
    cases hl : s.ctl.loader with
    | reading i last =>
      rw [exec_configEntryRead_reading e b hl] at ht
      cases ht
      exact (acceptHeld_kept _).from_blocks (by simp) (by simp)
    | ended =>
      rw [exec_configEntryRead_ended e b hl] at ht
      cases ht
      exact .refl s
  | requestAccept r =>
    rw [exec_requestAccept_next ht]
    exact (acceptHeld_kept _).from_blocks rfl rfl
  | downstreamGrant | setAperture | clearAperture | linkUp =>
    cases ht
    exact (acceptHeld_kept _).from_blocks (by simp) (by simp)
  | sampleTick i => cases ht; exact tick_kept i s
  | frameTick | frameCountWrap | midnight | refLost | soundSilent | soundUnitClose | markConfirm | stall | cueFiring =>
    cases ht
    exact tickWhen_kept _ _ s
  | setPicture => cases ht; exact carryOut_kept fun c => setPicture_kept c s
  | setLane => cases ht; exact carryOut_kept fun c => setLane_kept c s
  | setProgram => cases ht; exact carryOut_kept fun c => setProgram_kept c s
  | forceCue => cases ht; exact carryOut_kept fun c => forceCue_kept c s
  | clearMedia => cases ht; exact carryOut_kept fun c => clearMedia_kept c s
  | _ => cases ht; exact .of_blocks (by simp) (by simp)

/-- Settles O8: only a charge, SET_LANE and CLEAR_MEDIA touch the rate state, and each brings it into the lane's range. -/
theorem enabledLanesKeepTheRateLaw : Obligations.EnabledLanesKeepTheRateLaw :=
  ⟨reset_lanesOk, keptByStep_of_exec (fun _ _ h => h) fun _ _ _ hs ht => (exec_pictureKept ht).lanes hs⟩

/-- Settles O9: a lane becomes pending only while it is enabled, the pending one becomes the programme lane, and a lane
that is disabled leaves the selector with it. -/
theorem selectorStaysLegal : Obligations.SelectorStaysLegal :=
  keptByStep_of_exec (fun _ _ h => h) fun _ _ _ hs ht => (exec_pictureKept ht).selector hs

end Sys2Proof.Machine
end

section
/-! SET_LANE: its settings in range, the recording that it ends and the selector that a disabled lane leaves (R57 to R61,
R65, R128, R129, R147, R148). -/

namespace Sys2Proof.Machine

open Sys2Proof.Safety

/-! ## The selector's notices at a disable (R61, R65) -/

/-- A notice does not look at the selector. -/
theorem raise_modSel (k : NoticeKind) (j : Nat) (d : List Item) (f : Selector → Selector) (s : State) :
    raise k j d (s.modSel f) = (raise k j d s).modSel f := by
  unfold raise raiseAt
  have hap : ap .notices (s.modSel f) = ap .notices s := rfl
  rw [hap]
  cases ap .notices s with
  | none => rfl
  | some a =>
    dsimp only
    by_cases h : noticeSlots a.size ≤ s.ctl.written - s.ctl.released
    · refine (if_pos h).trans ?_
      rw [if_pos h]
      rfl
    · refine (if_neg h).trans ?_
      rw [if_neg h]
      rfl

/-- The notices that the selector `sel` raises as lane `l` is disabled: the pending switch FAILED, then the programme lane
DROPPED. -/
def selectorNotices (l : Fin 4) (sel : Selector) (s : State) : State :=
  let w := if sel.waiting = some l then
      raise .programSwitched l.val [b1 1, b1 (laneCode sel.programme), b4 0] s else s
  if sel.programme = some l then raise .programSwitched l.val [b1 2] w else w

theorem dropFromSelector_eq (l : Fin 4) (s : State) :
    dropFromSelector l s = selectorNotices l s.sel { s with sel := s.sel.dropped l } := by
  have hdropped {g : Selector → Selector} (h : g s.sel = s.sel.dropped l) :
      { s with sel := s.sel.dropped l } = s.modSel g := by rw [State.modSel, h]
  by_cases hw : s.sel.waiting = some l <;> by_cases hp : s.sel.programme = some l
  · rw [hdropped (g := fun sel => { sel with programme := none, waiting := none })
      (by rw [Selector.dropped, if_pos hp, if_pos hw])]
    simp only [dropFromSelector, selectorNotices, if_pos hw, if_pos hp, raise_frame, State.modSel_sel, ← raise_modSel]
    rfl
  · rw [hdropped (g := fun sel => { sel with waiting := none }) (by rw [Selector.dropped, if_neg hp, if_pos hw])]
    simp only [dropFromSelector, selectorNotices, if_pos hw, if_neg hp, raise_frame, State.modSel_sel]
    rfl
  · rw [hdropped (g := fun sel => { sel with programme := none }) (by rw [Selector.dropped, if_pos hp, if_neg hw])]
    simp only [dropFromSelector, selectorNotices, if_neg hw, if_pos hp]
    rfl
  · rw [hdropped (g := id) (by rw [Selector.dropped, if_neg hp, if_neg hw]; rfl)]
    simp only [dropFromSelector, selectorNotices, if_neg hw, if_neg hp]
    rfl

/-! ## The end of a lane's recording (R60, R61, R129; logs 30 and 50) -/

/-- One end after another leaves the most recent stored unit, so all of the clips take the same one. -/
theorem forEach_resolveEnd (last : W32 × Nat) (is : List (Fin 256)) {s : State} (h : lastStored s = last) :
    forEach is resolveEnd s = forEach is (changeRec · (endedClip last)) s := by
  induction is generalizing s with
  | nil => rfl
  | cons i is ih =>
    have hend : resolveEnd i s = changeRec i (endedClip last) s := by
      rw [← h]
      rfl
    rw [forEach_cons, forEach_cons, hend]
    exact ih ((lastStored_congr (by simp) (by simp) (by simp)).trans h)

theorem stopRecording_eq (l : Fin 4) (s : State) : stopRecording l s = recordingEnded l s := by
  have hlogOnly (p : Clip → Bool) (t : State) :
      pendingToLogOnly p t = changedWhere (fun R => R.firstPending && p R) logOnlyClip t :=
    forEach_recsWhere (fun R => R.firstPending && p R)
      (f := fun R => { R with firstPending := false, endPending := false, logOnly := true }) (fun _ => rfl) t
  rw [stopRecording, hlogOnly, forEach_resolveEnd _ _ rfl, forEach_recsWhere _ (f := endedClip _) fun _ => rfl]
  rfl

/-- What a recording stop makes of each record, whatever the rest of the state has become meanwhile (R129, R147). -/
theorem recordingEnded_stopped {l : Fin 4} {s u t : State} (hlog : u.log = s.log) (hlast : lastStored u = lastStored s)
    (ht : t.log = (recordingEnded l u).log) : RecordingStopped l s t := by
  refine ⟨by rw [ht, ← hlog]; rfl, ?_⟩
  rintro i R rfl ends hends
  have hP : (decide ((s.log.recs.get i).source = l) && (s.log.recs.get i).first.isSome && (s.log.recs.get i).last.isNone
      && (decide ((s.log.recs.get i).state = .opened) || decide ((s.log.recs.get i).state = .closed))) = true ↔ ends := by
    rw [hends]
    simp [and_assoc]
  rw [ht, recordingEnded, changedWhere_get, changedWhere_get, hlog, hlast]
  refine ⟨fun h hf => ?_, fun h hs hf => ?_, fun h hn => ?_⟩
  · rw [if_pos (hP.2 h), if_neg (by simp [endedClip, hf])]
    rfl
  · rw [if_neg (mt hP.1 h), if_pos (by simp [hs, hf])]
    rfl
  · rw [if_neg (mt hP.1 h), if_neg]
    rcases hn with hn | hn <;> simp [hn]

/-! ## The checks of SET_LANE and its settings (R57) -/

/-- The settings that a SET_LANE names. -/
def Command.laneSettings (c : Command) : LaneSettings :=
  ⟨c.word 2, c.word 3, c.word 4, c.word 5, c.word 6, decide (c.word 7 = 1)⟩

section
variable {c : Command} (s : State)

theorem setLane_badLane (h : 3 < c.word 0) : setLane c s = (s, .refused .badField 1) := by
  rw [setLane, asFin_eq_none.2 h]
  rfl

theorem setLane_badEnable (h0 : c.word 0 ≤ 3) (h : 1 < c.word 1) : setLane c s = (s, .refused .badField 2) := by
  rw [setLane, asFin_lt (Nat.lt_succ_of_le h0), asFin_eq_none.2 h]
  rfl

theorem setLane_badRecord (h0 : c.word 0 ≤ 3) (h1 : c.word 1 ≤ 1) (h : 1 < c.word 7) :
    setLane c s = (s, .refused .badField 3) := by
  rw [setLane, asFin_lt (Nat.lt_succ_of_le h0), asFin_lt (Nat.lt_succ_of_le h1), asFin_eq_none.2 h]
  rfl

/-- SET_LANE with its fields in range: a lane that is to be enabled needs a geometry and an aperture. -/
theorem setLane_lane {l : Fin 4} (h0 : c.word 0 = l.val) (h1 : c.word 1 ≤ 1) (h7 : c.word 7 ≤ 1) : setLane c s =
    if c.word 1 = 1 ∧ (s.lanes.get l).intake = .disabled ∧ (s.lanes.get l).geom = none then (s, .refused .state 1)
    else if c.word 1 = 1 ∧ (s.lanes.get l).intake = .disabled ∧ ap (.picture l) s = none then (s, .refused .state 2)
    else (writeLane l (decide (c.word 1 = 1)) c.laneSettings.clamped s, clampedResult c.laneSettings.changed) := by
  have hone {n : Nat} (h : n < 2) : (⟨n, h⟩ : Fin 2) = 1 ↔ n = 1 := Fin.ext_iff
  have hoff : (s.lanes.get l).enabled = false ↔ (s.lanes.get l).intake = .disabled := by simp [Lane.enabled]
  simp only [setLane, h0, asFin_val, asFin_lt (n := 2) (Nat.lt_succ_of_le h1), asFin_lt (n := 2) (Nat.lt_succ_of_le h7),
    hone, hoff,
    Option.isNone_iff_eq_none]
  rfl

end

/-! ## The lane written (R58 to R61) -/

section
variable {s : State} {l : Fin 4}

theorem writeLane_settings (h : (s.lanes.get l).intake = .disabled) (x : LaneSettings) :
    writeLane l false x s = { s with lanes := s.lanes.set l ((s.lanes.get l).write x) } := by
  have hoff : (s.lanes.get l).enabled = false := by simp [Lane.enabled, h]
  simp only [writeLane, hoff, if_true]
  rfl

theorem writeLane_enable (h : (s.lanes.get l).intake = .disabled) (x : LaneSettings) :
    writeLane l true x s = { s with lanes := s.lanes.set l ((s.lanes.get l).write x).enable } := by
  have hoff : (s.lanes.get l).enabled = false := by simp [Lane.enabled, h]
  simp only [writeLane, hoff, if_true]
  rfl

theorem writeLane_retune (h : (s.lanes.get l).intake ≠ .disabled) (x : LaneSettings) {u : State}
    (hu : u = { s with lanes := s.lanes.set l ((s.lanes.get l).write x).retune }) : writeLane l true x s =
      if (s.lanes.get l).record = true ∧ x.record = false then recordingEnded l u else u := by
  have hon : (s.lanes.get l).enabled = true := (Lane.enabled_iff _).2 h
  rw [← stopRecording_eq, hu]
  simp only [writeLane, hon, Bool.true_eq_false, if_false, if_true]
  rfl

theorem writeLane_disable (h : (s.lanes.get l).intake ≠ .disabled) (x : LaneSettings) {u : State}
    (hu : u = { s with
      lanes := s.lanes.set l { (s.lanes.get l).write x with intake := .disabled }, sel := s.sel.dropped l }) :
    writeLane l false x s = selectorNotices l s.sel (if (s.lanes.get l).record = true then recordingEnded l u else u) := by
  have hon : (s.lanes.get l).enabled = true := (Lane.enabled_iff _).2 h
  subst hu
  simp only [writeLane, hon, Bool.true_eq_false, if_false, dropFromSelector_eq]
  by_cases hr : (s.lanes.get l).record = true
  · simp only [hr, if_true, stopRecording_eq]
    rfl
  · simp only [hr]
    rfl

end

/-! ## The parts of the statement -/

/-- A notice changes the control block and the insert queue's holds alone. -/
theorem raise_eq (k : NoticeKind) (j : Nat) (d : List Item) (s : State) :
    raise k j d s = { s with ins := (raise k j d s).ins, ctl := (raise k j d s).ctl } := by
  unfold raise raiseAt
  cases ap .notices s with
  | none => rfl
  | some a =>
    dsimp only
    split <;> rfl

theorem selectorNotices_eq (l : Fin 4) (sel : Selector) (s : State) :
    selectorNotices l sel s = { s with ins := (selectorNotices l sel s).ins, ctl := (selectorNotices l sel s).ctl } := by
  obtain ⟨w, hw⟩ : ∃ w, w = if sel.waiting = some l then
      raise .programSwitched l.val [b1 1, b1 (laneCode sel.programme), b4 0] s else s := ⟨_, rfl⟩
  have hfailed : w = { s with ins := w.ins, ctl := w.ctl } := by
    rw [hw]
    split
    · exact raise_eq _ _ _ _
    · rfl
  simp only [selectorNotices, ← hw]
  split
  · exact (raise_eq _ _ _ _).trans (by rw [hfailed])
  · exact hfailed

section
variable {s t : State} {l : Fin 4} (hon : (s.lanes.get l).intake ≠ .disabled) (x : LaneSettings)
include hon

/-- A lane that stays enabled: its settings and rate state, and the end of its recording when its flag is cleared (R59,
R60). -/
theorem writeLane_retune_parts (ht : t = writeLane l true x s) :
    t = { s with lanes := s.lanes.set l ((s.lanes.get l).write x).retune, log := t.log, ins := t.ins }
    ∧ ((s.lanes.get l).record = false ∨ x.record = true → t = { s with lanes := t.lanes })
    ∧ ((s.lanes.get l).record = true → x.record = false →
      t = recordingEnded l { s with lanes := t.lanes } ∧ RecordingStopped l s t) := by
  rw [writeLane_retune hon x rfl] at ht
  refine ⟨?_, fun hn => ?_, fun hr hx => ?_⟩
  · rw [ht]
    split <;> rfl
  · have hgoes : ¬((s.lanes.get l).record = true ∧ x.record = false) := by
      rintro ⟨hr, hx⟩
      rcases hn with hn | hn <;> simp [hn] at hr hx
    rw [if_neg hgoes] at ht
    rw [ht]
  · rw [if_pos ⟨hr, hx⟩] at ht
    refine ⟨by rw [ht]; rfl, ?_⟩
    exact recordingEnded_stopped (u := { s with lanes := t.lanes }) rfl (lastStored_congr rfl rfl rfl) (by rw [ht]; rfl)

/-- A lane that is disabled: its intake and the selector, the end of its recording, and then the notices (R61, R65). -/
theorem writeLane_disable_parts {u v : State} (ht : t = writeLane l false x s)
    (hu : u = { s with lanes := t.lanes, sel := t.sel })
    (hv : v = if (s.lanes.get l).record = true then recordingEnded l u else u) :
    t = { s with
      lanes := s.lanes.set l { (s.lanes.get l).write x with intake := .disabled }, sel := s.sel.dropped l
      log := t.log, ins := t.ins, ctl := t.ctl }
    ∧ t = selectorNotices l s.sel v
    ∧ ((s.lanes.get l).record = false → t.log = s.log)
    ∧ ((s.lanes.get l).record = true → RecordingStopped l s t) := by
  obtain ⟨d, hd⟩ : ∃ d, d = { s with
    lanes := s.lanes.set l { (s.lanes.get l).write x with intake := .disabled }, sel := s.sel.dropped l } := ⟨_, rfl⟩
  rw [writeLane_disable hon x hd] at ht
  obtain ⟨e, he⟩ : ∃ e, e = if (s.lanes.get l).record = true then recordingEnded l d else d := ⟨_, rfl⟩
  rw [← he] at ht
  have hended : e = { d with log := e.log, ins := e.ins } := by
    rw [he]
    split <;> rfl
  have hnoted : t = { e with ins := t.ins, ctl := t.ctl } := by
    rw [ht]
    exact selectorNotices_eq l s.sel e
  have hlog : t.log = e.log := by rw [hnoted]
  have hud : u = d := by rw [hu, hnoted, hended, hd]
  have hve : v = e := by rw [hv, hud, he]
  refine ⟨by rw [hnoted, hended, hd], hve ▸ ht, fun h => ?_, fun h => ?_⟩
  · rw [hlog, he, h, hd]
    rfl
  · rw [if_pos h] at he
    exact recordingEnded_stopped (u := d) (by rw [hd]) (lastStored_congr (by rw [hd]) (by rw [hd]) (by rw [hd]))
      (by rw [hlog, he])

end

/-- Settles O44. -/
theorem setLaneWritesClampedSettings : Obligations.SetLaneWritesClampedSettings := by
  intro s c hh hc
  refine ⟨fun h => ?_, fun h0 h => ?_, fun h0 h1 h => ?_, fun l hl h1 h7 L M r hL hM hr => ?_⟩
  · rw [exec_atHead (exec_setLane s) hh hc, setLane_badLane s h]
  · rw [exec_atHead (exec_setLane s) hh hc, setLane_badEnable s h0 h]
  · rw [exec_atHead (exec_setLane s) hh hc, setLane_badRecord s h0 h1 h]
  · have hexec := exec_atHead (exec_setLane s) hh hc
    rw [setLane_lane s hl h1 h7] at hexec
    obtain rfl : M = L.write c.laneSettings.clamped := hM
    obtain rfl : r = clampedResult c.laneSettings.changed := hr
    subst hL
    refine ⟨fun hoff he => ?_, fun hoff he => ?_, fun hon he => ?_, fun hon he => ?_⟩
    · rw [hexec, if_neg (by omega), if_neg (by omega), he]
      exact congrArg (fun t => Host.Outcome.next (answered c _ t)) (writeLane_settings hoff _)
    · simp only [he, hoff, true_and, answered_ite, decide_true, writeLane_enable hoff] at hexec
      exact hexec
    · rw [if_neg (fun ⟨_, h, _⟩ => hon h), if_neg (fun ⟨_, h, _⟩ => hon h), he] at hexec
      obtain ⟨heq, hgoes, hends⟩ := writeLane_retune_parts hon c.laneSettings.clamped rfl
      have hflag : c.laneSettings.clamped.record = decide (c.word 7 = 1) := rfl
      rw [hflag] at hgoes hends
      refine ⟨_, hexec, heq, ?_, fun hrec h0 => (hends hrec (by simp [h0])).2⟩
      rintro u rfl
      exact ⟨fun h => hgoes (h.imp id fun h => by simp [h]), fun hrec h0 => (hends hrec (by simp [h0])).1⟩
    · rw [if_neg (fun ⟨_, h, _⟩ => hon h), if_neg (fun ⟨_, h, _⟩ => hon h), he] at hexec
      have hparts {u v : State} := writeLane_disable_parts (u := u) (v := v) hon c.laneSettings.clamped rfl
      obtain ⟨heq, -, hlog, hstopped⟩ := hparts rfl rfl
      refine ⟨_, hexec, heq, ?_, hlog, hstopped⟩
      rintro u v hu hv w rfl
      exact (hparts hu hv).2.1

end Sys2Proof.Machine
end

section
/-! Sound intake: what an input does with a piece, by its intake state (R70, R73 to R76). -/

namespace Sys2Proof.Machine

open Sys2Proof.Safety

/-! ## The words of a sample frame (R70) -/

/-- Behind the first word of a sample frame the values go on with those of the rest. -/
theorem sampleWords_getD {bs : List Byte} {c : Nat} (h : 4 * c + 4 ≤ bs.length) :
    (sampleWords bs).getD c 0 = (BitVec.ofNat 24 (ofLe (slice (4 * c) 3 bs))).toInt := by
  induction c generalizing bs with
  | zero =>
    match bs, h with
    | _ :: _ :: _ :: _ :: _, _ => rfl
  | succ c ih =>
    match bs, h with
    | _ :: _ :: _ :: _ :: rest, h =>
      have hrest : 4 * c + 4 ≤ rest.length := by simpa [Nat.mul_add] using h
      exact ih hrest

theorem anyInvalid_iff (bs : List Byte) : anyInvalid bs = true ↔
    ∃ c, 4 * c + 4 ≤ bs.length ∧ (bs.getD (4 * c + 3) 0).getLsbD 7 = true := by
  induction bs using anyInvalid.induct with
  | case1 a b c d rest ih =>
    rw [anyInvalid, Bool.or_eq_true, ih]
    constructor
    · rintro (h | ⟨k, hk, h⟩)
      · exact ⟨0, by simp, h⟩
      · exact ⟨k + 1, by simpa [Nat.mul_add] using hk, h⟩
    · rintro ⟨_ | k, hk, h⟩
      · exact .inl h
      · exact .inr ⟨k, by simpa [Nat.mul_add] using hk, h⟩
  | case2 bs hshort =>
    have hlen : bs.length < 4 := by
      match bs, hshort with
      | [], _ | [_], _ | [_, _], _ | [_, _, _], _ => simp
      | a :: b :: c :: d :: rest, h => exact (h a b c d rest rfl).elim
    have hnone : anyInvalid bs = false := by
      rw [anyInvalid]
      exact hshort
    rw [hnone]
    constructor
    · intro h
      cases h
    · rintro ⟨c, hc, -⟩
      omega

/-! ## Bytes taken in RUNNING (R74 to R76) -/

namespace SoundInput

section
variable {size at0 : Nat} {part d : List Byte} {X : SoundInput}

theorem feed_short (h : d.length < X.frameLen - part.length) (k : Nat) :
    feed size (k + 1) at0 part d X = { X with intake := .running (at0 + d.length) (part ++ d) } :=
  if_pos h

/-- A sample frame that fills up completes, and the ring end or the bytes left decide what follows. -/
theorem feed_full {need : Nat} (hneed : need = X.frameLen - part.length) (h : need ≤ d.length) (k : Nat) :
    feed size (k + 1) at0 part d X =
      if at0 + need = X.ringEnd size then { X.complete (part ++ d.take need) with intake := .running 0 [] }
      else feed size k (at0 + need) [] (d.drop need) (X.complete (part ++ d.take need)) := by
  subst hneed
  exact if_neg (Nat.not_lt.2 h)

end

/-- The taking of bytes does not look at the intake state it replaces. -/
theorem feed_intake (size k at0 : Nat) (part d : List Byte) (X : SoundInput) (J : SoundIntake) :
    feed size k at0 part d { X with intake := J } = feed size k at0 part d X := by
  induction k generalizing at0 part d X with
  | zero => rfl
  | succ k ih =>
    by_cases h : d.length < X.frameLen - part.length
    · exact (feed_short (X := { X with intake := J }) h k).trans (feed_short h k).symm
    · have h := Nat.not_lt.1 h
      rw [feed_full (X := { X with intake := J }) rfl h k, feed_full rfl h k]
      exact if_congr Iff.rfl rfl (ih _ _ _ (X.complete _))

/-- From a frame boundary on, more rounds than bytes are enough, however many. -/
theorem feed_rounds {size k m at0 : Nat} {d : List Byte} {X : SoundInput} (hX : 1 ≤ X.frameLen) (hk : d.length < k)
    (hm : d.length < m) : feed size k at0 [] d X = feed size m at0 [] d X := by
  induction k generalizing m at0 d X with
  | zero => omega
  | succ k ih =>
    obtain ⟨m, rfl⟩ : ∃ j, m = j + 1 := ⟨m - 1, by omega⟩
    by_cases h : d.length < X.frameLen - ([] : List Byte).length
    · rw [feed_short h, feed_short h]
    · have h := Nat.not_lt.1 h
      have hrest : (d.drop (X.frameLen - ([] : List Byte).length)).length < d.length := by
        rw [List.length_drop, List.length_nil] at *
        omega
      rw [feed_full rfl h, feed_full rfl h]
      exact if_congr Iff.rfl rfl (ih hX (by omega) (by omega))

/-! ## A piece handed to an input, by its intake state (R73 to R75) -/

theorem boundary_iff (X : SoundInput) (size off : Nat) : X.boundary size off = true ↔
    off % (X.channels * 4) = 0 ∧ off < size / (X.channels * 4) * (X.channels * 4) := by
  rw [boundary, Bool.and_eq_true, decide_eq_true_eq, decide_eq_true_eq]
  rfl

section
variable {X : SoundInput} {size off : Nat} {d : List Byte}

theorem take_disabled (h : X.intake = .disabled) : X.take size off d = X := by
  simp only [take, h]

theorem take_expected {part : List Byte} (h : X.intake = .running off part) :
    X.take size off d = feed size (d.length + 1) off part d X := by
  simp only [take, h, if_true]

/-- From a frame boundary an input is RUNNING there. -/
theorem take_running (X : SoundInput) (size off : Nat) (d : List Byte) :
    take { X with intake := .running off [] } size off d = feed size (d.length + 1) off [] d X :=
  (take_expected rfl).trans (feed_intake _ _ _ _ _ _ _)

theorem take_seeking_passed (h : X.intake = .seeking) (hb : ¬X.boundary size off = true) : X.take size off d = X := by
  simp only [take, h, if_neg hb]

theorem take_seeking_boundary (h : X.intake = .seeking) (hb : X.boundary size off = true) :
    X.take size off d = take { X with intake := .running off [] } size off d := by
  rw [take_running]
  simp only [take, h, if_pos hb]

variable {expected : Nat} {part : List Byte} (h : X.intake = .running expected part) (hne : off ≠ expected)
include h hne

theorem take_skew_seeking (hb : ¬X.boundary size off = true) :
    X.take size off d = { X with skews := X.skews + 1, intake := .seeking } := by
  simp only [take, h, if_neg hne, if_neg hb]

theorem take_skew_running (hb : X.boundary size off = true) :
    X.take size off d = take { X with skews := X.skews + 1, intake := .running off [] } size off d := by
  refine Eq.trans ?_ (take_running { X with skews := X.skews + 1 } size off d).symm
  simp only [take, h, if_neg hne, if_pos hb]

end

/-- A sample frame that fills up at the expected offset (R74, R76). -/
theorem take_full {X : SoundInput} {size off need : Nat} {d part : List Byte} (h : X.intake = .running off part)
    (hneed : need = X.frameLen - part.length) (hpos : 1 ≤ need) (hd : need ≤ d.length) {Y : SoundInput}
    (hY : Y = X.complete (part ++ d.take need)) : X.take size off d =
      if off + need = X.ringEnd size then { Y with intake := .running 0 [] }
      else if d.length = need then { Y with intake := .running (off + need) [] }
      else take { Y with intake := .running (off + need) [] } size (off + need) (d.drop need) := by
  subst hY
  have hframe : 1 ≤ X.frameLen := by omega
  rw [take_expected h, feed_full hneed hd, take_running]
  refine if_congr Iff.rfl rfl ?_
  split
  next hall =>
    have hnone : d.drop need = [] := List.drop_eq_nil_of_le hall.le
    obtain ⟨k, hk⟩ : ∃ k, d.length = k + 1 := ⟨d.length - 1, by omega⟩
    rw [hnone, hk]
    exact feed_short (X := X.complete _) (part := []) (d := []) hframe k
  next => exact feed_rounds hframe (by rw [List.length_drop]; omega) (Nat.lt_succ_self _)

end SoundInput

/-- Settles O19. -/
theorem soundWritesFillTheSlots : Obligations.SoundWritesFillTheSlots := by
  refine ⟨?_, fun X size off d => SoundInput.take_disabled, ?_, ?_, ?_, fun bs c => sampleWords_getD, anyInvalid_iff⟩
  · rintro s r i off d h u rfl
    exact exec_observed h
  · rintro X size off d h - C rfl
    refine ⟨fun hb => SoundInput.take_seeking_passed h ?_, fun h0 hlt => SoundInput.take_seeking_boundary h ?_⟩
    · rw [X.boundary_iff]
      omega
    · exact (X.boundary_iff _ _).2 ⟨h0, hlt⟩
  · rintro X size off d expected part h hne - C rfl
    refine ⟨fun hb => SoundInput.take_skew_seeking h hne ?_, fun h0 hlt => SoundInput.take_skew_running h hne ?_⟩
    · rw [X.boundary_iff]
      omega
    · exact (X.boundary_iff _ _).2 ⟨h0, hlt⟩
  · rintro X size off d part h need hneed
    refine ⟨fun hd => ?_, fun hpos hd Y hY => SoundInput.take_full h hneed hpos hd hY⟩
    rw [SoundInput.take_expected h, SoundInput.feed_short (hneed ▸ hd)]

end Sys2Proof.Machine
end

section
/-! The sums of the buses, their outputs, and the ramps of the taps (R82, R83, R85, R86). -/

namespace Sys2Proof.Table

variable {α : Type} {n : Nat}

/-- A sum over the entries of a table is the sum over its places. -/
theorem sum_items (t : Table α n) (f : α → Int) : (t.items.map f).sum = ∑ i, f (t.get i) := by
  have hitems : t.items = List.ofFn t.get := by
    refine List.ext_getElem (by rw [t.size_eq, List.length_ofFn]) fun k _ _ => ?_
    rw [List.getElem_ofFn]
    rfl
  rw [hitems, List.map_ofFn, List.sum_ofFn]
  rfl

end Sys2Proof.Table

namespace Sys2Proof.Machine

/-! ## Sums and outputs (R82, R83) -/

/-- Adding up the products that meet a condition is adding up all of them, the others as 0. -/
theorem foldl_add_ite {α : Type} (p : α → Prop) [DecidablePred p] (f : α → Int) (l : List α) (z : Int) :
    l.foldl (fun acc a => if p a then acc + f a else acc) z = z + (l.map fun a => if p a then f a else 0).sum := by
  induction l generalizing z with
  | nil => simp
  | cons a l ih =>
    rw [List.foldl_cons, ih, List.map_cons, List.sum_cons]
    split <;> omega

theorem busSum_eq_sum (b : Fin 8) (d : Sound) : busSum b d = ∑ k : Fin 128,
    if (d.taps.get k).enabled = true ∧ (d.taps.get k).bus = b then (d.taps.get k).product d.inputs else 0 := by
  rw [busSum, foldl_add_ite, Int.zero_add]
  exact d.taps.sum_items _

theorem busOutput_eq (b : Fin 8) (d : Sound) : busOutput b d = if (d.buses.get b).mute = true then 0
    else max (-8388608) (min ((busSum b d + 16384) / 32768) 8388607) :=
  rfl

theorem busOutput_bounds (b : Fin 8) (d : Sound) : -8388608 ≤ busOutput b d ∧ busOutput b d ≤ 8388607 := by
  rw [busOutput_eq]
  split <;> omega

/-! ## Ramps (R85, R86) -/

namespace Tap

/-- The gain of a ramp after `k` steps: as many steps nearer to the target, but not past it. -/
def gainAfter (T : Tap) (k : Nat) : Nat :=
  if T.gain ≤ T.target then min (T.gain + k * T.step) T.target else max (T.gain - k * T.step) T.target

theorem stepped_gain {T : Tap} (h : T.enabled = true) : T.stepped = { T with
    gain := if T.gain ≤ T.target then min (T.gain + T.step) T.target else max (T.gain - T.step) T.target } := by
  have hup : T.gain ≤ T.target →
      (if T.target - T.gain ≤ T.step then T.target else T.gain + T.step) = min (T.gain + T.step) T.target := by
    intro hle
    split <;> omega
  have hdown : ¬T.gain ≤ T.target →
      (if T.gain - T.target ≤ T.step then T.target else T.gain - T.step) = max (T.gain - T.step) T.target := by
    intro hlt
    split <;> omega
  rw [stepped, if_neg (by simp [h])]
  split
  next hle => rw [hup hle]
  next hlt => rw [hdown hlt]

/-- After `k` ramp steps a tap differs in its gain alone. -/
theorem stepped_iterate {T : Tap} (h : T.enabled = true) (k : Nat) :
    Tap.stepped^[k] T = { T with gain := T.gainAfter k } := by
  induction k with
  | zero =>
    have hstart : T.gainAfter 0 = T.gain := by
      unfold gainAfter
      split <;> omega
    rw [hstart]
    rfl
  | succ k ih =>
    have hnext : (if T.gainAfter k ≤ T.target then min (T.gainAfter k + T.step) T.target
        else max (T.gainAfter k - T.step) T.target) = T.gainAfter (k + 1) := by
      have hsteps : (k + 1) * T.step = k * T.step + T.step := Nat.succ_mul k T.step
      unfold gainAfter
      rw [hsteps]
      split <;> split <;> omega
    rw [Function.iterate_succ_apply', ih]
    exact (stepped_gain (T := { T with gain := T.gainAfter k }) h).trans (congrArg (fun g => { T with gain := g }) hnext)

theorem gainAfter_between (T : Tap) (k : Nat) :
    min T.gain T.target ≤ T.gainAfter k ∧ T.gainAfter k ≤ max T.gain T.target := by
  unfold gainAfter
  split <;> omega

/-- A ramp has landed when its steps make up the distance, the last one perhaps a short one. -/
theorem gainAfter_eq_target_iff {T : Tap} (hstep : 1 ≤ T.step) (k : Nat) : T.gainAfter k = T.target ↔
    ((max T.gain T.target - min T.gain T.target) + T.step - 1) / T.step ≤ k := by
  have hrounded : ((max T.gain T.target - min T.gain T.target) + T.step - 1) / T.step ≤ k
      ↔ max T.gain T.target - min T.gain T.target ≤ k * T.step := by
    rw [← Nat.lt_succ_iff, Nat.div_lt_iff_lt_mul hstep, Nat.succ_mul]
    omega
  rw [hrounded]
  unfold gainAfter
  split <;> omega

end Tap

/-- Settles O60. -/
theorem outputsSaturateAndRampsLand : Obligations.OutputsSaturateAndRampsLand := by
  refine ⟨fun b d => ?_, busOutput_eq, busOutput_bounds, fun T k h hstep => ?_⟩
  · rw [busSum_eq_sum]
    refine Finset.sum_congr rfl fun k _ => ?_
    simp only [Tap.product, SoundInput.contributes, Bool.and_eq_true, Bool.not_eq_true', decide_eq_true_eq, ← ite_and,
      and_assoc]
  · rw [Tap.stepped_iterate h]
    obtain ⟨hlow, hhigh⟩ := T.gainAfter_between k
    exact ⟨hlow, hhigh, Tap.gainAfter_eq_target_iff hstep k, rfl⟩

end Sys2Proof.Machine
end

section
/-! The commands of the sound block: SET_SOUND, SET_TAP and SET_BUS (R71, R72, R79, R81, R87, R91, R92). -/

namespace Sys2Proof.Machine

open Sys2Proof.Safety

/-! ## SET_SOUND (R71, R72) -/

theorem SoundInput.enabled_iff (X : SoundInput) : X.enabled = true ↔ X.intake ≠ .disabled := decide_eq_true_iff

theorem SoundInput.enabled_eq_false_iff (X : SoundInput) : X.enabled = false ↔ X.intake = .disabled := by
  rw [Bool.eq_false_iff, ne_eq, X.enabled_iff, not_not]

theorem setSound_badInput {c : Command} (h : 3 < c.word 0) (s : State) : setSound c s = (s, .refused .badField 1) := by
  rw [setSound, asFin_eq_none.2 h]
  rfl

/-- SET_SOUND for an input: the checks in order, and then the write. -/
theorem setSound_input {c : Command} {i : Fin 4} (h : c.word 0 = i.val) (s : State) : setSound c s =
    if c.word 1 = 0 ∨ 16 < c.word 1 then (s, .refused .badField 2)
    else if 1 < c.word 2 then (s, .refused .badField 3)
    else if (s.snd.inputs.get i).intake ≠ .disabled ∧ c.word 2 = 1 ∧ c.word 1 ≠ (s.snd.inputs.get i).channels then
      (s, .refused .active 0)
    else if (s.snd.inputs.get i).intake = .disabled ∧ c.word 2 = 1 ∧ ap (.sound i) s = none then (s, .refused .state 0)
    else ({ s with snd := { s.snd with inputs := (s.snd.inputs.set i
      ((s.snd.inputs.get i).write (c.word 1) (decide (c.word 2 = 1)))) } }, .done 0) := by
  by_cases h2 : 1 < c.word 2
  · simp only [setSound, h, asFin_val, asFin_eq_none.2 h2, if_pos h2]
    rfl
  · have hlt : c.word 2 < 2 := by omega
    have hone : (⟨c.word 2, hlt⟩ : Fin 2) = 1 ↔ c.word 2 = 1 := Fin.ext_iff
    simp only [setSound, h, asFin_val, asFin_lt hlt, hone, if_neg h2, SoundInput.enabled_iff,
      SoundInput.enabled_eq_false_iff, Option.isNone_iff_eq_none]
    rfl

/-- What an accepted SET_SOUND makes of its input (R72). -/
theorem SoundInput.write_eq (X : SoundInput) (channels enable : Nat) :
    X.write channels (decide (enable = 1)) =
      if X.intake = .disabled ∧ enable = 1 then
        { X.rechannel channels with intake := .seeking, silent := true, starve := 8, fresh := false }
      else if X.intake = .disabled then X.rechannel channels
      else if enable = 1 then X
      else { X.rechannel channels with intake := .disabled } := by
  have hmoves : { X with intake := .disabled }.rechannel channels = { X.rechannel channels with intake := .disabled } := by
    unfold SoundInput.rechannel
    split <;> rfl
  rw [← hmoves]
  by_cases hoff : X.intake = .disabled
  · have hoff' : X.enabled = false := X.enabled_eq_false_iff.2 hoff
    simp [SoundInput.write, hoff', hoff]
  · have hon : X.enabled = true := X.enabled_iff.2 hoff
    simp [SoundInput.write, hon, hoff]

/-- Settles O46. -/
theorem setSoundActsByState : Obligations.SetSoundActsByState := by
  refine fun s c hh hc => ⟨fun h => ?_, fun i hi X Y hX hY => ?_⟩
  · rw [exec_atHead (exec_setSound s) hh hc, setSound_badInput h]
  · obtain rfl : Y = X.rechannel (c.word 1) := hY
    subst hX
    rw [exec_atHead (exec_setSound s) hh hc, setSound_input hi, SoundInput.write_eq]
    simp only [answered_ite]

/-! ## SET_TAP (R79) -/

section
variable {c : Command} (s : State)

theorem setTap_badTap (h : 127 < c.word 0) : setTap c s = (s, .refused .badField 1) := by
  rw [setTap, asFin_eq_none.2 h]
  rfl

theorem setTap_badEnable (h0 : c.word 0 ≤ 127) (h : 1 < c.word 1) : setTap c s = (s, .refused .badField 2) := by
  rw [setTap, asFin_lt (Nat.lt_succ_of_le h0), asFin_eq_none.2 h]
  rfl

theorem setTap_badInput (h0 : c.word 0 ≤ 127) (h1 : c.word 1 ≤ 1) (h : 3 < c.word 2) :
    setTap c s = (s, .refused .badField 3) := by
  rw [setTap, asFin_lt (Nat.lt_succ_of_le h0), asFin_lt (Nat.lt_succ_of_le h1), asFin_eq_none.2 h]
  rfl

theorem setTap_badChannel (h0 : c.word 0 ≤ 127) (h1 : c.word 1 ≤ 1) (h2 : c.word 2 ≤ 3) (h : 15 < c.word 3) :
    setTap c s = (s, .refused .badField 4) := by
  rw [setTap, asFin_lt (Nat.lt_succ_of_le h0), asFin_lt (Nat.lt_succ_of_le h1), asFin_lt (Nat.lt_succ_of_le h2),
    asFin_eq_none.2 h]
  rfl

theorem setTap_badBus (h0 : c.word 0 ≤ 127) (h1 : c.word 1 ≤ 1) (h2 : c.word 2 ≤ 3) (h3 : c.word 3 ≤ 15)
    (h : 7 < c.word 4) : setTap c s = (s, .refused .badField 5) := by
  rw [setTap, asFin_lt (Nat.lt_succ_of_le h0), asFin_lt (Nat.lt_succ_of_le h1), asFin_lt (Nat.lt_succ_of_le h2),
    asFin_lt (Nat.lt_succ_of_le h3), asFin_eq_none.2 h]
  rfl

/-- SET_TAP with its fields in range replaces the tap. -/
theorem setTap_tap {t : Fin 128} {i : Fin 4} {ch : Fin 16} {b : Fin 8} (h0 : c.word 0 = t.val) (h1 : c.word 1 ≤ 1)
    (h2 : c.word 2 = i.val) (h3 : c.word 3 = ch.val) (h4 : c.word 4 = b.val) : setTap c s =
      ({ s with snd := { s.snd with taps := (s.snd.taps.set t
        ⟨decide (c.word 1 = 1), i, ch, b, c.low16 5, c.low16 6, max 1 (c.low16 7)⟩) } },
        if c.low16 7 = 0 then .doneClamped 0 else .done 0) := by
  have hone : (⟨c.word 1, Nat.lt_succ_of_le h1⟩ : Fin 2) = 1 ↔ c.word 1 = 1 := Fin.ext_iff
  have hstep : (if c.low16 7 = 0 then 1 else c.low16 7) = max 1 (c.low16 7) := by
    split <;> omega
  simp only [setTap, h0, h2, h3, h4, asFin_val, asFin_lt (n := 2) (Nat.lt_succ_of_le h1), hone, hstep]
  rfl

end

/-! ## The sent mask (R81) -/

/-- Bit `n` of a byte of flags is the flag there. -/
theorem flagByte_getLsbD {bits : List Bool} (h : bits.length ≤ 8) (n : Nat) :
    (flagByte bits).getLsbD n = bits.getD n false := by
  have hfold (l : List Bool) (n : Nat) :
      (l.foldr (fun (b : Bool) acc => b.toNat + 2 * acc) 0).testBit n = l.getD n false := by
    induction l generalizing n with
    | nil => simp
    | cons b l ih =>
      rw [List.foldr_cons, Nat.add_comm]
      cases n with
      | zero => cases b <;> simp [Nat.testBit_zero, Nat.add_mod]
      | succ n =>
        rw [Nat.testBit_succ, List.getD_cons_succ, ← ih]
        congr 1
        have hbit := b.toNat_le
        omega
  rw [flagByte, BitVec.getLsbD_ofNat, hfold]
  by_cases hn : n < 8
  · simp [hn]
  · rw [List.getD_eq_default _ _ (by omega)]
    simp

theorem sentMask_getLsbD (d : Sound) (b : Fin 8) : d.sentMask.getLsbD b.val = (d.buses.get b).sent := by
  rw [Sound.sentMask, flagByte_getLsbD (by simp [d.buses.size_eq]), List.getD_eq_getElem _ _ (by simp [d.buses.size_eq])]
  simp [Table.get]

/-- The sent mask is that of the sent flags. -/
theorem sentMask_eq_iff {d e : Sound} :
    d.sentMask = e.sentMask ↔ ∀ b, (d.buses.get b).sent = (e.buses.get b).sent := by
  constructor
  · intro h b
    rw [← sentMask_getLsbD, h, sentMask_getLsbD]
  · intro h
    refine BitVec.eq_of_getLsbD_eq fun i hi => ?_
    exact (sentMask_getLsbD d ⟨i, hi⟩).trans ((h _).trans (sentMask_getLsbD e ⟨i, hi⟩).symm)

/-! ## A unit that closes (R91, R92) -/

/-- The offers of a closed unit in their order: the store, and then the paths of the route set as it stands (log 32). -/
theorem closeUnit_eq {a : Accumulator} {restart : Bool} {s v w : State}
    (hv : v = { s with snd := { s.snd with acc := none, restart := restart } })
    (hw : w = if s.store.state = .off then v else offerStore none a.frame a.toUnit v) :
    closeUnit a restart s = (effectiveRoute w).foldl (fun y p => offerLive 4 a.toUnit p y) w := by
  have hoffered : w = if v.store.state ≠ .off then offerStore none a.frame a.toUnit v else v := by
    have hstore : v.store = s.store := by rw [hv]
    rw [hw, hstore, ite_not]
  rw [hoffered, hv]
  rfl

theorem closeUnit_snd (a : Accumulator) (restart : Bool) (s : State) :
    (closeUnit a restart s).snd = { s.snd with acc := none, restart := restart } := by
  simp [closeUnit]

/-- A unit that closes while the store is OFF leaves it. -/
theorem closeUnit_store_off {s : State} (h : s.store.state = .off) (a : Accumulator) (restart : Bool) :
    (closeUnit a restart s).store = s.store := by
  simp [closeUnit, offerSound, h]

/-! ## SET_BUS (R87) -/

section
variable {c : Command} (s : State)

theorem setBus_badBus (h : 7 < c.word 0) : setBus c s = (s, .refused .badField 1) := by
  rw [setBus, asFin_eq_none.2 h]
  rfl

theorem setBus_badMute (h0 : c.word 0 ≤ 7) (h : 1 < c.word 1) : setBus c s = (s, .refused .badField 2) := by
  rw [setBus, asFin_lt (Nat.lt_succ_of_le h0), asFin_eq_none.2 h]
  rfl

theorem setBus_badSent (h0 : c.word 0 ≤ 7) (h1 : c.word 1 ≤ 1) (h : 1 < c.word 2) :
    setBus c s = (s, .refused .badField 3) := by
  rw [setBus, asFin_lt (Nat.lt_succ_of_le h0), asFin_lt (Nat.lt_succ_of_le h1), asFin_eq_none.2 h]
  rfl

theorem setBus_badMonitor (h0 : c.word 0 ≤ 7) (h1 : c.word 1 ≤ 1) (h2 : c.word 2 ≤ 1) (h : 1 < c.word 3) :
    setBus c s = (s, .refused .badField 4) := by
  rw [setBus, asFin_lt (Nat.lt_succ_of_le h0), asFin_lt (Nat.lt_succ_of_le h1), asFin_lt (Nat.lt_succ_of_le h2),
    asFin_eq_none.2 h]
  rfl

theorem setBus_bus {b : Fin 8} (h0 : c.word 0 = b.val) (h1 : c.word 1 ≤ 1) (h2 : c.word 2 ≤ 1) (h3 : c.word 3 ≤ 1) :
    setBus c s = (writeBus b (decide (c.word 1 = 1)) (decide (c.word 2 = 1)) (decide (c.word 3 = 1)) s, .done 0) := by
  have hone {n : Nat} (h : n < 2) : (⟨n, h⟩ : Fin 2) = 1 ↔ n = 1 := Fin.ext_iff
  simp only [setBus, h0, asFin_val, asFin_lt (n := 2) (Nat.lt_succ_of_le h1), asFin_lt (n := 2) (Nat.lt_succ_of_le h2),
    asFin_lt (n := 2) (Nat.lt_succ_of_le h3), hone]

end

section
variable {s u : State} {b : Fin 8} {mute sent monitor : Bool}
  (hu : u = s.modBus b fun B => { B with mute := mute, sent := sent, monitor := monitor })
include hu

/-- The flags of one bus leave the sent mask as it was exactly when its sent flag is as it was (R81). -/
theorem sentMask_writeBus : u.snd.sentMask = s.snd.sentMask ↔ sent = (s.snd.buses.get b).sent := by
  have hget (k : Fin 8) : (u.snd.buses.get k).sent = if b = k then sent else (s.snd.buses.get k).sent := by
    rw [hu]
    show ((s.snd.buses.modify b _).get k).sent = _
    rw [Table.get_modify]
    split <;> rfl
  rw [sentMask_eq_iff]
  constructor
  · intro h
    rw [← h b, hget, if_pos rfl]
  · intro h k
    rw [hget]
    split
    next hk => rw [h, hk]
    next => rfl

theorem writeBus_unchanged (h : s.snd.acc = none ∨ sent = (s.snd.buses.get b).sent) :
    writeBus b mute sent monitor s = u := by
  have hacc : u.snd.acc = s.snd.acc := by
    rw [hu]
    rfl
  simp only [writeBus, ← hu]
  split
  next => rfl
  next ha =>
    refine if_pos ((sentMask_writeBus hu).2 (h.resolve_left ?_))
    rw [← hacc, ha]
    simp

theorem writeBus_closes {a : Accumulator} (ha : s.snd.acc = some a) (h : sent ≠ (s.snd.buses.get b).sent) :
    writeBus b mute sent monitor s = closeUnit a true u := by
  have hacc : u.snd.acc = some a := by
    rw [← ha, hu]
    rfl
  simp only [writeBus, ← hu, hacc]
  exact if_neg (mt (sentMask_writeBus hu).1 h)

end

/-- Settles O47. -/
theorem setTapAndSetBusReplaceTheirFields : Obligations.SetTapAndSetBusReplaceTheirFields := by
  refine ⟨fun s c hh hc => ?_, fun s c hh hc => ?_⟩
  · have hexec := exec_atHead (exec_setTap s) hh hc
    refine ⟨fun h => ?_, fun h0 h => ?_, fun h0 h1 h => ?_, fun h0 h1 h2 h => ?_, fun h0 h1 h2 h3 h => ?_,
      fun t i ch b h0 h1 h2 h3 h4 => ?_⟩
    · rw [hexec, setTap_badTap s h]
    · rw [hexec, setTap_badEnable s h0 h]
    · rw [hexec, setTap_badInput s h0 h1 h]
    · rw [hexec, setTap_badChannel s h0 h1 h2 h]
    · rw [hexec, setTap_badBus s h0 h1 h2 h3 h]
    · rw [hexec, setTap_tap s h0 h1 h2 h3 h4]
  · have hexec := exec_atHead (exec_setBus s) hh hc
    refine ⟨fun h => ?_, fun h0 h => ?_, fun h0 h1 h => ?_, fun h0 h1 h2 h => ?_, fun b u h0 h1 h2 h3 hu => ?_⟩
    · rw [hexec, setBus_badBus s h]
    · rw [hexec, setBus_badMute s h0 h]
    · rw [hexec, setBus_badSent s h0 h1 h]
    · rw [hexec, setBus_badMonitor s h0 h1 h2 h]
    · rw [setBus_bus s h0 h1 h2 h3] at hexec
      refine ⟨fun h => ?_, fun hopen hsent => ?_⟩
      · rw [hexec, writeBus_unchanged hu h]
      · obtain ⟨a, ha⟩ := Option.ne_none_iff_exists'.1 hopen
        rw [writeBus_closes hu ha hsent] at hexec
        have hstore : u.store = s.store := by rw [hu]
        refine ⟨_, hexec, closeUnit_snd a true u, by simp [hu], by simp [hu], by simp [hu], by simp [hu], by simp [hu],
          by simp [hu], by simp [hu], fun a' v w ha' hv hw => ?_⟩
        obtain rfl : a' = a := Option.some.inj (ha'.symm.trans ha)
        exact closeUnit_eq hv (by rw [hstore]; exact hw)

end Sys2Proof.Machine
end

section
/-! The mixer's share among the acts of any tick, and SOUND_SILENT (R16, R77, R178; logs 3, 4 and 44). -/

namespace Sys2Proof.Machine

open Sys2Proof.Safety

/-! ## What the other acts of a tick leave of the mixer (R80, R155) -/

/-- From `s` to `t` nothing of the mixer but its taps has changed. -/
def TapsAlone (s t : State) : Prop := t.snd = { s.snd with taps := t.snd.taps }

theorem TapsAlone.of_snd {s t : State} (h : t.snd = s.snd) : TapsAlone s t := by
  rw [TapsAlone, h]

theorem TapsAlone.trans {s t u : State} (h : TapsAlone s t) (h' : TapsAlone t u) : TapsAlone s u := by
  rw [TapsAlone] at h h' ⊢
  rw [h', h]

section
variable {s t : State} (h : TapsAlone s t)
include h

theorem TapsAlone.inputs : t.snd.inputs = s.snd.inputs := by rw [h]

theorem TapsAlone.acc : t.snd.acc = s.snd.acc := by rw [h]

theorem TapsAlone.restart : t.snd.restart = s.snd.restart := by rw [h]

theorem TapsAlone.sentMask : t.snd.sentMask = s.snd.sentMask := by
  rw [h]
  rfl

end

/-- A FADE sets a tap's target and step; no other action reaches the mixer (R80). -/
theorem applyAct_tapsAlone (n : Nat) (a : CueAct) (s : State) : TapsAlone s (applyAct n a s).1 := by
  cases a with
  | switch l =>
    simp only [applyAct]
    split <;> exact .of_snd rfl
  | fade t target step =>
    simp only [applyAct]
    split <;> rfl
  | _ => exact .of_snd (by simp [applyAct])

theorem applySlots_tapsAlone (e : Cue) (s : State) : TapsAlone s (applySlots e s).1 := by
  have hslot (i : Fin 4) (r : State × List Nat) : TapsAlone r.1 (applySlot e i r).1 := by
    refine (applyAct_tapsAlone e.id (e.acts.get i) r.1).trans (.of_snd ?_)
    simp only [applySlot]
    split <;> simp
  have hslots (l : List (Fin 4)) (r : State × List Nat) :
      TapsAlone r.1 (l.foldl (fun r i => applySlot e i r) r).1 := by
    induction l generalizing r with
    | nil => exact .of_snd rfl
    | cons i l ih => exact (hslot i r).trans (ih _)
  exact hslots _ (s, [])

theorem fireHead_tapsAlone (s : State) : TapsAlone s (fireHead s) := by
  unfold fireHead
  split
  next => exact .of_snd rfl
  next e _ _ => exact (applySlots_tapsAlone e s).trans (.of_snd (by simp))

theorem fireDue_tapsAlone (k : Nat) (s : State) : TapsAlone s (fireDue k s) := by
  induction k generalizing s with
  | zero => exact .of_snd rfl
  | succ k ih =>
    unfold fireDue
    split
    · exact (fireHead_tapsAlone s).trans (ih _)
    · exact .of_snd rfl

theorem runAct_tapsAlone (o : Opening) {a : TickAct} (ha : a ≠ .mixer) (s : State) : TapsAlone s (runAct o a s) := by
  cases a with
  | mixer => exact absurd rfl ha
  | midnight =>
    refine .of_snd ?_
    simp only [runAct]
    split <;> simp
  | cueNext =>
    simp only [runAct, fireNext]
    split
    · exact fireHead_tapsAlone s
    · exact .of_snd rfl
  | cues =>
    simp only [runAct]
    split
    · exact (fireDue_tapsAlone s.cues.length s).trans (.of_snd (by simp))
    · exact fireDue_tapsAlone _ s
  | _ => exact .of_snd (by simp [runAct])

theorem forEach_runAct_tapsAlone (o : Opening) {acts : List TickAct} (h : .mixer ∉ acts) (s : State) :
    TapsAlone s (forEach acts (runAct o) s) :=
  forEach_inv (Inv := TapsAlone s) (.of_snd rfl) fun _ ha _ ht =>
    ht.trans (runAct_tapsAlone o (fun hm => h (hm ▸ ha)) _)

/-! ## The mixer's place in a tick (R16; log 4) -/

theorem schedule_mixer (opening : Bool) (order : List TickAct) : ∃ before after,
    schedule opening order = before ++ .mixer :: after ∧ .mixer ∉ before ∧ .mixer ∉ after := by
  cases opening with
  | true => exact schedule_split (by decide) order
  | false =>
    obtain ⟨before, after, h⟩ := schedule_sample_split order
    exact ⟨_, _, h, by simp, by simp⟩

/-- In any order the mixer's share is taken once, and what stands around it leaves the mixer all but its taps. -/
theorem forEach_schedule_mixer (o : Opening) (opening : Bool) (order : List TickAct) (s : State) :
    ∃ u, Ticked s u ∧ TapsAlone s u ∧ TapsAlone (mixerTick u.clock.pos (decide (u.clock.pos = 0)) u)
      (forEach (schedule opening order) (runAct o) s) := by
  obtain ⟨before, after, hs, hb, ha⟩ := schedule_mixer opening order
  refine ⟨forEach before (runAct o) s, forEach_ticked o before s, forEach_runAct_tapsAlone o hb s, ?_⟩
  rw [hs, forEach_append, forEach_cons]
  exact forEach_runAct_tapsAlone o ha _

/-- Whatever order names the mixer first, or nothing, it comes first at a tick inside a frame. -/
theorem schedule_sample_mixer {order os : List TickAct} (h : order = [] ∨ order = .mixer :: os) :
    ∃ rest, schedule false order = .mixer :: rest := by
  rcases h with rfl | rfl
  · exact ⟨_, rfl⟩
  · obtain ⟨named, hn⟩ := namedActs_head false .mixer [] os
    have hfirst : namedActs false [] (.mixer :: os) = .mixer :: named := by
      rw [namedActs, if_pos (.inr ⟨List.mem_cons_self, List.not_mem_nil⟩)]
      exact hn
    exact ⟨_, by rw [schedule, hfirst]; rfl⟩

/-! ## What the mixer's share leaves of the mixer, at a frame tick too (R77, R84, R85, R88) -/

theorem inputsSettled_snd_eq (opening : Bool) (s : State) : (inputsSettled opening s).snd = { s.snd with
    inputs := s.snd.inputs.map SoundInput.settled
    buses := if opening = true then s.snd.buses.map Bus.openFrame else s.snd.buses } := by
  rw [inputsSettled_eq, forEach_settleInput_snd]
  cases opening <;> rfl

theorem mixedAt_snd_eq (pos : Nat) (opening : Bool) (s : State) : ∃ buses monPos,
    (mixedAt pos opening s).snd = { (inputsSettled opening s).snd with
      buses := buses, taps := s.snd.taps.map Tap.stepped, monPos := monPos }
    ∧ ∀ b, (buses.get b).sent = (s.snd.buses.get b).sent := by
  have hsettled (v : Int) (B : Bus) : (B.settled v).sent = B.sent := by
    unfold Bus.settled
    split <;> rfl
  refine ⟨Table.ofFn fun b => ((inputsSettled opening s).snd.buses.get b).settled
    (unityDiv (busSum b (inputsSettled opening s).snd)), nextMonPos (mixedBefore pos opening s), ?_, fun b => ?_⟩
  · have htaps : (inputsSettled opening s).snd.taps = s.snd.taps := by rw [inputsSettled_snd_eq]
    rw [mixedAt_eq, monitorWrite_snd, mixedBefore, State.modSnd_snd, forEach_settleBus_snd, ← htaps]
  · rw [Table.get_ofFn, hsettled, inputsSettled_snd_eq]
    cases opening with
    | true =>
      show ((s.snd.buses.map Bus.openFrame).get b).sent = _
      rw [Table.get_map]
      rfl
    | false => rfl

theorem mixerTick_inputs (pos : Nat) (opening : Bool) (s : State) :
    (mixerTick pos opening s).snd.inputs = s.snd.inputs.map SoundInput.settled := by
  obtain ⟨acc, restart, h⟩ := accumulate_snd pos (mixerOutputs opening s) (mixedAt pos opening s)
  obtain ⟨buses, monPos, hm, -⟩ := mixedAt_snd_eq pos opening s
  rw [mixerTick_eq, h, hm, inputsSettled_snd_eq]

/-- At every tick each input is settled once (R16, R77). -/
theorem tick_inputs (i : TickIn) (s : State) (n : Fin 4) :
    (tick i s).snd.inputs.get n = (s.snd.inputs.get n).settled := by
  obtain ⟨u, -, hu, ht⟩ := forEach_schedule_mixer (openingOf s) (decide (s.clock.pos = 0)) i.order
    (openFrame (s.setLevels i.levels))
  have hbefore : (openFrame (s.setLevels i.levels)).snd.inputs = s.snd.inputs := by simp
  have hafter := ht.inputs
  rw [mixerTick_inputs, hu.inputs, hbefore] at hafter
  rw [tick, State.modClock_snd, hafter, Table.get_map]

theorem tick_epIn (i : TickIn) (s : State) : (tick i s).epIn = i.levels := by
  simp [tick]

/-! ## The row SOUND_SILENT (R77; log 3) -/

theorem exec_soundSilent_due {s : State} {n : Fin 4} (he : (s.snd.inputs.get n).enabled = true)
    (hf : (s.snd.inputs.get n).fresh = false) (hs : (s.snd.inputs.get n).silent = false)
    (h7 : 7 ≤ (s.snd.inputs.get n).starve) (i : TickIn) : exec (.soundSilent n i) s = exec (.sampleTick i) s := by
  have hdue : silentDue n s = true := by simp [silentDue, he, hf, hs, h7]
  rw [exec_soundSilent, hdue, exec_sampleTick]
  rfl

theorem exec_soundSilent_other {s : State} {n : Fin 4} (h : (s.snd.inputs.get n).enabled = false
    ∨ (s.snd.inputs.get n).fresh = true ∨ (s.snd.inputs.get n).silent = true) (i : TickIn) :
    exec (.soundSilent n i) s = .next s := by
  have hdue : silentDue n s = false := by
    rcases h with h | h | h <;> simp [silentDue, h]
  rw [exec_soundSilent, hdue]
  rfl

/-! ## The first notice of a tick's settling (R77, R178; log 44) -/

/-- An input whose settling raises no notice (R77). -/
def SoundInput.Quiet (Y : SoundInput) : Prop :=
  Y.enabled = false ∨ (Y.fresh = true ∧ Y.silent = false) ∨ (Y.fresh = false ∧ (Y.silent = true ∨ Y.starve < 7))

theorem settleInput_quiet {s : State} {n : Fin 4} (h : (s.snd.inputs.get n).Quiet) :
    ∃ Y, settleInput n s = withInput n s Y := by
  have hidle : settleInput n s = s → settleInput n s = withInput n s (s.snd.inputs.get n) := by
    intro hid
    have hsame : s.snd.inputs.set n (s.snd.inputs.get n) = s.snd.inputs := Table.modify_id (f := id) _ _ rfl
    rw [hid, withInput, hsame]
  rcases (s.snd.inputs.get n).settling_cases with hi | ⟨he, hf⟩ | ⟨he, hf, hs⟩
  · exact ⟨_, hidle (settleInput_idle rfl hi)⟩
  · have hs : (s.snd.inputs.get n).silent = false := by simpa [SoundInput.Quiet, he, hf] using h
    exact ⟨_, (settleInput_fresh rfl he hf rfl).trans (if_neg (by simp [hs]))⟩
  · have h7 : (s.snd.inputs.get n).starve < 7 := by simpa [SoundInput.Quiet, he, hf, hs] using h
    exact ⟨_, settleInput_late rfl he hf hs h7⟩

/-- Quiet inputs are settled in the mixer alone, and the others wait their turn. -/
theorem forEach_settleInput_quiet {n : Fin 4} {l : List (Fin 4)} (hl : l.Nodup) (hn : n ∉ l) {s : State}
    (h : ∀ m ∈ l, (s.snd.inputs.get m).Quiet) :
    ∃ d, forEach l settleInput s = { s with snd := d } ∧ d.inputs.get n = s.snd.inputs.get n := by
  induction l generalizing s with
  | nil => exact ⟨s.snd, rfl, rfl⟩
  | cons m l ih =>
    obtain ⟨hml, hl⟩ := List.nodup_cons.1 hl
    obtain ⟨hnm, hnl⟩ := List.ne_and_not_mem_of_not_mem_cons hn
    obtain ⟨Y, hY⟩ := settleInput_quiet (h m List.mem_cons_self)
    have hget {k : Fin 4} (hk : m ≠ k) : (withInput m s Y).snd.inputs.get k = s.snd.inputs.get k :=
      Table.get_set_ne _ _ hk
    obtain ⟨d, hd, hdn⟩ := ih (s := withInput m s Y) hl hnl fun k hk => by
      rw [hget (fun he => hml (he ▸ hk))]
      exact h k (List.mem_cons_of_mem _ hk)
    exact ⟨d, by rw [forEach_cons, hY, hd]; rfl, hdn.trans (hget (Ne.symm hnm))⟩

/-- With only quiet inputs before it, the input that starves raises the first notice of the settling. -/
theorem inputsSettled_silences {s : State} {n : Fin 4} {X : SoundInput} (hX : X = s.snd.inputs.get n)
    (he : X.enabled = true) (hf : X.fresh = false) (hs : X.silent = false) (h7 : 7 ≤ X.starve)
    (hq : ∀ m, m < n → (s.snd.inputs.get m).Quiet) :
    ∃ d, Grown (raise .soundSilent n.val [b4 X.slips.toNat, b4 X.overruns.toNat] { s with snd := d })
      (inputsSettled false s) := by
  obtain ⟨l, r, hlr⟩ := List.append_of_mem (List.mem_finRange n)
  have hlt : (l ++ n :: r).Pairwise (· < ·) := hlr ▸ List.pairwise_lt_finRange 4
  obtain ⟨hl, -, hbefore⟩ := List.pairwise_append.1 hlt
  have hless (m : Fin 4) (hm : m ∈ l) : m < n := hbefore m hm n List.mem_cons_self
  obtain ⟨d, hd, hdn⟩ := forEach_settleInput_quiet (n := n) (hl.imp fun h => h.ne)
    (fun hm => lt_irrefl n (hless n hm)) fun m hm => hq m (hless m hm)
  have hXd : X = ({ s with snd := d } : State).snd.inputs.get n := hX.trans hdn.symm
  refine ⟨{ d with inputs := d.inputs.set n { X with starve := 8, silent := true } }, ?_⟩
  rw [inputsSettled_eq, hlr, forEach_append, forEach_cons]
  show Grown _ (forEach r settleInput (settleInput n (forEach l settleInput s)))
  rw [hd, settleInput_starved hXd he hf hs h7]
  exact forEach_grown (fun k t => settleInput_grown k (.refl t)) r (.refl _)

theorem mixerTick_grown_settled (pos : Nat) (opening : Bool) (s : State) :
    Grown (inputsSettled opening s) (mixerTick pos opening s) := by
  rw [mixerTick_eq, mixedAt_eq, mixedBefore]
  exact accumulate_grown _ _ (monitorWrite_grown _ ((modSnd_grown _).2
    (forEach_grown (fun b t => settleBus_grown pos b (.refl t)) _ (.refl _))))

/-- A notice raised with room in the ring stands next in the unreleased list and in the control block's hold, whatever
follows (R178). -/
theorem raise_room_grown {s t : State} {a : Aperture} (ha : ap .notices s = some a)
    (hroom : s.ctl.written - s.ctl.released < a.size / 32 - 2) {kind : NoticeKind} {subject : Nat} {items : List Item}
    (h : Grown (raise kind subject items s) t) :
    ∃ later more, t.ctl.unreleased = s.ctl.unreleased ++ kind :: later
      ∧ t.ins.holds.get 0 = s.ins.holds.get 0
        ++ noticeEntries a s.ctl.written s.ctl.lostBefore kind subject items s ++ more := by
  rw [raise_room ha hroom] at h
  obtain ⟨later, hlater⟩ := h.unreleased
  obtain ⟨more, hmore⟩ := h.hold
  refine ⟨later, more, ?_, ?_⟩
  · rw [hlater]
    simp [Control.noteWritten, Control.settleAttn]
  · rw [hmore]
    exact congrArg (· ++ more) ((pushAll_holds _ _ _ s).trans (if_pos rfl))

/-- Settles O36. -/
theorem starvedInputsFallSilent : Obligations.StarvedInputsFallSilent := by
  refine ⟨fun s n i he hf hs h7 => ?_, fun s n i he hf hs h7 => exec_soundSilent_due he hf hs h7 i, ?_,
    fun s n i h => exec_soundSilent_other h i⟩
  · refine ⟨tick i s, exec_soundSilent_due he hf hs h7.ge i, ?_, tick_epIn i s, by simp, by simp⟩
    rw [tick_inputs, SoundInput.settled_starved he hf hs h7.ge]
  · intro s n i a os X hp ho hX he hf hs h7 hquiet ha hroom
    obtain ⟨rest, hrest⟩ := schedule_sample_mixer ho
    obtain ⟨u, hu⟩ : ∃ u, u = ({ s with epIn := i.levels } : State) := ⟨_, rfl⟩
    obtain ⟨t, ht⟩ : ∃ t, t = forEach rest (runAct ⟨false, false⟩) (mixerTick s.clock.pos false u) := ⟨_, rfl⟩
    have hexec : exec (.soundSilent n i) s = .next { t with clock := clockAdvanced t.clock } := by
      subst hX
      rw [exec_soundSilent_due he hf hs h7]
      refine exec_sampleTick_inside hp i ?_
      rw [hrest, forEach_cons, runAct_mixer (s := { s with epIn := i.levels }) hp, ht, hu]
    obtain ⟨d, hd⟩ := inputsSettled_silences (s := u) (by rw [hX, hu]) he hf hs h7
      fun m hm => hquiet m _ hm (by rw [hu])
    have hgrown := hd.trans ((mixerTick_grown_settled s.clock.pos false u).trans
      (forEach_ticked ⟨false, false⟩ rest _).grown)
    rw [← ht] at hgrown
    subst hu
    obtain ⟨later, more, hlater, hmore⟩ :=
      raise_room_grown (s := { s with epIn := i.levels, snd := d }) ha hroom hgrown
    exact ⟨_, later, more, hexec, hlater, hmore⟩

end Sys2Proof.Machine
end

section
/-! Sound units: the accumulator opens, collects and closes (R81, R89, R90, R92; logs 3 and 32). -/

namespace Sys2Proof.Machine

open Sys2Proof.Safety

/-! ## The unit of a tick (R89) -/

/-- The unit of a tick depends on the accumulator, the restart mark, the sent mask and the clock alone. -/
theorem openUnit_congr {s t : State} (hclock : t.clock = s.clock) (hacc : t.snd.acc = s.snd.acc)
    (hrestart : t.snd.restart = s.snd.restart) (hmask : t.snd.sentMask = s.snd.sentMask) (a : Accumulator)
    (restart : Bool) : OpenUnit t a restart ↔ OpenUnit s a restart := by
  have htc : timecode t = timecode s := by rw [timecode, timecode, hclock]
  rw [OpenUnit, OpenUnit, hclock, hacc, hrestart, hmask, htc]

theorem opensAt_iff (d : Sound) (pos : Nat) :
    d.opensAt pos = true ↔ d.sentMask ≠ 0 ∧ (pos % 40 = 0 ∨ d.restart = true) := by
  simp [Sound.opensAt]

theorem current_of_openUnit {s : State} {a : Accumulator} {restart : Bool} (h : OpenUnit s a restart) :
    s.snd.current s.clock.pos s.clock.frame (timecode s) = some a
      ∧ restart = if s.snd.acc.isSome then s.snd.restart else false := by
  rcases h with ⟨hacc, hr⟩ | ⟨hacc, hmask, hat, ha, hr⟩
  · simp [Sound.current, hacc, hr]
  · have hopens := (opensAt_iff s.snd s.clock.pos).2 ⟨hmask, hat⟩
    simp [Sound.current, hacc, hopens, ha, hr]

theorem no_openUnit {s : State} (h : ∀ a restart, ¬OpenUnit s a restart) :
    s.snd.acc = none ∧ s.snd.opensAt s.clock.pos = false := by
  have hacc : s.snd.acc = none := Option.eq_none_iff_forall_ne_some.2 fun a ha => h a _ (.inl ⟨ha, rfl⟩)
  refine ⟨hacc, Bool.eq_false_iff.2 fun ho => ?_⟩
  obtain ⟨hmask, hat⟩ := (opensAt_iff _ _).1 ho
  exact h _ _ (.inr ⟨hacc, hmask, hat, rfl, rfl⟩)

/-! ## What a unit collects (R90) -/

theorem tapsName_iff (d : Sound) (m : BitVec 8) (p : SoundInput → Bool) : tapsName d m p = true ↔
    ∃ k, (d.taps.get k).enabled = true ∧ m.getLsbD (d.taps.get k).bus.val = true
      ∧ p (d.inputs.get (d.taps.get k).input) = true := by
  simp only [tapsName, Table.any_items, Bool.and_eq_true, and_assoc]

/-- A ramp step changes no name of a tap. -/
theorem tapsName_stepped {d e : Sound} (hinputs : d.inputs = e.inputs) (htaps : d.taps = e.taps.map Tap.stepped)
    (m : BitVec 8) (p : SoundInput → Bool) : tapsName d m p = tapsName e m p := by
  have hstep (T : Tap) : T.stepped.enabled = T.enabled ∧ T.stepped.bus = T.bus ∧ T.stepped.input = T.input := by
    unfold Tap.stepped
    (repeat' split) <;> exact ⟨rfl, rfl, rfl⟩
  rw [Bool.eq_iff_iff, tapsName_iff, tapsName_iff, hinputs, htaps]
  simp only [Table.get_map, hstep]

theorem collected_iff (d : Sound) (a a1 : Accumulator) :
    Collected d a a1 ↔ a1 = a.collect d ((List.finRange 8).map fun b => busOutput b d) := by
  have hsamples : (maskBuses a.mask).map (fun b => ((List.finRange 8).map fun b => busOutput b d).getD b.val 0)
      = ((List.finRange 8).filter fun b => a.mask.getLsbD b.val).map fun b => busOutput b d := by
    simp [maskBuses]
  have hinvalid : (a.invalid || tapsName d a.mask fun x => x.contributes && x.invalid) = true ↔
      a.invalid = true ∨ ∃ k X, (d.taps.get k).enabled = true ∧ a.mask.getLsbD (d.taps.get k).bus.val = true
        ∧ X = d.inputs.get (d.taps.get k).input ∧ X.enabled = true ∧ X.silent = false ∧ X.invalid = true := by
    simp [tapsName_iff, SoundInput.contributes, and_assoc]
  have hsilent : (a.silentSource || tapsName d a.mask fun x => x.enabled && x.silent) = true ↔
      a.silentSource = true ∨ ∃ k X, (d.taps.get k).enabled = true ∧ a.mask.getLsbD (d.taps.get k).bus.val = true
        ∧ X = d.inputs.get (d.taps.get k).input ∧ X.enabled = true ∧ X.silent = true := by
    simp [tapsName_iff]
  rw [Collected, ← hinvalid, ← hsilent, ← Bool.eq_iff_iff, ← Bool.eq_iff_iff, ← hsamples]
  constructor
  · rintro ⟨h, hi, hs⟩
    rw [hi, hs] at h
    exact h
  · rintro rfl
    exact ⟨rfl, rfl, rfl⟩

theorem collected_collect (d : Sound) (a : Accumulator) :
    Collected d a (a.collect d ((List.finRange 8).map fun b => busOutput b d)) :=
  (collected_iff _ _ _).2 rfl

/-! ## The accumulator at a tick (R89) -/

section
variable {s : State} {pos : Nat} (hpos : s.clock.pos = pos) (outs : List Int)
include hpos

theorem accumulate_unit {a : Accumulator} {restart : Bool} (h : OpenUnit s a restart) :
    accumulate pos outs s = if (pos + 1) % 40 = 0 then closeUnit (a.collect s.snd outs) restart s
      else { s with snd := { s.snd with acc := some (a.collect s.snd outs), restart := restart } } := by
  subst hpos
  obtain ⟨hc, hr⟩ := current_of_openUnit h
  rw [accumulate, hc, hr]
  rfl

theorem accumulate_empty (h : ∀ a restart, ¬OpenUnit s a restart) :
    accumulate pos outs s = { s with snd := { s.snd with acc := none, restart := false } } := by
  subst hpos
  obtain ⟨hacc, hopens⟩ := no_openUnit h
  have hrestart : (s.snd.restart && decide (s.snd.sentMask ≠ 0)) = false := by
    rw [Bool.eq_false_iff] at hopens ⊢
    intro hr
    obtain ⟨hr, hmask⟩ := (Bool.and_eq_true _ _).mp hr
    exact hopens ((opensAt_iff _ _).2 ⟨of_decide_eq_true hmask, .inr hr⟩)
  have hsame : ({ s.snd with acc := none, restart := false } : Sound)
      = { s.snd with restart := s.snd.restart && decide (s.snd.sentMask ≠ 0) } := by
    rw [hrestart, ← hacc]
  have hcurrent : s.snd.current s.clock.pos s.clock.frame (timecode s) = none := by
    simp [Sound.current, hacc, hopens]
  rw [accumulate, hcurrent, hsame]
  rfl

end

/-! ## The accumulator in the mixer's share (R89, R90, R92) -/

section
variable (s : State) (opening : Bool)

theorem mixedAt_clock_store (pos : Nat) :
    (mixedAt pos opening s).clock = s.clock ∧ (mixedAt pos opening s).store = s.store := by
  rw [mixedAt_eq, mixedBefore, inputsSettled_eq]
  cases opening <;> simp

theorem openUnit_mixedAt (pos : Nat) (a : Accumulator) (restart : Bool) :
    OpenUnit (mixedAt pos opening s) a restart ↔ OpenUnit s a restart := by
  obtain ⟨hclock, -⟩ := mixedAt_clock_store s opening pos
  obtain ⟨buses, monPos, hm, hsent⟩ := mixedAt_snd_eq pos opening s
  rw [inputsSettled_snd_eq] at hm
  refine openUnit_congr hclock (by rw [hm]) (by rw [hm]) (sentMask_eq_iff.2 fun b => ?_) a restart
  rw [hm]
  exact hsent b

variable {s opening}

/-- The unit collects the outputs of the settled inputs, and its taps' names are those before the ramps. -/
theorem collect_mixedAt {a a1 : Accumulator} (h : Collected (inputsSettled opening s).snd a a1) (pos : Nat) :
    a.collect (mixedAt pos opening s).snd (mixerOutputs opening s) = a1 := by
  obtain ⟨buses, monPos, hm, -⟩ := mixedAt_snd_eq pos opening s
  have hinputs : (mixedAt pos opening s).snd.inputs = (inputsSettled opening s).snd.inputs := by rw [hm]
  have htaps : (mixedAt pos opening s).snd.taps = (inputsSettled opening s).snd.taps.map Tap.stepped := by
    rw [hm, inputsSettled_snd_eq]
  rw [(collected_iff _ _ _).1 h]
  simp only [Accumulator.collect, tapsName_stepped hinputs htaps]
  rfl

variable {m : State} (hm : m = mixedAt s.clock.pos opening s)
include hm

/-- The unit of a tick in the mixer's share, which its accumulator ends (R89). -/
theorem mixerTick_unit {a a1 : Accumulator} {restart : Bool} (h : OpenUnit s a restart)
    (hc : Collected (inputsSettled opening s).snd a a1) : mixerTick s.clock.pos opening s =
      if (s.clock.pos + 1) % 40 = 0 then closeUnit a1 restart m
      else { m with snd := { m.snd with acc := some a1, restart := restart } } := by
  obtain ⟨hclock, -⟩ := mixedAt_clock_store s opening s.clock.pos
  rw [mixerTick_eq, accumulate_unit (congrArg Clock.pos hclock) _ ((openUnit_mixedAt s opening _ _ _).2 h),
    collect_mixedAt hc, hm]

theorem mixerTick_empty (h : ∀ a restart, ¬OpenUnit s a restart) :
    mixerTick s.clock.pos opening s = { m with snd := { m.snd with acc := none, restart := false } } := by
  obtain ⟨hclock, -⟩ := mixedAt_clock_store s opening s.clock.pos
  rw [mixerTick_eq, accumulate_empty (congrArg Clock.pos hclock) _ fun a r =>
    mt (openUnit_mixedAt s opening _ a r).1 (h a r), hm]

end

/-- The offers of the unit that closes in the mixer's share (R92; log 32). -/
theorem mixerTick_offers {s m v w : State} {opening : Bool} {a a1 : Accumulator} {restart : Bool}
    (h : OpenUnit s a restart) (hc : Collected (inputsSettled opening s).snd a a1)
    (hpos : (s.clock.pos + 1) % 40 = 0) (hm : m = mixedAt s.clock.pos opening s)
    (hv : v = { m with snd := { m.snd with acc := none, restart := restart } })
    (hw : w = if s.store.state = .off then v else offerStore none a.frame a1.toUnit v) :
    mixerTick s.clock.pos opening s = (effectiveRoute w).foldl (fun y p => offerLive 4 a1.toUnit p y) w := by
  have hframe : a1.frame = a.frame := by
    rw [(collected_iff _ _ _).1 hc]
    rfl
  have hstore : m.store = s.store := by
    rw [hm]
    exact (mixedAt_clock_store s opening _).2
  rw [mixerTick_unit hm h hc, if_pos hpos]
  exact closeUnit_eq hv (by rw [hstore, hframe]; exact hw)

/-! ## The ticks (R16, R89) -/

theorem exec_sampleTick_around {s : State} (hp : s.clock.pos ≠ 0) (i : TickIn) : ∃ before after,
    exec (.sampleTick i) s = .next { sampledAround before after { s with epIn := i.levels } with
      clock := clockAdvanced s.clock } := by
  obtain ⟨before, after, hs⟩ := schedule_sample_split i.order
  obtain ⟨hclock, -⟩ := sampledAround_frame before after { s with epIn := i.levels }
  have hexec := exec_sampleTick_inside hp i rfl
  rw [hs, sampledAround_eq (s := { s with epIn := i.levels }) hp, hclock] at hexec
  exact ⟨before, after, hexec⟩

theorem forEach_samplePin_other {s : State} (h : ∀ p, (s.pins.get p).fn ≠ .mark) (ps : List (Fin 12)) :
    forEach ps samplePin s = s :=
  forEach_inv (Inv := fun t => t = s) rfl fun p _ t ht => by
    rw [ht]
    exact if_pos (h p)

section
variable {s x : State} {before after : List (Fin 12)} {b : BitVec 12}
  (hx : x = sampledAround before after { s with epIn := b })
include hx

/-- The samples of the pins around the mixer's share leave the mixer and the store, and the unit of the tick. -/
theorem sampledAround_mixer : ∃ y, y.clock = s.clock ∧ y.snd = s.snd ∧ y.store = s.store
    ∧ (∀ a restart, OpenUnit y a restart ↔ OpenUnit s a restart)
    ∧ x.snd = (mixerTick y.clock.pos false y).snd ∧ x.store = (mixerTick y.clock.pos false y).store := by
  obtain ⟨y, hy⟩ : ∃ y, y = forEach before samplePin { s with epIn := b } := ⟨_, rfl⟩
  have hclock : y.clock = s.clock := by simp [hy]
  have hsnd : y.snd = s.snd := by simp [hy]
  refine ⟨y, hclock, hsnd, by simp [hy], openUnit_congr hclock (by rw [hsnd]) (by rw [hsnd]) (by rw [hsnd]), ?_, ?_⟩ <;>
    simp [hx, sampledAround, hclock, ← hy]

/-- A sample tick at a unit's last position closes it, and the store stands while it is OFF. -/
theorem sampledAround_closes {a : Accumulator} {restart : Bool} (h : OpenUnit s a restart)
    (hpos : (s.clock.pos + 1) % 40 = 0) :
    x.snd.acc = none ∧ x.snd.restart = restart ∧ (s.store.state = .off → x.store = s.store) := by
  obtain ⟨y, hclock, -, hystore, hopen, hsnd, hstore⟩ := sampledAround_mixer hx
  have hmixed := mixerTick_unit (s := y) (opening := false) rfl ((hopen a restart).2 h) (collected_collect _ a)
  have hboundary : (y.clock.pos + 1) % 40 = 0 := hclock ▸ hpos
  rw [hmixed, if_pos hboundary] at hsnd hstore
  rw [closeUnit_snd] at hsnd
  refine ⟨by rw [hsnd], by rw [hsnd], fun hoff => ?_⟩
  obtain ⟨-, hkept⟩ := mixedAt_clock_store y false y.clock.pos
  rw [hstore, closeUnit_store_off (by rw [hkept, hystore, hoff]), hkept, hystore]

/-- At any other position inside a frame the accumulator holds the unit. -/
theorem sampledAround_collects {a : Accumulator} {restart : Bool} (h : OpenUnit s a restart)
    (hpos : (s.clock.pos + 1) % 40 ≠ 0) :
    x.snd.restart = restart ∧ ∃ a1, x.snd.acc = some a1 ∧ Collected { s.snd with inputs := x.snd.inputs } a a1 := by
  obtain ⟨y, hclock, hysnd, -, hopen, hsnd, -⟩ := sampledAround_mixer hx
  have hinputs : { s.snd with inputs := x.snd.inputs } = (inputsSettled false y).snd := by
    rw [hsnd, mixerTick_inputs, inputsSettled_snd_eq, hysnd]
    rfl
  have ha1 := collected_collect (inputsSettled false y).snd a
  have hboundary : (y.clock.pos + 1) % 40 ≠ 0 := hclock ▸ hpos
  rw [mixerTick_unit (s := y) rfl ((hopen a restart).2 h) ha1, if_neg hboundary] at hsnd
  exact ⟨by rw [hsnd], _, by rw [hsnd], by rwa [hinputs]⟩

theorem sampledAround_empty (h : ∀ a restart, ¬OpenUnit s a restart) : x.snd.acc = none ∧ x.snd.restart = false := by
  obtain ⟨y, -, -, -, hopen, hsnd, -⟩ := sampledAround_mixer hx
  have hmixed := mixerTick_empty (s := y) (opening := false) rfl fun a r => mt (hopen a r).1 (h a r)
  rw [hmixed] at hsnd
  exact ⟨by rw [hsnd], by rw [hsnd]⟩

end

/-- A frame tick opens a unit at position 0, with the count and the timecode of the frame now opening (R89). -/
theorem acted_opens_unit {s : State} (hp : s.clock.pos = 0) (hacc : s.snd.acc = none) (hmask : s.snd.sentMask ≠ 0)
    (i : TickIn) : ∃ a, (acted i s).snd.acc = some a ∧ (acted i s).snd.restart = false ∧ a.mask = s.snd.sentMask
      ∧ a.start = 0 ∧ a.frame = s.clock.frame + 1 ∧ a.tc = timecode (acted i s) ∧ a.ticks = 1 := by
  obtain ⟨u, hticked, hu, ht⟩ := forEach_schedule_mixer ⟨s.clock.midnightDue, s.clock.pendingRate.isSome⟩ true i.order
    (opened i s)
  have hacted := acted_ticked i s
  have hpos : u.clock.pos = 0 := hticked.pos.trans ((openedClock_pos s.clock).trans hp)
  have hframe : u.clock.frame = s.clock.frame + 1 := hticked.frame.trans (openedClock_frame s.clock)
  have htc : timecode u = timecode (acted i s) :=
    timecode_of_clock (hticked.frame.trans hacted.frame.symm) (hticked.rate.trans hacted.rate.symm)
      (hticked.offset.trans hacted.offset.symm)
  have hmasku : u.snd.sentMask = s.snd.sentMask := hu.sentMask
  have hopen : OpenUnit u ⟨u.snd.sentMask, u.clock.pos, u.clock.frame, timecode u, 0, [], false, false⟩ false :=
    .inr ⟨hu.acc.trans hacc, by rwa [hmasku], .inl (by rw [hpos]), rfl, rfl⟩
  have hmixed := mixerTick_unit (s := u) (opening := decide (u.clock.pos = 0)) rfl hopen (collected_collect _ _)
  rw [hmixed, if_neg (by simp [hpos])] at ht
  exact ⟨_, ht.acc, ht.restart, hmasku, hpos, hframe, htc, rfl⟩

/-! ## The row SOUND_UNIT_CLOSE (log 3) -/

theorem exec_soundUnitClose_due {s : State} {a : Accumulator} {restart : Bool} (h : OpenUnit s a restart)
    (hpos : (s.clock.pos + 1) % 40 = 0) (i : TickIn) : exec (.soundUnitClose i) s = exec (.sampleTick i) s := by
  have hcurrent : (s.snd.current s.clock.pos 0 0).isSome = true := by
    rcases h with ⟨hacc, -⟩ | ⟨hacc, hmask, hat, -, -⟩
    · simp [Sound.current, hacc]
    · simp [Sound.current, hacc, (opensAt_iff _ _).2 ⟨hmask, hat⟩]
  have hdue : unitCloseDue s = true := by
    simp only [unitCloseDue, hpos, hcurrent]
    rfl
  rw [exec_soundUnitClose, hdue, exec_sampleTick]
  rfl

theorem exec_soundUnitClose_empty {s : State} (hacc : s.snd.acc = none) (hmask : s.snd.sentMask = 0) (i : TickIn) :
    exec (.soundUnitClose i) s = .next s := by
  have hdue : unitCloseDue s = false := by simp [unitCloseDue, Sound.current, Sound.opensAt, hacc, hmask]
  rw [exec_soundUnitClose, hdue]
  rfl

/-- Settles O37. -/
theorem soundUnitsCloseAtTheBoundary : Obligations.SoundUnitsCloseAtTheBoundary := by
  refine ⟨fun s i a rst h hpos => ?_, fun s opening a a1 rst m h hc hm => ?_, fun s opening m h hm => mixerTick_empty hm h,
    fun s i hp hpos => ?_, fun s i hp hacc hmask => ?_, sentMask_getLsbD,
    fun s i hacc hmask => exec_soundUnitClose_empty hacc hmask i⟩
  · have hp : s.clock.pos ≠ 0 := by omega
    obtain ⟨before, after, hexec⟩ := exec_sampleTick_around hp i
    obtain ⟨hacc, hrestart, hstore⟩ := sampledAround_closes (s := s) (before := before) (after := after)
      (b := i.levels) rfl h hpos
    have hrow := exec_soundUnitClose_due h hpos i
    refine ⟨⟨_, hrow.trans hexec, hacc, hrestart, hstore⟩, fun hpins => ?_, hrow⟩
    have hbefore := forEach_samplePin_other (s := { s with epIn := i.levels }) hpins before
    have hafter := forEach_samplePin_other (s := mixerTick s.clock.pos false { s with epIn := i.levels })
      (by simpa using hpins) after
    rw [hrow, hexec, sampledAround, hbefore, hafter]
  · exact ⟨fun hpos v w hv hw => mixerTick_offers h hc hpos hm hv hw,
      fun hpos => (mixerTick_unit hm h hc).trans (if_neg hpos)⟩
  · obtain ⟨before, after, hexec⟩ := exec_sampleTick_around hp i
    obtain ⟨x, hx⟩ : ∃ x, x = sampledAround before after { s with epIn := i.levels } := ⟨_, rfl⟩
    rw [← hx] at hexec
    have hcollects (a : Accumulator) (rst : Bool) (h : OpenUnit s a rst) := sampledAround_collects hx h hpos
    have hempty := sampledAround_empty hx
    exact ⟨_, hexec, hcollects, hempty⟩
  · obtain ⟨a, hacc', hrestart, hm, hstart, hframe, htc, hticks⟩ := acted_opens_unit hp hacc hmask i
    exact ⟨_, a, exec_frameTick_due hp i, hacc', hrestart, hm, hstart, hframe, htc, hticks⟩

end Sys2Proof.Machine
end

section
/-! Placements on the home paths: fit, pads, the writes of a unit, pressure, and the offers that lead to them (R101 to
R106, R109). -/

namespace Sys2Proof.Machine

open Sys2Proof.Safety

/-! ## Fit (R101) -/

section
variable {n c pad : Nat} {P : HomePath} {passed : Bool}

/-- The fit that R101's test answers, from the form of the fit. -/
theorem fitOf_of_fitsAt (h : FitsAt n P c pad passed) :
    (pad = 0 ∧ passed = false ∧ fitOf n P c = .plain)
      ∨ (0 < pad ∧ passed = false ∧ fitOf n P c = .padded pad)
      ∨ (0 < pad ∧ passed = true ∧ fitOf n P c = .passedOver pad) := by
  have hpos (hlt : n - P.placed % n < n) : 0 < n - P.placed % n :=
    Nat.sub_pos_of_lt (Nat.mod_lt _ (by omega))
  rcases h with ⟨rfl, rfl, h1, h2⟩ | ⟨rfl, rfl, h1, h2, h3⟩ | ⟨rfl, rfl, h1, h2, h3⟩
  · left
    simp [fitOf, HomePath.inUse, h1, h2, (by omega : c ≤ n)]
  · right; left
    have hn : ¬n < c := by omega
    have hused : 0 < P.placed - P.consumed := by omega
    simp [fitOf, HomePath.inUse, hn, hused, h3, Nat.not_le.2 h1, hpos (by omega)]
  · right; right
    have hn : ¬n < c := by omega
    have hused : ¬0 < P.placed - P.consumed := by omega
    simp [fitOf, HomePath.inUse, hn, hused, Nat.not_le.2 h1, hpos (by omega)]

theorem exists_fitsAt (h : fitOf n P c ≠ .no) : ∃ pad passed, FitsAt n P c pad passed := by
  unfold fitOf HomePath.inUse at h
  dsimp only at h
  split at h
  · simp at h
  · split at h
    · split at h
      · exact ⟨0, false, .inl ⟨rfl, rfl, by assumption, by assumption⟩⟩
      · simp at h
    · split at h
      · split at h
        · exact ⟨_, false, .inr (.inl ⟨rfl, rfl, by omega, by omega, by assumption⟩)⟩
        · simp at h
      · exact ⟨_, true, .inr (.inr ⟨rfl, rfl, by omega, by omega, by omega⟩)⟩

theorem fitOf_ne_no_iff : fitOf n P c ≠ .no ↔ ∃ pad passed, FitsAt n P c pad passed := by
  refine ⟨exists_fitsAt, fun ⟨pad, passed, h⟩ => ?_⟩
  rcases fitOf_of_fitsAt h with ⟨-, -, he⟩ | ⟨-, -, he⟩ | ⟨-, -, he⟩ <;> simp [he]

theorem fitsAt_cells_le (h : FitsAt n P c pad passed) : c ≤ n := by
  rcases h with ⟨-, -, h1, -⟩ | ⟨-, -, -, -, h3⟩ | ⟨-, -, -, -, h3⟩ <;> omega

end

theorem fits_iff (p : Fin 2) (u : MUnit) (s : State) : fits p u s = true ↔
    ∃ pad passed, FitsAt (pathCells p s) (s.home.paths.get p) u.cells pad passed :=
  decide_eq_true_iff.trans fitOf_ne_no_iff

theorem fits_eq_false_iff (p : Fin 2) (u : MUnit) (s : State) : fits p u s = false ↔
    ∀ pad passed, ¬FitsAt (pathCells p s) (s.home.paths.get p) u.cells pad passed := by
  simpa using not_congr (fits_iff p u s)

/-! ## The writes of a unit's cells (R101) -/

theorem cellWrites_nothing (a : Nat) (cs : List (List Byte)) : cellWrites a cs .nothing
    = cs.mapIdx fun i c => ⟨.write (a + 64 * i) c, .nothing⟩ := by
  induction cs generalizing a with
  | nil => rfl
  | cons c cs ih =>
    cases cs with
    | nil => rfl
    | cons d ds =>
      rw [cellWrites, ih (a + 64), List.mapIdx_cons (l := d :: ds)]
      simp only [writeEntry, Nat.mul_zero, Nat.add_zero, List.cons.injEq, true_and]
      congr 1
      funext i c
      rw [Nat.mul_add, Nat.mul_one, Nat.add_assoc, Nat.add_comm 64]

theorem cellWrites_cellsOf (a n : Nat) (bs : List Byte) : cellWrites a (cellsOf n bs) .nothing
    = (List.range n).map fun i => ⟨.write (a + 64 * i) (padTo 64 (slice (64 * i) 64 bs)), .nothing⟩ := by
  rw [cellWrites_nothing, cellsOf]
  apply List.ext_getElem <;> simp

/-! ## The placement (R101, R102, R106) -/

/-- The path after the pad of a placement (R101). -/
def HomePath.afterPad (pad : Nat) (passed : Bool) (P : HomePath) : HomePath :=
  { P with
    units := P.units ++ (if pad = 0 ∨ passed = true then [] else [⟨P.placed, pad, none⟩])
    placed := P.placed + pad
    published := if passed then P.published + pad else P.published
    consumed := if passed then P.consumed + pad else P.consumed }

/-- The path after a unit of `c` cells has been placed behind a pad (R101, R102), before the pressure test. -/
def HomePath.afterUnit (c pad : Nat) (passed : Bool) (P : HomePath) : HomePath :=
  let Q := P.afterPad pad passed
  { Q with units := Q.units ++ [⟨Q.placed, c, some P.nextSeq⟩], placed := Q.placed + c, nextSeq := P.nextSeq + 1 }

/-- The state after the pad's share of a placement (R101). -/
def padPlaced (p : Fin 2) (pad : Nat) (passed : Bool) (s : State) : State :=
  (pushAll (byPath p) (if pad = 0 then [] else
    [writeEntry (apBase (.path p) s + 64 * ((s.home.paths.get p).placed % pathCells p s + 1))
      (padCell pad s.clock.frame (timecode s))]) s).modPath p (HomePath.afterPad pad passed)

theorem afterPad_padded {pad : Nat} (h : pad ≠ 0) : HomePath.afterPad pad false = fun P =>
    { P with units := P.units ++ [⟨P.placed, pad, none⟩], placed := P.placed + pad } := by
  funext P
  simp [HomePath.afterPad, h]

theorem afterPad_passedOver (pad : Nat) : HomePath.afterPad pad true = fun P =>
    { P with placed := P.placed + pad, published := P.published + pad, consumed := P.consumed + pad } := by
  funext P
  simp [HomePath.afterPad]

theorem padStep_eq {p : Fin 2} {c pad : Nat} {passed : Bool} {s : State}
    (h : FitsAt (pathCells p s) (s.home.paths.get p) c pad passed) :
    padStep p (fitOf (pathCells p s) (s.home.paths.get p) c) s = padPlaced p pad passed s := by
  rcases fitOf_of_fitsAt h with ⟨rfl, rfl, he⟩ | ⟨hpad, rfl, he⟩ | ⟨hpad, rfl, he⟩
  · have hid (t : State) : pushAll (byPath p) [] t = t := by
      simp [pushAll, State.modIns, Table.modify_id]
    have hmod (t : State) : t.modPath p (HomePath.afterPad 0 false) = t := by
      rw [State.modPath, Table.modify_id _ _ (by simp [HomePath.afterPad])]
    simp [he, padStep, padPlaced, hid, hmod]
  · have h0 : pad ≠ 0 := by omega
    simp only [he, padStep, padPlaced, padWrite, afterPad_padded h0, if_neg h0]
    rfl
  · have h0 : pad ≠ 0 := by omega
    simp only [he, padStep, padPlaced, padWrite, afterPad_passedOver, if_neg h0]
    rfl

/-- The entries that a placement makes, in order: the pad's, the unit's cells, the header write (R101). -/
def placedEntries (p : Fin 2) (u : MUnit) (shed pad : Nat) (s : State) : List InsEntry :=
  let P := s.home.paths.get p
  let n := pathCells p s
  let base := apBase (.path p) s
  (if pad = 0 then []
    else [⟨.write (base + 64 * (P.placed % n + 1)) (padCell pad s.clock.frame (timecode s)), .nothing⟩])
    ++ (List.range u.cells).map (fun i =>
      ⟨.write (base + 64 * ((P.placed + pad) % n + 1 + i))
        (padTo 64 (slice (64 * i) 64 (u.bytes P.nextSeq shed))), .nothing⟩)
    ++ [⟨.write base (ringHeader (P.placed + pad + u.cells) n P.epoch), .publish p (P.placed + pad + u.cells)⟩]

/-- The state after a placement, before the pressure test. -/
def unitPlaced (p : Fin 2) (u : MUnit) (shed pad : Nat) (passed : Bool) (s : State) : State :=
  (pushAll (byPath p) (placedEntries p u shed pad s) s).modPath p (HomePath.afterUnit u.cells pad passed)

theorem publishStep_padPlaced (p : Fin 2) (u : MUnit) (shed pad : Nat) (passed : Bool) (s : State) :
    publishStep p (dataStep p u shed (padPlaced p pad passed s)) = unitPlaced p u shed pad passed s := by
  have hcells (k : Nat) : cellWrites (apBase (.path p) s + 64 * (k + 1)) (cellsOf u.cells
        (u.bytes (s.home.paths.get p).nextSeq shed)) .nothing
      = (List.range u.cells).map fun i => ⟨.write (apBase (.path p) s + 64 * (k + 1 + i)) (padTo 64
          (slice (64 * i) 64 (u.bytes (s.home.paths.get p).nextSeq shed))), .nothing⟩ := by
    rw [cellWrites_cellsOf]
    simp only [Nat.mul_add, Nat.add_assoc]
  have hdata : dataStep p u shed (padPlaced p pad passed s) = (pushAll (byPath p) ((List.range u.cells).map fun i =>
      ⟨.write (apBase (.path p) s + 64 * (((s.home.paths.get p).placed + pad) % pathCells p s + 1 + i))
        (padTo 64 (slice (64 * i) 64 (u.bytes (s.home.paths.get p).nextSeq shed))), .nothing⟩)
      (padPlaced p pad passed s)).modPath p fun P =>
        { P with units := P.units ++ [⟨P.placed, u.cells, some P.nextSeq⟩], placed := P.placed + u.cells
                 nextSeq := P.nextSeq + 1 } := by
    rw [← hcells]
    have hpath : (padPlaced p pad passed s).home.paths.get p = (s.home.paths.get p).afterPad pad passed := by
      simp [padPlaced]
    unfold dataStep
    rw [hpath]
    rfl
  rw [hdata]
  unfold publishStep ringHeaderWrite unitPlaced padPlaced placedEntries push pushAll State.modIns State.modPath
  simp only [Table.modify_modify, Table.get_modify_self, Function.comp_def, List.append_assoc]
  rfl

theorem placedAs_eq (p : Fin 2) (u : MUnit) (shed pad : Nat) (passed : Bool) (s : State) :
    placedAs p u shed pad passed s = pressureTest p u.kind (unitPlaced p u shed pad passed s) := by
  have hpath : (unitPlaced p u shed pad passed s).home.paths.get p
      = (s.home.paths.get p).afterUnit u.cells pad passed := by simp [unitPlaced]
  have hpads : unitPlaced p u shed pad passed s = { s with
      home := { s.home with paths := s.home.paths.set p ((s.home.paths.get p).afterUnit u.cells pad passed) }
      ins := { s.ins with holds := s.ins.holds.modify (byPath p) (· ++ placedEntries p u shed pad s) } } := rfl
  have hset (P Q : HomePath) : (s.home.paths.set p P).set p Q = s.home.paths.set p Q :=
    Table.ext_items (List.set_set ..)
  unfold pressureTest placedAs
  rw [hpath]
  cases passed
    <;> simp only [HomePath.afterUnit, HomePath.afterPad, HomePath.inUse, Bool.false_eq_true, if_true, if_false]
    <;> split
  all_goals
    next h =>
      simp only [h, hpads, placedEntries, State.modPath, Table.modify, Table.get_set_self, hset, List.append_assoc,
        if_true, if_false, Bool.false_eq_true, HomePath.afterUnit, HomePath.afterPad]

/-- A unit that fits is placed as R101, R102 and R106 write it out. -/
theorem place_eq {p : Fin 2} {u : MUnit} {pad : Nat} {passed : Bool} {s : State}
    (h : FitsAt (pathCells p s) (s.home.paths.get p) u.cells pad passed) (shed : Nat) :
    place p u shed s = placedAs p u shed pad passed s := by
  rw [placedAs_eq, ← publishStep_padPlaced, ← padStep_eq h]
  rfl

/-! ## Offers (R103 to R105) -/

section
variable {p : Fin 2} {u : MUnit} {pad : Nat} {passed : Bool} {s : State}

theorem offerLive_fits (h : FitsAt (pathCells p s) (s.home.paths.get p) u.cells pad passed) (src : Fin 5) :
    offerLive src u p s = (placedAs p u ((s.home.paths.get p).shedRuns.get src) pad passed s).modPath p fun P =>
      { P with shedRuns := P.shedRuns.set src 0 } := by
  rw [offerLive, if_pos ((fits_iff p u s).2 ⟨pad, passed, h⟩), place_eq h]

theorem offerLive_shed (h : fits p u s = false) (src : Fin 5) : offerLive src u p s = s.modPath p fun P =>
    { P with sheds := P.sheds.modify src (· + 1), shedRuns := P.shedRuns.modify src (holdInc Config.hold16) } := by
  rw [offerLive, if_neg (by simp [h])]

theorem offerTag_fits (ht : (s.home.paths.get p).tags = [])
    (h : FitsAt (pathCells p s) (s.home.paths.get p) u.cells pad passed) :
    offerTag u p s = placedAs p u 0 pad passed s := by
  rw [offerTag, if_pos ⟨ht, (fits_iff p u s).2 ⟨pad, passed, h⟩⟩, place_eq h]

theorem offerTag_waits (h : (s.home.paths.get p).tags ≠ [] ∨ fits p u s = false) : offerTag u p s =
    if (s.home.paths.get p).tags.length < 4 then s.modPath p fun P => { P with tags := P.tags ++ [u] }
    else raise .tagDropped p.val u.tagItems s := by
  have hno : ¬((s.home.paths.get p).tags = [] ∧ fits p u s = true) := by
    rintro ⟨ht, hf⟩
    simp [ht, hf] at h
  rw [offerTag, if_neg hno]
  rfl

theorem replayAnswer_oversize (h : pathCells p s < u.cells) : replayAnswer p u s = .oversize := if_pos h

theorem replayAnswer_placed (hr : (s.home.paths.get p).state = .running)
    (hy : (s.home.paths.get p).inUse ≤ (s.home.paths.get p).ceiling)
    (h : FitsAt (pathCells p s) (s.home.paths.get p) u.cells pad passed) : replayAnswer p u s = .placed := by
  have hn := fitsAt_cells_le h
  rw [replayAnswer, if_neg (by omega), if_pos ⟨hr, hy, (fits_iff p u s).2 ⟨pad, passed, h⟩⟩]

/-- A replay unit that R105's table does not place waits, or is too large for the ring. -/
theorem replayAnswer_other (h : (s.home.paths.get p).state ≠ .running
      ∨ (s.home.paths.get p).ceiling < (s.home.paths.get p).inUse ∨ fits p u s = false) :
    replayAnswer p u s = if pathCells p s < u.cells then .oversize else .wait := by
  have hno : ¬((s.home.paths.get p).state = .running ∧ (s.home.paths.get p).inUse ≤ (s.home.paths.get p).ceiling
      ∧ fits p u s = true) := by
    rintro ⟨hr, hy, hf⟩
    rcases h with h | h | h
    · exact h hr
    · omega
    · simp [hf] at h
  rw [replayAnswer, if_neg hno]

/-! ## Offers tried again (R106, R109) -/

theorem tryTags_fits (us : List MUnit) (h : FitsAt (pathCells p s) (s.home.paths.get p) u.cells pad passed) :
    tryTags p (u :: us) s = tryTags p us (placedAs p u 0 pad passed (s.modPath p fun P => { P with tags := us })) := by
  rw [tryTags, if_pos ((fits_iff p u s).2 ⟨pad, passed, h⟩), place_eq]
  rw [State.modPath_home, Table.get_modify_self]
  exact h

theorem tryTags_stuck (us : List MUnit) (h : fits p u s = false) : tryTags p (u :: us) s = s := by
  rw [tryTags, if_neg (by simp [h])]

theorem reexamine_none (h : (s.home.paths.get p).heldOffer = none) : reexamine p s = s := by
  simp only [reexamine, h]

theorem reexamine_placed (hu : (s.home.paths.get p).heldOffer = some u) (hr : (s.home.paths.get p).state = .running)
    (hy : (s.home.paths.get p).inUse ≤ (s.home.paths.get p).ceiling)
    (h : FitsAt (pathCells p s) (s.home.paths.get p) u.cells pad passed) : reexamine p s
      = toldPlaced (placedAs p u 0 pad passed (s.modPath p fun P => { P with heldOffer := none })) := by
  simp only [reexamine, hu, replayAnswer_placed hr hy h]
  rw [place_eq]
  rw [State.modPath_home, Table.get_modify_self]
  exact h

theorem reexamine_waits (hu : (s.home.paths.get p).heldOffer = some u) (h : (s.home.paths.get p).state ≠ .running
      ∨ (s.home.paths.get p).ceiling < (s.home.paths.get p).inUse ∨ fits p u s = false) : reexamine p s = s := by
  simp only [reexamine, hu, replayAnswer_other h]
  split
  next hw => split at hw <;> simp at hw
  all_goals rfl

end

/-! ## The fields that a placement fills (R102, R105) -/

theorem patch_getElem? {off : Nat} {new bs : List Byte} (h : off + new.length ≤ bs.length) (i : Nat) :
    (patch off new bs)[i]? = if i < off then bs[i]? else if i < off + new.length then new[i - off]? else bs[i]? := by
  have hoff : (bs.take off).length = off := by simp; omega
  rw [patch, List.append_assoc, List.getElem?_append, hoff]
  split
  · rw [List.getElem?_take_of_lt (by assumption)]
  · rw [List.getElem?_append]
    split
    · rw [if_pos (by omega)]
    · rw [if_neg (by omega), List.getElem?_drop]
      congr 1
      omega

theorem length_patch {off : Nat} {new bs : List Byte} (h : off + new.length ≤ bs.length) :
    (patch off new bs).length = bs.length := by
  simp only [patch, List.length_append, List.length_take, List.length_drop]
  omega

theorem slice_getElem? (off len : Nat) (bs : List Byte) (i : Nat) :
    (slice off len bs)[i]? = if i < len then bs[off + i]? else none := by
  rw [slice, List.getElem?_take, List.getElem?_drop]

theorem slice_patch_same {off len : Nat} {new bs : List Byte} (h : off + new.length ≤ bs.length)
    (hl : len = new.length) :
    slice off len (patch off new bs) = new := by
  apply List.ext_getElem?
  intro i
  rw [slice_getElem?, patch_getElem? h]
  split
  · rw [if_neg (by omega), if_pos (by omega), Nat.add_sub_cancel_left]
  · rw [List.getElem?_eq_none (by omega)]

theorem slice_patch_apart {off len k : Nat} {new bs : List Byte} (h : off + new.length ≤ bs.length)
    (ha : k + len ≤ off ∨ off + new.length ≤ k) : slice k len (patch off new bs) = slice k len bs := by
  apply List.ext_getElem?
  intro i
  rw [slice_getElem?, slice_getElem?, patch_getElem? h]
  split
  · split
    · rfl
    · rw [if_neg (by omega)]
  · rfl

theorem length_le (w v : Nat) : (le w v).length = w := by
  induction w generalizing v with
  | zero => rfl
  | succ w ih => rw [le, List.length_cons, ih]

/-- A replay unit's bytes before its shed-before field is cleared: the sequence and the REPLAY flag (R102, R105). -/
def replayMarked (seq : W32) (raw : List Byte) : List Byte :=
  patch 11 [raw.getD 11 0 ||| 1] (patch 12 (le 4 seq.toNat) raw)

section
variable {raw : List Byte} (hraw : 28 ≤ raw.length) (seq : W32)
include hraw

theorem length_replayMarked : (replayMarked seq raw).length = raw.length := by
  have h12 : (patch 12 (le 4 seq.toNat) raw).length = raw.length := length_patch (by rw [length_le]; omega)
  rw [replayMarked, length_patch, h12]
  rw [h12, List.length_singleton]
  omega

theorem slice_replayMarked : slice 12 4 (replayMarked seq raw) = le 4 seq.toNat := by
  have h12 : (patch 12 (le 4 seq.toNat) raw).length = raw.length := length_patch (by rw [length_le]; omega)
  rw [replayMarked, slice_patch_apart (by rw [h12, List.length_singleton]; omega) (.inr (by simp)),
    slice_patch_same (by rw [length_le]; omega) (length_le ..).symm]

theorem getD_replayMarked : (replayMarked seq raw).getD 11 0 = (raw.getD 11 0 ||| 1) := by
  have h12 : (patch 12 (le 4 seq.toNat) raw).length = raw.length := length_patch (by rw [length_le]; omega)
  rw [List.getD_eq_getElem?_getD, replayMarked, patch_getElem? (by rw [h12, List.length_singleton]; omega)]
  simp

/-- What a placement makes of a replay unit's bytes. -/
theorem replay_bytes (k : UnitKind) (shed : Nat) {b : List Byte} (hb : b = (MUnit.replay k raw).bytes seq shed) :
    b.length = raw.length ∧ slice 12 4 b = le 4 seq.toNat ∧ b.getD 11 0 = (raw.getD 11 0 ||| 1)
      ∧ (k = .pictureRow → slice 24 2 b = [0, 0]) ∧ (k = .sound → slice 22 2 b = [0, 0]) := by
  have hlen := length_replayMarked hraw seq
  have hcleared {o : Nat} (ho : 16 ≤ o) (ho' : o ≤ 24) : (patch o (le 2 0) (replayMarked seq raw)).length = raw.length
      ∧ slice 12 4 (patch o (le 2 0) (replayMarked seq raw)) = le 4 seq.toNat
      ∧ (patch o (le 2 0) (replayMarked seq raw)).getD 11 0 = (raw.getD 11 0 ||| 1)
      ∧ slice o 2 (patch o (le 2 0) (replayMarked seq raw)) = [0, 0] := by
    have hroom : o + (le 2 0).length ≤ (replayMarked seq raw).length := by rw [hlen, length_le]; omega
    refine ⟨(length_patch hroom).trans hlen, ?_, ?_, slice_patch_same hroom (length_le ..).symm⟩
    · rw [slice_patch_apart hroom (.inl (by omega)), slice_replayMarked hraw]
    · rw [List.getD_eq_getElem?_getD, patch_getElem? hroom, if_pos (by omega), ← List.getD_eq_getElem?_getD,
        getD_replayMarked hraw]
  subst hb
  cases k with
  | pictureRow =>
    obtain ⟨h1, h2, h3, h4⟩ := hcleared (o := 24) (by omega) (by omega)
    exact ⟨h1, h2, h3, fun _ => h4, nofun⟩
  | sound =>
    obtain ⟨h1, h2, h3, h4⟩ := hcleared (o := 22) (by omega) (by omega)
    exact ⟨h1, h2, h3, nofun, fun _ => h4⟩
  | tag | pad => exact ⟨hlen, slice_replayMarked hraw seq, getD_replayMarked hraw seq, nofun, nofun⟩

end

/-- Settles O24. -/
theorem unitsArePlacedShedOrHeld : Obligations.UnitsArePlacedShedOrHeld := by
  refine ⟨?_, fun _ _ => rfl, ?_, ?_, ?_, ?_, fun raw seq shed k b h hb => replay_bytes h seq k shed hb⟩
  · rintro s p u P n rfl rfl
    have hshed := fits_eq_false_iff p u s
    refine ⟨fun src => ⟨?_, fun h => offerLive_shed (hshed.2 h) src⟩, fun pad passed ht h => offerTag_fits ht h, ?_, ?_,
      ?_, ?_⟩
    · rintro pad passed h t rfl
      exact offerLive_fits h src
    · intro h
      have hw := offerTag_waits (h.imp_right hshed.2)
      refine ⟨fun hl => hw.trans (if_pos hl), ?_⟩
      rintro hl source frame tc clip event body rfl
      exact hw.trans (if_neg (by omega))
    · intro h
      have ho := replayAnswer_oversize h
      exact ⟨ho, by rw [offerReplay, ho]⟩
    · intro pad passed hr hy h
      have hp := replayAnswer_placed hr hy h
      exact ⟨hp, by rw [offerReplay, hp, place_eq h]⟩
    · intro hn h
      have hw := (replayAnswer_other (h.imp_right (.imp_right hshed.2))).trans (if_neg (by omega))
      exact ⟨hw, by rw [offerReplay, hw]; rfl⟩
  · rintro s p u us P n rfl rfl
    exact ⟨fun pad passed h => tryTags_fits us h, fun h => tryTags_stuck us ((fits_eq_false_iff p u s).2 h)⟩
  · rintro s p P n rfl rfl
    exact ⟨reexamine_none, fun u hu => ⟨fun pad passed hr hy h => reexamine_placed hu hr hy h,
      fun h => reexamine_waits hu (h.imp_right (.imp_right (fits_eq_false_iff p u s).2))⟩⟩
  · rintro lane frame tc j q k bits payload seq shed b rfl
    simp [MUnit.bytes, unitHeader, le, slice, zeros]
  · rintro frame tc ticks start mask x y data seq shed b rfl
    simp [MUnit.bytes, unitHeader, le, slice, zeros]

end Sys2Proof.Machine
end

section
/-! What the blocks' work does to the rings of the home paths: none of it touches them but the units that it offers
(R92, R101 to R104, R149). -/

namespace Sys2Proof.Machine

open Sys2Proof.Safety

/-- A header write that publishes when it joins (R101). -/
def InsEntry.publishes (e : InsEntry) : Bool :=
  match e.eff with
  | .publish _ _ => true
  | .nothing | .readable _ => false

/-- Two states with the same home paths, ranges of the functions and holds of the paths, and with the same publishing
header writes in every hold: what the rings are and will be is the same in both. -/
def SameRings (s t : State) : Prop :=
  t.home = s.home ∧ t.aps.map = s.aps.map ∧ (∀ p, t.ins.holds.get (byPath p) = s.ins.holds.get (byPath p))
    ∧ ∀ b, (t.ins.holds.get b).filter InsEntry.publishes = (s.ins.holds.get b).filter InsEntry.publishes

@[simp] theorem SameRings.refl (s : State) : SameRings s s := ⟨rfl, rfl, fun _ => rfl, fun _ => rfl⟩

theorem SameRings.symm {s t : State} (h : SameRings s t) : SameRings t s := by
  obtain ⟨hhome, hmap, hhold, hpub⟩ := h
  exact ⟨hhome.symm, hmap.symm, fun p => (hhold p).symm, fun b => (hpub b).symm⟩

theorem SameRings.trans {s t u : State} (h : SameRings s t) (h' : SameRings t u) : SameRings s u := by
  obtain ⟨hhome, hmap, hhold, hpub⟩ := h
  obtain ⟨hhome', hmap', hhold', hpub'⟩ := h'
  exact ⟨hhome'.trans hhome, hmap'.trans hmap, fun p => (hhold' p).trans (hhold p), fun b => (hpub' b).trans (hpub b)⟩

/-- From `s` to `t` the rings have at most taken what was offered to them: units were placed on paths that are not OFF,
each of at least one cell and when it fitted, tags joined the pending lists, and sheds were counted. Where nothing is
offered (`offers` is false) the rings are the same. -/
inductive Works (offers : Prop) (s : State) : State → Prop
  | same {t : State} : SameRings s t → Works offers s t
  | andSame {t u : State} : Works offers s t → SameRings t u → Works offers s u
  | placed {t : State} (p : Fin 2) (u : MUnit) (shed : Nat) : offers → Works offers s t →
      (t.home.paths.get p).state ≠ .off → fits p u t = true → 0 < u.cells → Works offers s (place p u shed t)
  | kept {t : State} (p : Fin 2) (us : List MUnit) (f : HomePath → HomePath) : offers → Works offers s t →
      (∀ u ∈ us, 0 < u.cells) →
      (∀ P, ∃ n r, f P = { P with sheds := n, shedRuns := r, tags := P.tags ++ us }) → Works offers s (t.modPath p f)

@[simp] theorem Works.refl {o : Prop} (s : State) : Works o s s := .same (.refl s)

theorem Works.trans {o : Prop} {s t u : State} (h : Works o s t) (h' : Works o t u) : Works o s u := by
  induction h' with
  | same hs => exact .andSame h hs
  | andSame _ hs ih => exact .andSame ih hs
  | placed p u shed ho _ hst hfit hc ih => exact .placed p u shed ho ih hst hfit hc
  | kept p us f ho _ hus hf ih => exact .kept p us f ho ih hus hf

theorem works_congr {o : Prop} {s₀ s t : State} (h : SameRings s t) : Works o s₀ t ↔ Works o s₀ s :=
  ⟨fun ht => .andSame ht h.symm, fun hs => .andSame hs h⟩

/-- Where nothing is offered, the home paths, the ranges and the paths' holds are as before. -/
theorem Works.sameRings {s t : State} (h : Works False s t) : SameRings s t := by
  induction h with
  | same hs => exact hs
  | andSame _ hs ih => exact ih.trans hs
  | placed _ _ _ ho => exact ho.elim
  | kept _ _ _ ho => exact ho.elim

variable {o : Prop} {s₀ s : State}

/-! ## Changes of the other blocks -/

@[simp] theorem modPort_works (f : Port → Port) : Works o s₀ (s.modPort f) ↔ Works o s₀ s :=
  works_congr ⟨rfl, rfl, fun _ => rfl, fun _ => rfl⟩
@[simp] theorem modClock_works (f : Clock → Clock) : Works o s₀ (s.modClock f) ↔ Works o s₀ s :=
  works_congr ⟨rfl, rfl, fun _ => rfl, fun _ => rfl⟩
@[simp] theorem modLane_works (l : Fin 4) (f : Lane → Lane) : Works o s₀ (s.modLane l f) ↔ Works o s₀ s :=
  works_congr ⟨rfl, rfl, fun _ => rfl, fun _ => rfl⟩
@[simp] theorem modLanes_works (f : Lane → Lane) : Works o s₀ (s.modLanes f) ↔ Works o s₀ s :=
  works_congr ⟨rfl, rfl, fun _ => rfl, fun _ => rfl⟩
@[simp] theorem modSel_works (f : Selector → Selector) : Works o s₀ (s.modSel f) ↔ Works o s₀ s :=
  works_congr ⟨rfl, rfl, fun _ => rfl, fun _ => rfl⟩
@[simp] theorem modSnd_works (f : Sound → Sound) : Works o s₀ (s.modSnd f) ↔ Works o s₀ s :=
  works_congr ⟨rfl, rfl, fun _ => rfl, fun _ => rfl⟩
@[simp] theorem modInput_works (i : Fin 4) (f : SoundInput → SoundInput) : Works o s₀ (s.modInput i f) ↔ Works o s₀ s :=
  works_congr ⟨rfl, rfl, fun _ => rfl, fun _ => rfl⟩
@[simp] theorem modBus_works (b : Fin 8) (f : Bus → Bus) : Works o s₀ (s.modBus b f) ↔ Works o s₀ s :=
  works_congr ⟨rfl, rfl, fun _ => rfl, fun _ => rfl⟩
@[simp] theorem modStore_works (f : Store → Store) : Works o s₀ (s.modStore f) ↔ Works o s₀ s :=
  works_congr ⟨rfl, rfl, fun _ => rfl, fun _ => rfl⟩
@[simp] theorem modPin_works (p : Fin 12) (f : Pin → Pin) : Works o s₀ (s.modPin p f) ↔ Works o s₀ s :=
  works_congr ⟨rfl, rfl, fun _ => rfl, fun _ => rfl⟩
@[simp] theorem modPins_works (f : Pin → Pin) : Works o s₀ (s.modPins f) ↔ Works o s₀ s :=
  works_congr ⟨rfl, rfl, fun _ => rfl, fun _ => rfl⟩
@[simp] theorem modLog_works (f : ClipLog → ClipLog) : Works o s₀ (s.modLog f) ↔ Works o s₀ s :=
  works_congr ⟨rfl, rfl, fun _ => rfl, fun _ => rfl⟩
@[simp] theorem modRec_works (i : Fin 256) (f : Clip → Clip) : Works o s₀ (s.modRec i f) ↔ Works o s₀ s :=
  works_congr ⟨rfl, rfl, fun _ => rfl, fun _ => rfl⟩
@[simp] theorem modCues_works (f : List Cue → List Cue) : Works o s₀ (s.modCues f) ↔ Works o s₀ s :=
  works_congr ⟨rfl, rfl, fun _ => rfl, fun _ => rfl⟩
@[simp] theorem modXfer_works (f : Transfer → Transfer) : Works o s₀ (s.modXfer f) ↔ Works o s₀ s :=
  works_congr ⟨rfl, rfl, fun _ => rfl, fun _ => rfl⟩
@[simp] theorem modCtl_works (f : Control → Control) : Works o s₀ (s.modCtl f) ↔ Works o s₀ s :=
  works_congr ⟨rfl, rfl, fun _ => rfl, fun _ => rfl⟩
@[simp] theorem modDram_works (f : Memory → Memory) : Works o s₀ (s.modDram f) ↔ Works o s₀ s :=
  works_congr ⟨rfl, rfl, fun _ => rfl, fun _ => rfl⟩
@[simp] theorem modAps_works {f : Apertures → Apertures} (hf : ∀ a, (f a).map = a.map) :
    Works o s₀ (s.modAps f) ↔ Works o s₀ s :=
  works_congr ⟨rfl, hf _, fun _ => rfl, fun _ => rfl⟩
@[simp] theorem setLevels_works (b : BitVec 12) : Works o s₀ (s.setLevels b) ↔ Works o s₀ s :=
  works_congr ⟨rfl, rfl, fun _ => rfl, fun _ => rfl⟩

/-! ## Entries, notices, repetition (R12, R178) -/

/-- Entries of another block that publish nothing. -/
theorem sameRings_pushAll {b : Fin 6} {es : List InsEntry} (hb : ∀ p, b ≠ byPath p)
    (hes : ∀ e ∈ es, e.publishes = false) (s : State) : SameRings s (pushAll b es s) := by
  refine ⟨by simp, by simp, fun p => ?_, fun b' => ?_⟩
  · rw [pushAll_holds, if_neg (hb p)]
  · have hnone : es.filter InsEntry.publishes = [] := by simpa using hes
    rw [pushAll_holds]
    split
    · rw [List.filter_append, hnone, List.append_nil]
    · rfl

/-- The holds of the other blocks are not those of the paths (R12). -/
theorem ne_byPath {b : Fin 6} (hb : b = 0 ∨ 3 ≤ b) (p : Fin 2) : b ≠ byPath p := by
  revert b p
  decide

@[simp] theorem pushAll_works {b : Fin 6} {es : List InsEntry} (hb : b = 0 ∨ 3 ≤ b)
    (hes : ∀ e ∈ es, e.publishes = false) : Works o s₀ (pushAll b es s) ↔ Works o s₀ s :=
  works_congr (sameRings_pushAll (ne_byPath hb) hes s)

@[simp] theorem publishes_writeEntry (a : Nat) (d : List Byte) : (writeEntry a d).publishes = false := by
  rw [writeEntry, InsEntry.publishes]

@[simp] theorem push_works {b : Fin 6} {e : InsEntry} (hb : b = 0 ∨ 3 ≤ b) (he : e.publishes = false) :
    Works o s₀ (push b e s) ↔ Works o s₀ s :=
  pushAll_works hb (by simpa using he)

@[simp] theorem raiseAt_works (n : W32) (tc : Nat) (k : NoticeKind) (j : Nat) (d : List Item) :
    Works o s₀ (raiseAt n tc k j d s) ↔ Works o s₀ s := by
  rcases raiseAt_cases n tc k j d s with ⟨he, -⟩ | ⟨a, es, -, -, hes, he⟩
  · rw [he, modCtl_works]
  · rw [he, modCtl_works, pushAll_works (.inl rfl) fun e h => by rw [InsEntry.publishes, hes e h]]

@[simp] theorem raise_works (k : NoticeKind) (j : Nat) (d : List Item) :
    Works o s₀ (raise k j d s) ↔ Works o s₀ s :=
  raiseAt_works _ _ k j d

@[simp] theorem forEach_works {α : Type} {f : α → State → State} (hf : ∀ i t, Works o s₀ (f i t) ↔ Works o s₀ t)
    (l : List α) : Works o s₀ (forEach l f s) ↔ Works o s₀ s := by
  induction l generalizing s with
  | nil => rfl
  | cons a l ih => exact ih.trans (hf a s)

/-- The same for work that is itself of this kind. -/
theorem forEach_worksOn {α : Type} {f : α → State → State} {l : List α}
    (hf : ∀ i ∈ l, ∀ t, Works o s₀ t → Works o t (f i t)) (h : Works o s₀ s) : Works o s₀ (forEach l f s) :=
  forEach_inv h fun i hi t ht => ht.trans (hf i hi t ht)

/-! ## The clip log (R137) -/

@[simp] theorem writeRecord_works (i : Fin 256) : Works o s₀ (writeRecord i s) ↔ Works o s₀ s := by
  simp only [writeRecord]
  (repeat' split) <;> simp

@[simp] theorem mirror_works (i : Fin 256) : Works o s₀ (mirror i s) ↔ Works o s₀ s := by
  simp [mirror]

@[simp] theorem changeRec_works (i : Fin 256) (f : Clip → Clip) : Works o s₀ (changeRec i f s) ↔ Works o s₀ s := by
  simp [changeRec]

/-! ## Clips and the store (R117 to R125) -/

@[simp] theorem loseClip_works (i : Fin 256) : Works o s₀ (loseClip i s) ↔ Works o s₀ s := by
  simp only [loseClip]
  (repeat' split) <;> simp

@[simp] theorem loseUpTo_works (q : W32) : Works o s₀ (loseUpTo q s) ↔ Works o s₀ s := by
  simp [loseUpTo]

@[simp] theorem makeLogOnly_works (i : Fin 256) : Works o s₀ (makeLogOnly i s) ↔ Works o s₀ s := by
  simp [makeLogOnly]

@[simp] theorem pendingToLogOnly_works (p : Clip → Bool) : Works o s₀ (pendingToLogOnly p s) ↔ Works o s₀ s := by
  simp [pendingToLogOnly]

@[simp] theorem loseAll_works : Works o s₀ (loseAll s) ↔ Works o s₀ s := by
  simp [loseAll]

@[simp] theorem resolveEnd_works (i : Fin 256) : Works o s₀ (resolveEnd i s) ↔ Works o s₀ s := by
  simp [resolveEnd]

@[simp] theorem resolveAtFrameStart_works (l : Fin 4) (n : W32) :
    Works o s₀ (resolveAtFrameStart l n s) ↔ Works o s₀ s :=
  forEach_works (fun i t => by split <;> simp) _

@[simp] theorem stopRecording_works (l : Fin 4) : Works o s₀ (stopRecording l s) ↔ Works o s₀ s := by
  simp [stopRecording]

@[simp] theorem resolveOpen_works (i : Fin 256) : Works o s₀ (resolveOpen i s) ↔ Works o s₀ s := by
  simp only [resolveOpen]
  (repeat' split) <;> simp

@[simp] theorem resolveFirst_works (l : Fin 4) (e : IndexEntry) (b : List IndexEntry) :
    Works o s₀ (resolveFirst l e b s) ↔ Works o s₀ s := by
  simp [resolveFirst]

@[simp] theorem storeHeaderWrite_works : Works o s₀ (storeHeaderWrite s) ↔ Works o s₀ s := by
  simp [storeHeaderWrite]

@[simp] theorem markGaps_works (src : Option (Fin 4)) (n : W32) : Works o s₀ (markGaps src n s) ↔ Works o s₀ s := by
  simp [markGaps]

@[simp] theorem refuseOffer_works (src : Option (Fin 4)) (n : W32) (i : Fin 256) :
    Works o s₀ (refuseOffer src n i s) ↔ Works o s₀ s := by
  simp only [refuseOffer]
  (repeat' split) <;> simp

@[simp] theorem unitLeaves_works (u : StoredUnit) : Works o s₀ (unitLeaves u s) ↔ Works o s₀ s := by
  simp [unitLeaves]

@[simp] theorem storePadStep_works (e : Nat) : Works o s₀ (storePadStep e s) ↔ Works o s₀ s := by
  simp only [storePadStep]
  (repeat' split) <;> simp

/-- The last of a unit's cell writes may carry an effect, but it does not publish (R117). -/
theorem publishes_cellWrites (a : Nat) (cs : List (List Byte)) {last : JoinEffect}
    (h : ∀ p v, last ≠ .publish p v) : ∀ e ∈ cellWrites a cs last, e.publishes = false := by
  induction cs generalizing a with
  | nil => simp [cellWrites]
  | cons c cs ih =>
    cases cs with
    | nil =>
      cases last with
      | publish p v => exact absurd rfl (h p v)
      | nothing | readable => simp [cellWrites, InsEntry.publishes]
    | cons d ds => simpa [cellWrites] using ih (a + 64)

@[simp] theorem storeDataStep_works (src : Option (Fin 4)) (n : W32) (u : MUnit) :
    Works o s₀ (storeDataStep src n u s) ↔ Works o s₀ s := by
  simp only [storeDataStep, modStore_works]
  exact pushAll_works (.inr (by decide)) (publishes_cellWrites _ _ (by simp))

@[simp] theorem indexStep_works (l : Fin 4) (n q : W32) (c : Nat) :
    Works o s₀ (indexStep l n q c s) ↔ Works o s₀ s := by
  simp only [indexStep]
  (repeat' split) <;> simp

@[simp] theorem tallyRows_works (l : Fin 4) (n : W32) : Works o s₀ (tallyRows l n s) ↔ Works o s₀ s := by
  simp [tallyRows]

@[simp] theorem storeUnit_works (src : Option (Fin 4)) (n : W32) (u : MUnit) (a b : List Retained) :
    Works o s₀ (storeUnit src n u a b s) ↔ Works o s₀ s := by
  cases src <;> simp [storeUnit]

@[simp] theorem resumeStore_works : Works o s₀ (resumeStore s) ↔ Works o s₀ s := by
  simp only [resumeStore]
  (repeat' split) <;> simp

@[simp] theorem offerStore_works (src : Option (Fin 4)) (n : W32) (u : MUnit) :
    Works o s₀ (offerStore src n u s) ↔ Works o s₀ s := by
  simp only [offerStore]
  (repeat' split) <;> simp

@[simp] theorem storeFrameStart_works (l : Fin 4) (n : W32) : Works o s₀ (storeFrameStart l n s) ↔ Works o s₀ s := by
  simp [storeFrameStart]

@[simp] theorem markReadable_works (q : W32) : Works o s₀ (markReadable q s) ↔ Works o s₀ s := by
  simp [markReadable]

@[simp] theorem reportDamage_works (l : Fin 4) : Works o s₀ (reportDamage l s) ↔ Works o s₀ s := by
  simp only [reportDamage]
  (repeat' split) <;> simp

@[simp] theorem addTallies_works : Works o s₀ (addTallies s) ↔ Works o s₀ s := by
  simp [addTallies]

/-! ## Offers to the home paths (R103, R104, R111) -/

@[simp] theorem cells_row_pos (l : Fin 4) (f : W32) (tc j q k b : Nat) (d : List Byte) :
    0 < (MUnit.row l f tc j q k b d).cells := by
  simp only [MUnit.cells, MUnit.length, cellCountOf]
  omega

@[simp] theorem cells_sound_pos (f : W32) (tc n i : Nat) (m : BitVec 8) (a b : Bool) (d : List Byte) :
    0 < (MUnit.sound f tc n i m a b d).cells := by
  simp only [MUnit.cells, MUnit.length, cellCountOf]
  omega

@[simp] theorem cells_tag_pos (l : Fin 4) (f : W32) (tc c : Nat) (e : TagEvent) (d : List Byte) :
    0 < (MUnit.tag l f tc c e d).cells := by
  simp only [MUnit.cells, MUnit.length, cellCountOf]
  omega

@[simp] theorem cells_toUnit_pos (a : Accumulator) : 0 < a.toUnit.cells := cells_sound_pos ..
@[simp] theorem cells_tagOf_pos (i : Fin 256) (e : TagEvent) : 0 < (tagOf i e s).cells := cells_tag_pos ..

/-- The paths of the effective route set are not OFF (R111). -/
theorem not_off_of_mem_effectiveRoute {p : Fin 2} (h : p ∈ effectiveRoute s) : (s.home.paths.get p).state ≠ .off := by
  have hone (q : Fin 2) (hq : p ∈ if (s.home.paths.get q).state ≠ .off then [q] else []) :
      (s.home.paths.get p).state ≠ .off := by
    split at hq
    next hst => rwa [List.mem_singleton.1 hq]
    next => cases hq
  have hrunning (q : Fin 2) (hst : (s.home.paths.get q).state = .running) (hq : p ∈ [q]) :
      (s.home.paths.get p).state ≠ .off := by
    rw [List.mem_singleton.1 hq, hst]
    decide
  unfold effectiveRoute at h
  split at h
  · exact hone 0 h
  · exact hone 1 h
  · rcases List.mem_append.1 h with h | h
    · exact hone 0 h
    · exact hone 1 h
  · dsimp only at h
    split at h
    next hst => exact hrunning 0 hst h
    next =>
      split at h
      next hst => exact hrunning 1 hst h
      next => exact hone 0 h

theorem offerLive_works (src : Fin 5) {u : MUnit} (hu : 0 < u.cells) {p : Fin 2}
    (hp : (s.home.paths.get p).state ≠ .off) : Works True s (offerLive src u p s) := by
  simp only [offerLive]
  split
  next hfit =>
    exact .kept p [] _ trivial (.placed p u _ trivial (.refl s) hp hfit hu) (by simp) fun P =>
      ⟨P.sheds, _, by rw [List.append_nil]⟩
  next => exact .kept p [] _ trivial (.refl s) (by simp) fun P => ⟨_, _, by rw [List.append_nil]⟩

theorem offerTag_works {u : MUnit} (hu : 0 < u.cells) {p : Fin 2} (hp : (s.home.paths.get p).state ≠ .off) :
    Works True s (offerTag u p s) := by
  simp only [offerTag]
  split
  next hfit => exact .placed p u _ trivial (.refl s) hp hfit.2 hu
  next =>
    split
    · exact .kept p [u] _ trivial (.refl s) (by simpa using hu) fun P => ⟨P.sheds, P.shedRuns, rfl⟩
    · simp

theorem sameRings_raise (k : NoticeKind) (j : Nat) (d : List Item) (s : State) : SameRings s (raise k j d s) :=
  Works.sameRings ((raise_works k j d).2 (.refl s))

theorem pressureTest_rings (p : Fin 2) (k : UnitKind) (s : State) :
    ∃ arm, SameRings (s.modPath p fun P => { P with arm := arm }) (pressureTest p k s) := by
  simp only [pressureTest]
  split
  · exact ⟨false, sameRings_raise _ _ _ _⟩
  · refine ⟨(s.home.paths.get p).arm, ?_⟩
    rw [State.modPath, Table.modify_id _ _ rfl]
    exact .refl s

/-- What a placement does to the rings (R101, R106): pad and unit are there, and the arm is as the pressure test leaves
it. -/
theorem place_rings {p : Fin 2} {u : MUnit} {pad : Nat} {passed : Bool}
    (h : FitsAt (pathCells p s) (s.home.paths.get p) u.cells pad passed) (shed : Nat) :
    ∃ arm, SameRings ((unitPlaced p u shed pad passed s).modPath p fun P => { P with arm := arm })
      (place p u shed s) := by
  rw [place_eq h, placedAs_eq]
  exact pressureTest_rings p u.kind _

/-- The path and the rest of the home block after a placement. -/
theorem place_home {p : Fin 2} {u : MUnit} (h : fits p u s = true) (shed : Nat) : ∃ pad passed arm,
    FitsAt (pathCells p s) (s.home.paths.get p) u.cells pad passed
      ∧ (place p u shed s).home = { s.home with
          paths := s.home.paths.modify p fun P => { P.afterUnit u.cells pad passed with arm := arm } } := by
  obtain ⟨pad, passed, hfit⟩ := (fits_iff p u s).1 h
  obtain ⟨arm, hhome, -⟩ := place_rings hfit shed
  refine ⟨pad, passed, arm, hfit, hhome.trans ?_⟩
  simp only [unitPlaced, State.modPath_home, pushAll_frame, Table.modify_modify, Function.comp_def]

/-- What no offer changes of a path: its state, its limit and stall timer, and consumed while cells are in use (R101 to
R104). -/
def SamePath (P Q : HomePath) : Prop :=
  Q.state = P.state ∧ Q.limit = P.limit ∧ Q.stall = P.stall ∧ Q.stallAt = P.stallAt ∧ P.placed ≤ Q.placed
    ∧ (P.consumed < P.placed → Q.consumed = P.consumed)

@[simp] theorem SamePath.refl (P : HomePath) : SamePath P P := ⟨rfl, rfl, rfl, rfl, le_refl _, fun _ => rfl⟩

theorem SamePath.trans {P Q R : HomePath} (h : SamePath P Q) (h' : SamePath Q R) : SamePath P R := by
  obtain ⟨h1, h2, h3, h4, h5, h6⟩ := h
  obtain ⟨h1', h2', h3', h4', h5', h6'⟩ := h'
  refine ⟨h1'.trans h1, h2'.trans h2, h3'.trans h3, h4'.trans h4, h5.trans h5', fun h => ?_⟩
  have hc := h6 h
  exact (h6' (by omega)).trans hc

/-- A unit's placement is such a change: a pad is passed over only while nothing is in use (R101). -/
theorem samePath_afterUnit {n c pad : Nat} {passed : Bool} {P : HomePath} (h : FitsAt n P c pad passed) (arm : Bool) :
    SamePath P { P.afterUnit c pad passed with arm := arm } := by
  refine ⟨rfl, rfl, rfl, rfl, ?_, ?_⟩
  · show P.placed ≤ P.placed + pad + c
    omega
  · rcases h with ⟨-, rfl, -⟩ | ⟨-, rfl, -⟩ | ⟨-, rfl, -, hused, -⟩ <;> intro hlt
    · rfl
    · rfl
    · exact absurd hlt (by omega)

/-- Offers leave the route, and of each path what `SamePath` names. -/
theorem Works.samePath {t : State} (h : Works o s t) :
    t.home.route = s.home.route ∧ ∀ p, SamePath (s.home.paths.get p) (t.home.paths.get p) := by
  induction h with
  | same hs => exact ⟨by rw [hs.1], fun p => by rw [hs.1]; exact .refl _⟩
  | andSame _ hs ih => exact ⟨by rw [hs.1]; exact ih.1, fun p => by rw [hs.1]; exact ih.2 p⟩
  | @placed t p u shed _ _ _ hfit _ ih =>
    obtain ⟨pad, passed, arm, hat, hhome⟩ := place_home hfit shed
    refine ⟨by rw [hhome]; exact ih.1, fun q => ?_⟩
    rw [hhome]
    simp only [Table.get_modify]
    split
    next hq =>
      subst hq
      exact (ih.2 _).trans (samePath_afterUnit hat arm)
    next => exact ih.2 q
  | @kept t p us f _ _ _ hf ih =>
    refine ⟨ih.1, fun q => ?_⟩
    simp only [State.modPath_home, Table.get_modify]
    split
    next hq =>
      subst hq
      obtain ⟨n, r, hP⟩ := hf (t.home.paths.get p)
      rw [hP]
      exact (ih.2 p).trans ⟨rfl, rfl, rfl, rfl, le_refl _, fun _ => rfl⟩
    next => exact ih.2 q

theorem Works.state {t : State} (h : Works o s t) (p : Fin 2) :
    (t.home.paths.get p).state = (s.home.paths.get p).state := by
  obtain ⟨-, hpath⟩ := h.samePath
  obtain ⟨hstate, -⟩ := hpath p
  exact hstate

/-- Offers of one unit to each path of the effective route set (R111). -/
theorem offerToRoute_works {f : Fin 2 → State → State}
    (hf : ∀ p t, (t.home.paths.get p).state ≠ .off → Works o t (f p t)) (h : Works o s₀ s) :
    Works o s₀ (offerToRoute f s) := by
  suffices Works o s (offerToRoute f s) from h.trans this
  exact forEach_worksOn (fun p hp t ht => hf p t (by rw [ht.state]; exact not_off_of_mem_effectiveRoute hp)) (.refl s)

@[simp] theorem sendTag_works (i : Fin 256) (e : TagEvent) (h : Works True s₀ s) : Works True s₀ (sendTag i e s) :=
  offerToRoute_works (fun _ _ hp => offerTag_works (cells_tagOf_pos i e) hp) h

/-! ## Marks and labels (R138 to R148) -/

@[simp] theorem closeClip_works (i : Fin 256) (n : W32) (tc : Nat) (r : Origin) (h : Works True s₀ s) :
    Works True s₀ (closeClip i n tc r s) := by
  simp [closeClip, h]

theorem closedForMarkIn_works (src : Fin 4) (f : W32) (tc : Nat) (r : Origin) (h : Works True s₀ s) :
    Works True s₀ (closedForMarkIn src f tc r s) := by
  simp only [closedForMarkIn]
  (repeat' split) <;> simp [h]

theorem openedByMarkIn_works (i : Fin 256) (src : Fin 4) (f : W32) (tc : Nat) :
    Works o s₀ (openedByMarkIn i src f tc s) ↔ Works o s₀ s := by
  simp [openedByMarkIn]

@[simp] theorem markIn_works (src : Fin 4) (g : W32) (c p : Nat) (r : Origin) (h : Works True s₀ s) :
    Works True s₀ (markIn src g c p r s).1 := by
  have hclosed := closedForMarkIn_works src (g - BitVec.ofNat 32 p) (subMod c p (dayFrames s)) r h
  change Works True s₀
    (match takeRecord (closedForMarkIn src (g - BitVec.ofNat 32 p) (subMod c p (dayFrames s)) r s) with
    | none => (raise .logFull 0 _ (closedForMarkIn src (g - BitVec.ofNat 32 p) (subMod c p (dayFrames s)) r s), _)
    | some i =>
      (mirror i (sendTag i .opened (raise .clipOpened _ _
        (openedByMarkIn i src (g - BitVec.ofNat 32 p) (subMod c p (dayFrames s))
          (closedForMarkIn src (g - BitVec.ofNat 32 p) (subMod c p (dayFrames s)) r s)))), _) : State × MarkOutcome).1
  split
  · simpa using hclosed
  · simp [openedByMarkIn_works, hclosed]

@[simp] theorem markOut_works (src : Fin 4) (g : W32) (c : Nat) (r : Origin) (h : Works True s₀ s) :
    Works True s₀ (markOut src g c r s).1 := by
  simp only [markOut]
  (repeat' split) <;> simp [h]

@[simp] theorem addLabel_works (i : Fin 256) (k : W16) (h : Works True s₀ s) : Works True s₀ (addLabel i k s).1 := by
  simp only [addLabel]
  (repeat' split) <;> simp [h]

@[simp] theorem markLabel_works (src : Fin 4) (k : W16) (r : Origin) (h : Works True s₀ s) :
    Works True s₀ (markLabel src k r s).1 := by
  simp only [markLabel]
  (repeat' split) <;> simp [h]

@[simp] theorem markArrival_works (a : MarkAction) (src : Fin 4) (k : W16) (g : W32) (c p : Nat) (r : Origin)
    (h : Works True s₀ s) : Works True s₀ (markArrival a src k g c p r s).1 := by
  simp only [markArrival]
  (repeat' split) <;> simp [h]

/-! ## Transfers (R163 to R171) -/

@[simp] theorem skipUnits_works (k : Nat) : Works o s₀ (skipUnits k s) ↔ Works o s₀ s := by
  induction k generalizing s with
  | zero => rfl
  | succ k ih =>
    simp only [skipUnits]
    split
    · rfl
    · simp [ih]

@[simp] theorem activate_works : Works o s₀ (activate s) ↔ Works o s₀ s := by
  simp only [activate]
  (repeat' split) <;> simp

@[simp] theorem complete_works : Works o s₀ (complete s) ↔ Works o s₀ s := by
  simp only [complete]
  (repeat' split) <;> simp

@[simp] theorem deal_works (k : Nat) : Works o s₀ (deal k s) ↔ Works o s₀ s := by
  induction k generalizing s with
  | zero => rfl
  | succ k ih =>
    simp only [deal]
    (repeat' split) <;> simp [ih]

@[simp] theorem goOn_works : Works o s₀ (goOn s) ↔ Works o s₀ s := by
  simp [goOn]

@[simp] theorem startHead_works : Works o s₀ (startHead s) ↔ Works o s₀ s := by
  simp [startHead]

@[simp] theorem advanceCursor_works : Works o s₀ (advanceCursor s) ↔ Works o s₀ s := by
  simp [advanceCursor]

@[simp] theorem toldPlaced_works : Works o s₀ (toldPlaced s) ↔ Works o s₀ s := by
  simp [toldPlaced]

@[simp] theorem restorePrior_works (n : Nat) : Works o s₀ (restorePrior n s) ↔ Works o s₀ s := by
  simp only [restorePrior]
  (repeat' split) <;> simp

@[simp] theorem raiseEnded_works (r : EndReason) (e : Send) (a b : Nat) :
    Works o s₀ (raiseEnded r e a b s) ↔ Works o s₀ s := by
  simp [raiseEnded]

@[simp] theorem endEntry_works (r : EndReason) (l : Bool) (a b : Nat) (e : Send) :
    Works o s₀ (endEntry r l a b e s) ↔ Works o s₀ s := by
  simp only [endEntry]
  (repeat' split) <;> simp

/-- The transfer engine's entries are reads, and publish nothing (R167). -/
@[simp] theorem issueReads_works : Works o s₀ (issueReads s) ↔ Works o s₀ s := by
  simp only [issueReads]
  (repeat' split)
  · rw [modXfer_works]
    exact pushAll_works (.inr (by decide)) (by simp [InsEntry.publishes])
  all_goals rfl

/-! ## Picture (R33 to R66) -/

@[simp] theorem completeSwitch_works (l : Fin 4) (n : W32) : Works o s₀ (completeSwitch l n s) ↔ Works o s₀ s := by
  simp only [completeSwitch]
  (repeat' split) <;> simp

@[simp] theorem dropFromSelector_works (l : Fin 4) : Works o s₀ (dropFromSelector l s) ↔ Works o s₀ s := by
  simp only [dropFromSelector]
  (repeat' split) <;> simp

@[simp] theorem chargeRow_works (l : Fin 4) (c : Nat) : Works o s₀ (chargeRow l c s) ↔ Works o s₀ s := by
  simp [chargeRow]

theorem offerRow_works (l : Fin 4) {u : MUnit} (hu : 0 < u.cells) (h : Works True s₀ s) :
    Works True s₀ (offerRow l u s) := by
  have hroute (t : State) (ht : Works True s₀ t) :
      Works True s₀ (if t.sel.programme = some l then offerToRoute (offerLive ⟨l.val, by omega⟩ u) t else t) := by
    split
    · exact offerToRoute_works (fun _ _ hp => offerLive_works _ hu hp) ht
    · exact ht
  refine hroute _ ?_
  split <;> simp [h]

@[simp] theorem rowComplete_works (l : Fin 4) (j : Nat) (r : List Byte) (h : Works True s₀ s) :
    Works True s₀ (rowComplete l j r s) :=
  offerRow_works l (cells_row_pos ..) (by simpa using h)

@[simp] theorem feedRows_works (l : Fin 4) (k : Nat) (d : List Byte) (h : Works True s₀ s) :
    Works True s₀ (feedRows l k d s) := by
  induction k generalizing d s with
  | zero => exact h
  | succ k ih =>
    simp only [feedRows]
    split
    · split
      · simpa
      · split
        · simp [h]
        · exact ih _ (by simp [h])
    · exact h

@[simp] theorem frameStart_works (l : Fin 4) (j n : Nat) (d : List Byte) (h : Works True s₀ s) :
    Works True s₀ (frameStart l j n d s) := by
  simp [frameStart, h]

@[simp] theorem raiseSkew_works (l : Fin 4) (r : SkewReason) (a b c : Nat) :
    Works o s₀ (raiseSkew l r a b c s) ↔ Works o s₀ s := by
  simp [raiseSkew]

@[simp] theorem abandon_works (l : Fin 4) (r : SkewReason) (a b c : Nat) :
    Works o s₀ (abandon l r a b c s) ↔ Works o s₀ s := by
  simp [abandon]

@[simp] theorem takePicture_works (l : Fin 4) (n : Nat) (d : List Byte) (h : Works True s₀ s) :
    Works True s₀ (takePicture l n d s) := by
  simp only [takePicture]
  (repeat' split) <;> simp [h]

/-! ## Sound (R70 to R92) -/

@[simp] theorem takeSound_works (i : Fin 4) (n : Nat) (d : List Byte) :
    Works o s₀ (takeSound i n d s) ↔ Works o s₀ s := by
  simp [takeSound]

@[simp] theorem settleInput_works (i : Fin 4) : Works o s₀ (settleInput i s) ↔ Works o s₀ s := by
  simp only [settleInput]
  (repeat' split) <;> simp

@[simp] theorem settleBus_works (n : Nat) (b : Fin 8) : Works o s₀ (settleBus n b s) ↔ Works o s₀ s := by
  simp only [settleBus]
  (repeat' split) <;> simp

@[simp] theorem monitorWrite_works (d : List Int) : Works o s₀ (monitorWrite d s) ↔ Works o s₀ s := by
  simp only [monitorWrite]
  (repeat' split) <;> simp [byMixer]

theorem offerSound_works {u : MUnit} (hu : 0 < u.cells) (n : W32) (h : Works True s₀ s) :
    Works True s₀ (offerSound u n s) := by
  refine offerToRoute_works (fun _ _ hp => offerLive_works _ hu hp) ?_
  split <;> simp [h]

@[simp] theorem closeUnit_works (a : Accumulator) (r : Bool) (h : Works True s₀ s) : Works True s₀ (closeUnit a r s) :=
  offerSound_works (cells_toUnit_pos a) _ (by simpa using h)

@[simp] theorem accumulate_works (n : Nat) (d : List Int) (h : Works True s₀ s) : Works True s₀ (accumulate n d s) := by
  simp only [accumulate]
  (repeat' split) <;> simp [h]

@[simp] theorem mixerTick_works (n : Nat) (b : Bool) (h : Works True s₀ s) : Works True s₀ (mixerTick n b s) := by
  simp only [mixerTick]
  refine accumulate_works _ _ ?_
  simp only [monitorWrite_works, modSnd_works, forEach_works, settleBus_works, settleInput_works, implies_true]
  split <;> simp [h]

/-! ## Reference, pins and lines (R22 to R24, R130 to R135, R161) -/

@[simp] theorem refPulse_works : Works o s₀ (refPulse s) ↔ Works o s₀ s := by
  simp only [refPulse]
  (repeat' split) <;> simp

@[simp] theorem refLossTick_works : Works o s₀ (refLossTick s) ↔ Works o s₀ s := by
  simp only [refLossTick]
  (repeat' split) <;> simp

@[simp] theorem samplePin_works (p : Fin 12) (h : Works True s₀ s) : Works True s₀ (samplePin p s) := by
  simp only [samplePin]
  (repeat' split) <;> simp [h]

@[simp] theorem levelWriteAt_works (m d : BitVec 12) (p : Fin 12) :
    Works o s₀ (levelWriteAt m d p s) ↔ Works o s₀ s := by
  simp [levelWriteAt]

@[simp] theorem levelWrite_works (m d : BitVec 12) : Works o s₀ (levelWrite m d s) ↔ Works o s₀ s := by
  simp [levelWrite]

/-! ## Cues (R154 to R158) -/

@[simp] theorem cueMark_works (n : Nat) (a : MarkAction) (i : Fin 4) (k : W16) (h : Works True s₀ s) :
    Works True s₀ (cueMark n a i k s).1 := by
  simp [cueMark, h]

@[simp] theorem applyAct_works (n : Nat) (a : CueAct) (h : Works True s₀ s) : Works True s₀ (applyAct n a s).1 := by
  cases a <;> simp only [applyAct] <;> (repeat' split) <;> simp [h]

theorem applySlot_works (e : Cue) (i : Fin 4) (r : State × List Nat) : Works True r.1 (applySlot e i r).1 := by
  simp only [applySlot]
  split <;> simp

@[simp] theorem applySlots_works (e : Cue) (h : Works True s₀ s) : Works True s₀ (applySlots e s).1 := by
  suffices ∀ (l : List (Fin 4)) (r : State × List Nat), Works True s₀ r.1 →
      Works True s₀ (l.foldl (fun r i => applySlot e i r) r).1 from this _ (s, []) h
  intro l
  induction l with
  | nil => exact fun _ hr => hr
  | cons i l ih => exact fun r hr => ih _ (hr.trans (applySlot_works e i r))

@[simp] theorem fireHead_works (h : Works True s₀ s) : Works True s₀ (fireHead s) := by
  simp only [fireHead]
  (repeat' split) <;> simp [h]

@[simp] theorem fireNext_works (h : Works True s₀ s) : Works True s₀ (fireNext s) := by
  simp only [fireNext]
  (repeat' split) <;> simp [h]

@[simp] theorem fireDue_works (k : Nat) (h : Works True s₀ s) : Works True s₀ (fireDue k s) := by
  induction k generalizing s with
  | zero => exact h
  | succ k ih =>
    simp only [fireDue]
    split
    · exact ih (fireHead_works h)
    · exact h

@[simp] theorem rebase_works : Works o s₀ (rebase s) ↔ Works o s₀ s := by
  simp [rebase]

/-! ## Ticks (R9, R16, R67, R181) -/

@[simp] theorem onAirTick_works : Works o s₀ (onAirTick s) ↔ Works o s₀ s := by
  simp only [onAirTick]
  (repeat' split) <;> simp

@[simp] theorem statusTick_works : Works o s₀ (statusTick s) ↔ Works o s₀ s := by
  simp only [statusTick]
  split
  · rfl
  · exact pushAll_works (.inl rfl) (by simp [blockWrites])

@[simp] theorem guardReport_works (n : Fin 16) : Works o s₀ (guardReport n s) ↔ Works o s₀ s := by
  simp only [guardReport]
  (repeat' split) <;> simp

@[simp] theorem guardTick_works : Works o s₀ (guardTick s) ↔ Works o s₀ s := by
  simp [guardTick]

@[simp] theorem openFrame_works : Works o s₀ (openFrame s) ↔ Works o s₀ s := by
  simp only [openFrame]
  (repeat' split) <;> simp

/-- Every act of a tick but the stall timers is work of this kind. -/
theorem runAct_works (r : Opening) {a : TickAct} (ha : ∀ p, a ≠ .stall p) (h : Works True s₀ s) :
    Works True s₀ (runAct r a s) := by
  cases a with
  | stall p => exact absurd rfl (ha p)
  | _ =>
    simp only [runAct]
    (repeat' split) <;> simp [h]

/-! ## Commands (R25 to R177) -/

@[simp] theorem writeBus_works (b : Fin 8) (x y z : Bool) (h : Works True s₀ s) :
    Works True s₀ (writeBus b x y z s) := by
  simp only [writeBus]
  (repeat' split) <;> simp [h]

@[simp] theorem writeLane_works (l : Fin 4) (e : Bool) (x : LaneSettings) :
    Works o s₀ (writeLane l e x s) ↔ Works o s₀ s := by
  simp only [writeLane]
  (repeat' split) <;> simp

@[simp] theorem enableStore_works : Works o s₀ (enableStore s) ↔ Works o s₀ s := by
  simp [enableStore]

@[simp] theorem removeLabel_works (i : Fin 256) (k : W16) (h : Works True s₀ s) :
    Works True s₀ (removeLabel i k s).1 := by
  simp only [removeLabel, refuse]
  (repeat' split) <;> simp [h]

@[simp] theorem freeRecord_works (i : Fin 256) : Works o s₀ (freeRecord i s) ↔ Works o s₀ s := by
  simp only [freeRecord]
  (repeat' split) <;> simp

@[simp] theorem queueSend_works (i : Fin 256) (e : Send) : Works o s₀ (queueSend i e s) ↔ Works o s₀ s := by
  simp only [queueSend]
  (repeat' split) <;> simp

@[simp] theorem abortQueued_works (n : Nat) : Works o s₀ (abortQueued n s) ↔ Works o s₀ s := by
  simp [abortQueued]

@[simp] theorem removeCue_works (n : Nat) : Works o s₀ (removeCue n s) ↔ Works o s₀ s := by
  simp [removeCue]

@[simp] theorem setPinMark_works (p : Fin 12) (b : Bool) (c : Command) :
    Works o s₀ (setPinMark p b c s).1 ↔ Works o s₀ s := by
  simp only [setPinMark, refuse]
  (repeat' split) <;> simp

@[simp] theorem setPinLine_works (p : Fin 12) (c : Command) : Works o s₀ (setPinLine p c s).1 ↔ Works o s₀ s := by
  simp only [setPinLine, refuse]
  (repeat' split) <;> simp

@[simp] theorem setPin_works (b : BitVec 12) (c : Command) : Works o s₀ (setPin b c s).1 ↔ Works o s₀ s := by
  simp only [setPin, refuse]
  (repeat' split) <;> simp

@[simp] theorem setClock_works (c : Command) : Works o s₀ (setClock c s).1 ↔ Works o s₀ s := by
  simp only [setClock, refuse]
  (repeat' split) <;> simp

@[simp] theorem presetTimecode_works (c : Command) : Works o s₀ (presetTimecode c s).1 ↔ Works o s₀ s := by
  simp only [presetTimecode, refuse]
  (repeat' split) <;> simp

@[simp] theorem setPicture_works (c : Command) : Works o s₀ (setPicture c s).1 ↔ Works o s₀ s := by
  simp only [setPicture, refuse]
  (repeat' split) <;> simp

@[simp] theorem setLane_works (c : Command) : Works o s₀ (setLane c s).1 ↔ Works o s₀ s := by
  simp only [setLane, refuse]
  (repeat' split) <;> simp

@[simp] theorem setProgram_works (c : Command) : Works o s₀ (setProgram c s).1 ↔ Works o s₀ s := by
  simp only [setProgram, refuse]
  (repeat' split) <;> simp

@[simp] theorem setSound_works (c : Command) : Works o s₀ (setSound c s).1 ↔ Works o s₀ s := by
  simp only [setSound, refuse]
  (repeat' split) <;> simp

@[simp] theorem setTap_works (c : Command) : Works o s₀ (setTap c s).1 ↔ Works o s₀ s := by
  simp only [setTap, refuse]
  (repeat' split) <;> simp

@[simp] theorem setLineLevels_works (c : Command) : Works o s₀ (setLineLevels c s).1 ↔ Works o s₀ s := by
  simp only [setLineLevels, refuse]
  (repeat' split) <;> simp

@[simp] theorem addCue_works (c : Command) : Works o s₀ (addCue c s).1 ↔ Works o s₀ s := by
  simp only [addCue, refuse]
  (repeat' split) <;> simp

@[simp] theorem cancelCue_works (c : Command) : Works o s₀ (cancelCue c s).1 ↔ Works o s₀ s := by
  simp only [cancelCue, refuse]
  (repeat' split) <;> simp

@[simp] theorem clipDelete_works (c : Command) : Works o s₀ (clipDelete c s).1 ↔ Works o s₀ s := by
  simp only [clipDelete, refuse]
  (repeat' split) <;> simp

@[simp] theorem sendClip_works (c : Command) : Works o s₀ (sendClip c s).1 ↔ Works o s₀ s := by
  simp only [sendClip, refuse]
  (repeat' split) <;> simp

@[simp] theorem setBus_works (c : Command) (h : Works True s₀ s) : Works True s₀ (setBus c s).1 := by
  simp only [setBus, refuse]
  (repeat' split) <;> simp [h]

@[simp] theorem clipMark_works (c : Command) (h : Works True s₀ s) : Works True s₀ (clipMark c s).1 := by
  simp only [clipMark, refuse]
  (repeat' split) <;> simp [h]

@[simp] theorem clipLabel_works (c : Command) (h : Works True s₀ s) : Works True s₀ (clipLabel c s).1 := by
  simp only [clipLabel, refuse]
  (repeat' split) <;> simp [h]

@[simp] theorem forceCue_works (c : Command) (h : Works True s₀ s) : Works True s₀ (forceCue c s).1 := by
  simp only [forceCue, refuse]
  (repeat' split) <;> simp [h]

/-! ## Acceptance and service (R1, R11, R13) -/

@[simp] theorem releaseTo_works (v : Nat) : Works o s₀ (releaseTo v s) ↔ Works o s₀ s := by
  simp [releaseTo]

@[simp] theorem slotArrival_works (n : Fin 16) : Works o s₀ (slotArrival n s) ↔ Works o s₀ s := by
  simp only [slotArrival]
  (repeat' split) <;> simp

@[simp] theorem takeCommands_works (n : Nat) (d : List Byte) : Works o s₀ (takeCommands n d s) ↔ Works o s₀ s := by
  simp only [takeCommands]
  (repeat' split) <;> simp

@[simp] theorem handWrite_works (f : Fn) (n : Nat) (i : Fin 16) (d : List Byte) (h : Works True s₀ s) :
    Works True s₀ (handWrite f n i d s) := by
  cases f <;> simp only [handWrite, releaseWord] <;> (repeat' split) <;> simp [h]

@[simp] theorem takePiece_works (p : Piece) (h : Works True s₀ s) : Works True s₀ (takePiece p s) := by
  simp only [takePiece, tallyGuard]
  (repeat' split) <;> simp [h]

theorem acceptHeld_works (s : State) : Works True s (acceptHeld s) := by
  refine acceptHeld_inv (.refl s) fun r rest t ht => ?_
  refine forEach_worksOn (fun p _ u _ => takePiece_works p (.refl u)) ?_
  simpa [openRequest] using ht

@[simp] theorem settleWrites_works : Works o s₀ (settleWrites s) ↔ Works o s₀ s := by
  simp [settleWrites]

@[simp] theorem releaseByRead_works (n k : Nat) : Works o s₀ (releaseByRead n k s) ↔ Works o s₀ s := by
  simp only [releaseByRead]
  (repeat' split) <;> simp

@[simp] theorem grant_works : Works o s₀ (grant s) ↔ Works o s₀ s := by
  have hins (f : InsertPath → InsertPath) (hf : (f s.ins).holds = s.ins.holds) :
      Works o s₀ (s.modIns f) ↔ Works o s₀ s :=
    works_congr ⟨rfl, rfl, fun _ => by rw [State.modIns_ins, hf], fun _ => by rw [State.modIns_ins, hf]⟩
  simp only [grant, grantEntry, grantPiece]
  (repeat' split) <;> simp [hins]

/-! ## The control block (R6, R172, R173, R175) -/

@[simp] theorem finish_works (c : Command) (r : State × Result) : Works o s₀ (finish c r) ↔ Works o s₀ r.1 := by
  simp [finish]

@[simp] theorem writeHeader_works : Works o s₀ (writeHeader s) ↔ Works o s₀ s := by
  simp only [writeHeader]
  (repeat' split) <;> simp

@[simp] theorem dropNotices_works : Works o s₀ (dropNotices s) ↔ Works o s₀ s := by
  simp [dropNotices]

/-- The owner's restart writes into the aperture, and nothing that publishes. -/
@[simp] theorem restartOwner_works (f : Fn) (b : Nat) : Works o s₀ (restartOwner f b s) ↔ Works o s₀ s := by
  cases f <;> simp [restartOwner, rewriteLog, restartNotices]

@[simp] theorem loadClock_works (d : Nat) : Works o s₀ (loadClock d s) ↔ Works o s₀ s := by
  simp only [loadClock]
  (repeat' split) <;> simp

@[simp] theorem loadPin_works (d : Nat) (p : Fin 12) : Works o s₀ (loadPin d p s) ↔ Works o s₀ s := by
  simp [loadPin]

@[simp] theorem applyEntry_works (tag d : Nat) : Works o s₀ (applyEntry tag d s) ↔ Works o s₀ s := by
  simp only [applyEntry, loadPins]
  (repeat' split) <;> simp

end Sys2Proof.Machine
end

section
/-! Every step keeps consumed ≤ published ≤ placed and in-use within the ring, for both home paths (R95, R96). -/

namespace Sys2Proof.Machine

open Sys2Proof.Safety

/-! ## A ring and its cells -/

/-- What R96 says of one path, for a ring of `n` cells. -/
def ringOk (n : Nat) (P : HomePath) : Prop :=
  P.consumed ≤ P.published ∧ P.published ≤ P.placed ∧ P.placed - P.consumed ≤ n
    ∧ (P.state = .off → P.placed = 0 ∧ P.published = 0 ∧ P.consumed = 0)
    ∧ (∀ e ∈ P.units, P.consumed ≤ e.start ∧ e.start + e.cells ≤ P.placed)
    ∧ P.units.Pairwise fun e f => e.start + e.cells ≤ f.start

/-- Every entry, pending tag and held offer of one path has a cell. -/
def cellsOk (P : HomePath) : Prop :=
  (∀ e ∈ P.units, 0 < e.cells) ∧ (∀ u ∈ P.tags, 0 < u.cells) ∧ ∀ u, P.heldOffer = some u → 0 < u.cells

theorem pathOk_iff {s : State} {p : Fin 2} : pathOk s p ↔ ringOk (pathCells p s) (s.home.paths.get p) := Iff.rfl

theorem hasCells_iff {s : State} : HasCells s ↔ ∀ p, cellsOk (s.home.paths.get p) := Iff.rfl

theorem pathCells_congr {s t : State} (h : t.aps.map = s.aps.map) (p : Fin 2) : pathCells p t = pathCells p s := by
  simp only [pathCells, apSize, ap_of_map h]

/-- The counters and lists of a path that looks the same but for its other fields. -/
theorem ringOk_congr {n : Nat} {P Q : HomePath} (hst : Q.state = .off → P.state = .off) (hpl : Q.placed = P.placed)
    (hpu : Q.published = P.published) (hco : Q.consumed = P.consumed) (hun : Q.units = P.units) (h : ringOk n P) :
    ringOk n Q := by
  unfold ringOk at h ⊢
  rw [hpl, hpu, hco, hun]
  obtain ⟨h1, h2, h3, h4, h5⟩ := h
  exact ⟨h1, h2, h3, fun hoff => h4 (hst hoff), h5⟩

/-- An empty ring. -/
theorem ringOk_empty {n : Nat} {P : HomePath} (hpl : P.placed = 0) (hpu : P.published = 0) (hco : P.consumed = 0)
    (hun : P.units = []) : ringOk n P := by
  simp [ringOk, hpl, hpu, hco, hun]

/-- An OFF path's ring is as good with any other number of cells. -/
theorem ringOk_off {n m : Nat} {P : HomePath} (hoff : P.state = .off) (h : ringOk n P) : ringOk m P := by
  obtain ⟨h1, h2, -, h4, h5⟩ := h
  obtain ⟨hpl, -, -⟩ := h4 hoff
  exact ⟨h1, h2, by omega, h4, h5⟩

/-- With no cell in use the unit list is empty (R95). -/
theorem units_nil_of_unused {n : Nat} {P : HomePath} (h : ringOk n P) (hc : cellsOk P) (hused : P.placed ≤ P.consumed) :
    P.units = [] := by
  obtain ⟨-, -, -, -, hin, -⟩ := h
  obtain ⟨hpos, -⟩ := hc
  refine List.eq_nil_iff_forall_not_mem.2 fun e he => ?_
  have h1 := hin e he
  have h2 := hpos e he
  omega

theorem cellsOk_afterUnit {c : Nat} (pad : Nat) (passed arm : Bool) {P : HomePath} (hc : 0 < c)
    (hP : cellsOk P) : cellsOk { P.afterUnit c pad passed with arm := arm } := by
  obtain ⟨hunits, htags, hheld⟩ := hP
  refine ⟨fun e he => ?_, htags, hheld⟩
  have he : e ∈ (P.units ++ (if pad = 0 ∨ passed = true then [] else [⟨P.placed, pad, none⟩]))
      ++ [⟨P.placed + pad, c, some P.nextSeq⟩] := he
  rw [List.mem_append, List.mem_append] at he
  rcases he with (he | he) | he
  · exact hunits e he
  · split at he
    · simp at he
    · rw [List.mem_singleton] at he
      subst he
      show 0 < pad
      omega
  · rw [List.mem_singleton] at he
    subst he
    exact hc

/-- A placement keeps the ring in order (R101): pad and unit go to the end of the list, and a pad that is passed over
leaves the list empty before the unit. -/
theorem ringOk_afterUnit {n c pad : Nat} {passed arm : Bool} {P : HomePath} (h : FitsAt n P c pad passed)
    (hst : P.state ≠ .off) (hP : ringOk n P) (hcells : cellsOk P) :
    ringOk n { P.afterUnit c pad passed with arm := arm } := by
  have hnil := units_nil_of_unused hP hcells
  obtain ⟨h1, h2, h3, -, hin, hpw⟩ := hP
  rcases h with ⟨rfl, rfl, -, hfit⟩ | ⟨hpad, rfl, hlt, hused, hfit⟩ | ⟨hpad, rfl, hlt, hused, hfit⟩
  · refine ⟨h1, ?_, ?_, fun hoff => absurd hoff hst, ?_, ?_⟩ <;>
      simp only [HomePath.afterUnit, HomePath.afterPad, true_or, if_true, List.append_nil, Nat.add_zero,
        Bool.false_eq_true, if_false]
    · omega
    · omega
    · intro e he
      rw [List.mem_append, List.mem_singleton] at he
      rcases he with he | rfl
      · have := hin e he
        omega
      · simp only
        omega
    · rw [List.pairwise_append]
      exact ⟨hpw, List.pairwise_singleton .., fun e he f hf => by
        rw [List.mem_singleton] at hf
        subst hf
        exact (hin e he).2⟩
  · have hpos : pad ≠ 0 := by
      have := Nat.mod_lt P.placed (y := n) (by omega)
      omega
    refine ⟨h1, ?_, ?_, fun hoff => absurd hoff hst, ?_, ?_⟩ <;>
      simp only [HomePath.afterUnit, HomePath.afterPad, hpos, Bool.false_eq_true, or_self, if_false]
    · omega
    · omega
    · intro e he
      simp only [List.mem_append, List.mem_singleton] at he
      rcases he with (he | rfl) | rfl
      · have := hin e he
        omega
      · simp only
        omega
      · simp only
        omega
    · rw [List.append_assoc, List.pairwise_append]
      refine ⟨hpw, by simp, fun e he f hf => ?_⟩
      have := (hin e he).2
      simp only [List.mem_append, List.mem_singleton] at hf
      rcases hf with rfl | rfl <;> simp only <;> omega
  · refine ⟨?_, ?_, ?_, fun hoff => absurd hoff hst, ?_, ?_⟩ <;>
      simp only [HomePath.afterUnit, HomePath.afterPad, hnil hused, or_true, if_true, List.nil_append, List.append_nil]
    · omega
    · omega
    · omega
    · intro e he
      rw [List.mem_singleton] at he
      subst he
      simp only
      omega
    · exact List.pairwise_singleton ..

/-! ## What keeps the rings in order -/

/-- From `s` to `t` the rings stay in order: every entry, tag and held offer has a cell if it had one before, and R96
then holds after if it held before. -/
def RingsKept (s t : State) : Prop := HasCells s → HasCells t ∧ (PathsOk s → PathsOk t)

theorem RingsKept.refl (s : State) : RingsKept s s := fun h => ⟨h, id⟩

theorem RingsKept.trans {s t u : State} (h : RingsKept s t) (h' : RingsKept t u) : RingsKept s u := by
  intro hs
  obtain ⟨ht, hpt⟩ := h hs
  obtain ⟨hu, hpu⟩ := h' ht
  exact ⟨hu, fun hp => hpu (hpt hp)⟩

/-- The publishing header writes of `t`'s holds are among those of `s`'s. -/
theorem publishOk_of_subset {s t : State}
    (hsub : ∀ b, ∀ e ∈ t.ins.holds.get b, e.publishes = true → e ∈ s.ins.holds.get b)
    (hplaced : ∀ p, (s.home.paths.get p).placed ≤ (t.home.paths.get p).placed) (h : publishOk s) : publishOk t := by
  intro b e he p v hv
  obtain ⟨hb, hle⟩ := h b e (hsub b e he (by rw [InsEntry.publishes, hv])) p v hv
  exact ⟨hb, hle.trans (hplaced p)⟩

/-- Where no path changes and no header write that publishes is made. -/
theorem pathsOk_of_home {s t : State} (hhome : t.home = s.home) (hmap : t.aps.map = s.aps.map)
    (hsub : ∀ b, ∀ e ∈ t.ins.holds.get b, e.publishes = true → e ∈ s.ins.holds.get b) (h : PathsOk s) : PathsOk t := by
  obtain ⟨hp, hpub⟩ := h
  refine ⟨fun p => ?_, publishOk_of_subset hsub (fun p => by rw [hhome]) hpub⟩
  rw [pathOk_iff, hhome, pathCells_congr hmap]
  exact hp p

theorem ringsKept_of_home {s t : State} (hhome : t.home = s.home) (hmap : t.aps.map = s.aps.map)
    (hsub : ∀ b, ∀ e ∈ t.ins.holds.get b, e.publishes = true → e ∈ s.ins.holds.get b) : RingsKept s t :=
  fun hs => ⟨by rwa [HasCells, hhome], pathsOk_of_home hhome hmap hsub⟩

theorem SameRings.publishing {s t : State} (h : SameRings s t) (b : Fin 6) :
    ∀ e ∈ t.ins.holds.get b, e.publishes = true → e ∈ s.ins.holds.get b := by
  obtain ⟨-, -, -, hpub⟩ := h
  intro e he hpe
  have hmem : e ∈ (t.ins.holds.get b).filter InsEntry.publishes := List.mem_filter.2 ⟨he, hpe⟩
  rw [hpub b] at hmem
  exact (List.mem_filter.1 hmem).1

theorem SameRings.pathsOk {s t : State} (h : SameRings s t) (hs : PathsOk s) : PathsOk t :=
  pathsOk_of_home h.1 h.2.1 h.publishing hs

theorem SameRings.ringsKept {s t : State} (h : SameRings s t) : RingsKept s t :=
  ringsKept_of_home h.1 h.2.1 h.publishing

variable {s : State}

/-- A change of one path that keeps its own ring in order, and does not take placed back. -/
theorem ringsKept_modPath (p : Fin 2) {f : HomePath → HomePath}
    (hcells : cellsOk (s.home.paths.get p) → cellsOk (f (s.home.paths.get p)))
    (hring : ∀ n, cellsOk (s.home.paths.get p) → ringOk n (s.home.paths.get p) →
      ringOk n (f (s.home.paths.get p)) ∧ (s.home.paths.get p).placed ≤ (f (s.home.paths.get p)).placed) :
    RingsKept s (s.modPath p f) := by
  intro hs
  refine ⟨fun q => ?_, fun ⟨hp, hpub⟩ => ⟨fun q => ?_, ?_⟩⟩
  · show cellsOk ((s.home.paths.modify p f).get q)
    rw [Table.get_modify]
    split
    next h => subst h; exact hcells (hs p)
    next => exact hs q
  · show ringOk (pathCells q s) ((s.home.paths.modify p f).get q)
    rw [Table.get_modify]
    split
    next h => subst h; exact (hring _ (hs p) (hp p)).1
    next => exact hp q
  · refine publishOk_of_subset (s := s) (fun _ _ he _ => he) (fun q => ?_) hpub
    show _ ≤ ((s.home.paths.modify p f).get q).placed
    rw [Table.get_modify]
    split
    next h => subst h; exact (hring _ (hs p) (hp p)).2
    next => exact le_refl _

/-- `Q` is `P` but for fields that R96 does not look at; tags and a held offer may have gone, and it is OFF only if `P`
is. -/
def SameCounters (P Q : HomePath) : Prop :=
  (Q.state = .off → P.state = .off) ∧ Q.placed = P.placed ∧ Q.published = P.published ∧ Q.consumed = P.consumed
    ∧ Q.units = P.units ∧ (∀ u ∈ Q.tags, u ∈ P.tags) ∧ ∀ u, Q.heldOffer = some u → P.heldOffer = some u

theorem ringsKept_settings {p : Fin 2} {f : HomePath → HomePath}
    (h : SameCounters (s.home.paths.get p) (f (s.home.paths.get p))) : RingsKept s (s.modPath p f) := by
  obtain ⟨hst, hpl, hpu, hco, hun, htags, hheld⟩ := h
  refine ringsKept_modPath p (fun ⟨h1, h2, h3⟩ => ⟨?_, fun u hu => h2 u (htags u hu), fun u hu => h3 u (hheld u hu)⟩)
    fun n _ hP => ⟨ringOk_congr hst hpl hpu hco hun hP, hpl.ge⟩
  rw [hun]
  exact h1

/-- Entries that publish nothing, in any hold. -/
theorem ringsKept_pushAll (b : Fin 6) {es : List InsEntry} (hes : ∀ e ∈ es, e.publishes = false) :
    RingsKept s (pushAll b es s) := by
  refine ringsKept_of_home rfl rfl fun b' e he hpe => ?_
  rw [pushAll_holds] at he
  split at he
  · rcases List.mem_append.1 he with he | he
    · exact he
    · rw [hes e he] at hpe
      cases hpe
  · exact he

theorem dropHold_holds (b b' : Fin 6) (s : State) :
    (dropHold b s).ins.holds.get b' = if b = b' then [] else s.ins.holds.get b' := by
  simp only [dropHold, State.modIns_ins, Table.get_set]

theorem ringsKept_dropHold (b : Fin 6) : RingsKept s (dropHold b s) := by
  refine ringsKept_of_home rfl rfl fun b' e he _ => ?_
  rw [dropHold_holds] at he
  split at he
  · cases he
  · exact he

theorem ringsKept_leaveRange (f : Fn) : RingsKept s (leaveRange f s) := by
  refine ringsKept_of_home (by simp) (by simp) fun b e he _ => ?_
  rw [leaveRange_holds] at he
  split at he
  · split at he
    · exact (List.mem_filter.1 he).1
    · exact he
  · exact he

/-- A change of the map (R5): a path whose ring moves is OFF, and its ring empty. -/
theorem ringsKept_setEntry {f : Fn} (e : Option Aperture) (h : ∀ p, f = .path p → (s.home.paths.get p).state = .off) :
    RingsKept s (setEntry f e s) := by
  refine fun hs => ⟨hs, fun ⟨hp, hpub⟩ => ⟨fun p => ?_, hpub⟩⟩
  by_cases hf : f = .path p
  · exact ringOk_off (h p hf) (hp p)
  · have hcells : pathCells p (setEntry f e s) = pathCells p s := by
      simp only [pathCells, apSize, ap_setEntry, if_neg hf]
    rw [pathOk_iff, hcells]
    exact hp p

/-! ## Placements (R101) -/

/-- The only publishing entry of a placement is its header write, which carries the new placed count. -/
theorem publish_of_mem_placedEntries {p q : Fin 2} {u : MUnit} {shed pad v : Nat} {e : InsEntry}
    (he : e ∈ placedEntries p u shed pad s) (hv : e.eff = .publish q v) :
    q = p ∧ v = (s.home.paths.get p).placed + pad + u.cells := by
  simp only [placedEntries, List.mem_append, List.mem_map, List.mem_singleton] at he
  rcases he with (he | ⟨i, -, rfl⟩) | rfl
  · split at he
    · cases he
    · rw [List.mem_singleton] at he
      subst he
      cases hv
  · cases hv
  · cases hv
    exact ⟨rfl, rfl⟩

/-- The paths after a placement, the arm as given. -/
theorem unitPlaced_path (p q : Fin 2) (u : MUnit) (shed pad : Nat) (passed arm : Bool) :
    (((unitPlaced p u shed pad passed s).modPath p fun P => { P with arm := arm }).home.paths.get q)
      = if p = q then { (s.home.paths.get q).afterUnit u.cells pad passed with arm := arm }
        else s.home.paths.get q := by
  simp only [unitPlaced, State.modPath_home, pushAll_frame, Table.modify_modify, Table.get_modify, Function.comp_def]

/-- A placement on a path that is not OFF keeps R96, whatever the unit's length. -/
theorem place_pathsOk {p : Fin 2} {u : MUnit} (hst : (s.home.paths.get p).state ≠ .off) (hfit : fits p u s = true)
    (shed : Nat) (hs : HasCells s) (h : PathsOk s) : PathsOk (place p u shed s) := by
  obtain ⟨pad, passed, hat⟩ := (fits_iff p u s).1 hfit
  obtain ⟨arm, hrings⟩ := place_rings hat shed
  obtain ⟨hp, hpub⟩ := h
  refine hrings.pathsOk ⟨fun q => ?_, fun b e he q v hv => ?_⟩
  · rw [pathOk_iff, unitPlaced_path]
    split
    next hq =>
      subst hq
      exact ringOk_afterUnit hat hst (hp p) (hs p)
    next => exact hp q
  · have hold (h : e ∈ s.ins.holds.get b) : b = byPath q ∧ v ≤ (((unitPlaced p u shed pad passed s).modPath p fun P =>
        { P with arm := arm }).home.paths.get q).placed := by
      obtain ⟨hb, hle⟩ := hpub b e h q v hv
      rw [unitPlaced_path]
      refine ⟨hb, hle.trans ?_⟩
      split
      next hq =>
        subst hq
        obtain ⟨-, -, -, -, hgrow, -⟩ := samePath_afterUnit hat arm
        exact hgrow
      next => exact le_refl _
    have he : e ∈ (pushAll (byPath p) (placedEntries p u shed pad s) s).ins.holds.get b := he
    rw [pushAll_holds] at he
    split at he
    next hb =>
      rcases List.mem_append.1 he with he | he
      · exact hold he
      · obtain ⟨rfl, rfl⟩ := publish_of_mem_placedEntries he hv
        rw [unitPlaced_path, if_pos rfl]
        exact ⟨hb.symm, le_refl _⟩
    next => exact hold he

theorem ringsKept_place {p : Fin 2} {u : MUnit} (hst : (s.home.paths.get p).state ≠ .off) (hfit : fits p u s = true)
    (hu : 0 < u.cells) (shed : Nat) : RingsKept s (place p u shed s) := by
  refine fun hs => ⟨fun q => ?_, place_pathsOk hst hfit shed hs⟩
  obtain ⟨pad, passed, arm, -, hhome⟩ := place_home hfit shed
  rw [hhome]
  show cellsOk ((s.home.paths.modify p _).get q)
  rw [Table.get_modify]
  split
  · exact cellsOk_afterUnit pad passed arm hu (hs q)
  · exact hs q

/-- The blocks' work keeps the rings in order. -/
theorem Works.ringsKept {o : Prop} {t : State} (h : Works o s t) : RingsKept s t := by
  induction h with
  | same hs => exact hs.ringsKept
  | andSame _ hs ih => exact ih.trans hs.ringsKept
  | placed p u shed _ _ hst hfit hu ih => exact ih.trans (ringsKept_place hst hfit hu shed)
  | kept p us f _ _ hus hf ih =>
    refine ih.trans (ringsKept_modPath p (fun ⟨h1, h2, h3⟩ => ?_) fun n _ hP => ?_)
    · obtain ⟨n, r, he⟩ := hf (_ : HomePath)
      rw [he]
      refine ⟨h1, fun u hu => ?_, h3⟩
      rcases List.mem_append.1 hu with hu | hu
      · exact h2 u hu
      · exact hus u hu
    · obtain ⟨m, r, he⟩ := hf (_ : HomePath)
      rw [he]
      exact ⟨ringOk_congr id rfl rfl rfl rfl hP, le_refl _⟩

theorem RingsKept.works {s₀ t : State} (h : RingsKept s₀ s) (hw : Works True s t) : RingsKept s₀ t :=
  h.trans hw.ringsKept

/-! ## The paths' own work (R98 to R100, R105 to R109, R115) -/

theorem ringsKept_ringHeaderWrite (p : Fin 2) (v : Nat) : RingsKept s (ringHeaderWrite p v .nothing s) :=
  ringsKept_pushAll (byPath p) (by simp [InsEntry.publishes])

theorem ringsKept_stallTick (p : Fin 2) : RingsKept s (stallTick p s) := by
  simp only [stallTick]
  split
  · exact .refl s
  · split
    · exact ringsKept_settings (by simp [SameCounters])
    · split
      · exact ringsKept_settings (by simp [SameCounters])
      · have hset : RingsKept s (s.modPath p fun P =>
            { P with state := .stalled, stall := P.stall + 1, stallAt := P.stall + 1 }) :=
          ringsKept_settings (by simp [SameCounters])
        refine hset.works ?_
        split <;> simp

/-- A path's ring emptied with its hold: nothing of it remains (R99, R115). -/
theorem ringsKept_emptied (p : Fin 2) {f : HomePath → HomePath}
    (hf : ∀ P, (f P).placed = 0 ∧ (f P).published = 0 ∧ (f P).consumed = 0 ∧ (f P).units = [] ∧ (f P).tags = []
      ∧ (f P).heldOffer = none) : RingsKept s ((dropHold (byPath p) s).modPath p f) := by
  intro hs
  refine ⟨fun q => ?_, fun ⟨hp, hpub⟩ => ⟨fun q => ?_, fun b e he q v hv => ?_⟩⟩
  · show cellsOk ((s.home.paths.modify p f).get q)
    rw [Table.get_modify]
    split
    · obtain ⟨-, -, -, hun, htags, hheld⟩ := hf (s.home.paths.get q)
      simp [cellsOk, hun, htags, hheld]
    · exact hs q
  · show ringOk (pathCells q s) ((s.home.paths.modify p f).get q)
    rw [Table.get_modify]
    split
    · obtain ⟨hpl, hpu, hco, hun, -⟩ := hf (s.home.paths.get q)
      exact ringOk_empty hpl hpu hco hun
    · exact hp q
  · have he : e ∈ (dropHold (byPath p) s).ins.holds.get b := he
    rw [dropHold_holds] at he
    split at he
    next => cases he
    next hb =>
      obtain ⟨rfl, hle⟩ := hpub b e he q v hv
      have hq : p ≠ q := fun h => hb (by rw [h])
      refine ⟨rfl, ?_⟩
      show v ≤ ((s.home.paths.modify p f).get q).placed
      rwa [Table.get_modify_ne _ _ hq]

theorem ringsKept_letGo : RingsKept s (letGo s) := by
  have hdrop (t : State) (ht : RingsKept s t) : RingsKept s ((dropHold byTransfer t).modXfer fun x =>
      { x with buffer := [], issued := false, paused := false, tag := x.tag + 1 }) :=
    (ht.trans (ringsKept_dropHold byTransfer)).works (by simp)
  refine hdrop _ ?_
  split
  · exact .refl s
  · split
    · exact ringsKept_settings (by simp [SameCounters])
    · exact .refl s

theorem ringsKept_endEntries (r : EndReason) (l : Bool) (w : Send → Bool) : RingsKept s (endEntries r l w s) := by
  cases hq : s.xfer.queue with
  | nil =>
    simp only [endEntries, hq]
    exact .refl s
  | cons e rest =>
    simp only [endEntries, hq]
    by_cases hw : w e = true
    · simp only [hw, if_true]
      exact ringsKept_letGo.works (by simp)
    · simp only [hw, Bool.false_eq_true, if_false]
      exact (RingsKept.refl s).works (by simp)

/-- Whether a unit fits is read from the path's counters (R101). -/
theorem fits_modPath (p : Fin 2) (u : MUnit) {f : HomePath → HomePath}
    (hpl : (f (s.home.paths.get p)).placed = (s.home.paths.get p).placed)
    (hco : (f (s.home.paths.get p)).consumed = (s.home.paths.get p).consumed) :
    fits p u (s.modPath p f) = fits p u s := by
  rw [Bool.eq_iff_iff, fits_iff, fits_iff, State.modPath_home, Table.get_modify_self]
  unfold FitsAt
  rw [hpl, hco]
  rfl

/-- The held offer placed: it had a cell, and the path is RUNNING (R105). -/
theorem replayAnswer_eq_placed {p : Fin 2} {u : MUnit} (h : replayAnswer p u s = .placed) :
    (s.home.paths.get p).state = .running ∧ fits p u s = true := by
  simp only [replayAnswer] at h
  split at h
  · cases h
  · split at h
    next hc => exact ⟨hc.1, hc.2.2⟩
    next => cases h

theorem ringsKept_reexamine (p : Fin 2) : RingsKept s (reexamine p s) := by
  simp only [reexamine]
  split
  · exact .refl s
  next u hu =>
    split
    next hans =>
      obtain ⟨hst, hfit⟩ := replayAnswer_eq_placed hans
      have hset : RingsKept s (s.modPath p fun P => { P with heldOffer := none }) :=
        ringsKept_settings (by simp [SameCounters])
      intro hs
      have hpos : 0 < u.cells := (hs p).2.2 u hu
      refine ((hset.trans (ringsKept_place (p := p) ?_ ?_ hpos 0)).works (by simp)) hs
      · simp [hst]
      · rwa [fits_modPath p u rfl rfl]
    all_goals exact .refl s

theorem place_state (p q : Fin 2) {u : MUnit} (hfit : fits p u s = true) (shed : Nat) :
    ((place p u shed s).home.paths.get q).state = (s.home.paths.get q).state := by
  obtain ⟨pad, passed, arm, -, hhome⟩ := place_home hfit shed
  rw [hhome]
  show ((s.home.paths.modify p _).get q).state = _
  rw [Table.get_modify]
  split <;> rfl

/-- Pending tags tried again on a path that is not OFF (R109). -/
theorem ringsKept_tryTags (p : Fin 2) (us : List MUnit) (hst : (s.home.paths.get p).state ≠ .off)
    (hus : ∀ u ∈ us, 0 < u.cells) : RingsKept s (tryTags p us s) := by
  induction us generalizing s with
  | nil => exact .refl s
  | cons u us ih =>
    simp only [tryTags]
    split
    next hfit =>
      obtain ⟨hu, hus⟩ := List.forall_mem_cons.1 hus
      have hfit' : fits p u (s.modPath p fun P => { P with tags := us }) = true := by rwa [fits_modPath p u rfl rfl]
      have hset : RingsKept s (s.modPath p fun P => { P with tags := us }) :=
        ringsKept_modPath p (fun ⟨h1, _, h3⟩ => ⟨h1, hus, h3⟩) fun n _ hP =>
          ⟨ringOk_congr id rfl rfl rfl rfl hP, le_refl _⟩
      refine (hset.trans (ringsKept_place (p := p) (by simpa using hst) hfit' hu 0)).trans (ih ?_ hus)
      rw [place_state p p hfit' 0]
      simpa using hst
    next => exact .refl s

@[simp] theorem raiseResume_works {o : Prop} {s₀ : State} (p : Fin 2) (r : Nat) :
    Works o s₀ (raiseResume p r s) ↔ Works o s₀ s := by
  simp only [raiseResume]
  (repeat' split) <;> simp

/-! ## Consumption (R106, R107, R109) -/

/-- A path that has consumed, before its tags are tried: RUNNING, the stall timer 0, the arm by the re-arm test. -/
def HomePath.resumed (P : HomePath) : HomePath :=
  { P with stall := 0, state := .running, arm := if P.inUse ≤ P.low then true else P.arm }

/-- The state after a consumption and before the tags are tried, with what a STALLED path raises (R109). -/
def pathResumed (p : Fin 2) (s : State) : State :=
  if (s.home.paths.get p).state = .stalled then raiseResume p 0 (s.modPath p HomePath.resumed)
  else s.modPath p HomePath.resumed

theorem raise_modPath (k : NoticeKind) (j : Nat) (d : List Item) (p : Fin 2) (f : HomePath → HomePath) :
    raise k j d (s.modPath p f) = (raise k j d s).modPath p f := by
  have hap : ap .notices (s.modPath p f) = ap .notices s := rfl
  have htc : timecode (s.modPath p f) = timecode s := rfl
  simp only [raise, raiseAt, hap, htc]
  split
  · rfl
  · rw [apply_ite (State.modPath p f)]
    rfl

theorem routeBits_modPath (p : Fin 2) {f : HomePath → HomePath}
    (hf : (f (s.home.paths.get p)).state = (s.home.paths.get p).state) : routeBits (s.modPath p f) = routeBits s := by
  have hstate (q : Fin 2) : ((s.modPath p f).home.paths.get q).state = (s.home.paths.get q).state := by
    show ((s.home.paths.modify p f).get q).state = _
    rw [Table.get_modify]
    split
    next h => subst h; exact hf
    next => rfl
  simp only [routeBits, effectiveRoute, hstate]
  rfl

/-- RESUME and RESTORE look at the path's in-use, its last stall and the paths' states alone. -/
theorem raiseResume_modPath (p : Fin 2) (r : Nat) {f : HomePath → HomePath}
    (hst : (f (s.home.paths.get p)).state = (s.home.paths.get p).state)
    (huse : (f (s.home.paths.get p)).inUse = (s.home.paths.get p).inUse)
    (hat : (f (s.home.paths.get p)).stallAt = (s.home.paths.get p).stallAt) :
    raiseResume p r (s.modPath p f) = (raiseResume p r s).modPath p f := by
  have hroute (d : List Item) :
      routeBits ((raise .resume p.val d s).modPath p f) = routeBits (raise .resume p.val d s) :=
    routeBits_modPath p (by simpa using hst)
  have hpath : ((s.modPath p f).home.paths.get p) = f (s.home.paths.get p) := by simp
  simp only [raiseResume, hpath, huse, hat, raise_modPath, hroute]
  rw [apply_ite (State.modPath p f)]
  rfl

theorem modPath_modPath (p : Fin 2) (f g : HomePath → HomePath) :
    (s.modPath p f).modPath p g = s.modPath p (g ∘ f) := by
  simp only [State.modPath, Table.modify_modify]

theorem modPath_congr {p : Fin 2} {f g : HomePath → HomePath} (h : f (s.home.paths.get p) = g (s.home.paths.get p)) :
    s.modPath p f = s.modPath p g := by
  simp only [State.modPath, Table.modify, h]

/-- The re-arm test comes out the same before the notices as behind them (R106, R109). -/
theorem pathResumed_eq {p : Fin 2} (h : (s.home.paths.get p).state ≠ .off) : pathResumed p s =
    (if ((s.modPath p fun P => { P with stall := 0 }).home.paths.get p).state = .stalled then
      raiseResume p 0 ((s.modPath p fun P => { P with stall := 0 }).modPath p fun P => { P with state := .running })
    else s.modPath p fun P => { P with stall := 0 }).modPath p rearm := by
  have hrearm (P : HomePath) : rearm P = { P with arm := if P.inUse ≤ P.low then true else P.arm } := by
    unfold rearm
    split <;> rfl
  have hstate : ((s.modPath p fun P => { P with stall := 0 }).home.paths.get p).state = (s.home.paths.get p).state := by
    simp
  rw [pathResumed, hstate]
  split
  · rw [← raiseResume_modPath p 0 (by simp [hrearm]) (by simp [hrearm, HomePath.inUse]) (by simp [hrearm]),
      modPath_modPath, modPath_modPath]
    congr 1
    refine modPath_congr ?_
    simp only [Function.comp_apply, hrearm]
    rfl
  next hrun =>
    rw [modPath_modPath]
    refine modPath_congr ?_
    have hrun : (s.home.paths.get p).state = .running := by
      cases hs : (s.home.paths.get p).state <;> simp_all
    simp only [Function.comp_apply, hrearm, HomePath.resumed, ← hrun]
    rfl

theorem afterConsumption_eq {p : Fin 2} (h : (s.home.paths.get p).state ≠ .off) :
    afterConsumption p s = reexamine p (tryTags p (s.home.paths.get p).tags (pathResumed p s)) := by
  have htags : ((pathResumed p s).home.paths.get p).tags = (s.home.paths.get p).tags := by
    unfold pathResumed
    split <;> simp [HomePath.resumed]
  rw [← htags, pathResumed_eq h]
  rfl

theorem pathResumed_state (p : Fin 2) (s : State) : ((pathResumed p s).home.paths.get p).state = .running := by
  unfold pathResumed
  split <;> simp [HomePath.resumed]

theorem ringsKept_pathResumed (p : Fin 2) : RingsKept s (pathResumed p s) := by
  have hset : RingsKept s (s.modPath p HomePath.resumed) :=
    ringsKept_settings (by simp [SameCounters, HomePath.resumed])
  unfold pathResumed
  split
  · exact hset.works (by simp)
  · exact hset

theorem RingsKept.of_hasCells {s t : State} (h : HasCells s → RingsKept s t) : RingsKept s t := fun hs => h hs hs

/-- What a consumption goes on to keeps the rings in order (R106, R109). -/
theorem ringsKept_afterConsumption {p : Fin 2} (hst : (s.home.paths.get p).state ≠ .off) :
    RingsKept s (afterConsumption p s) := by
  refine .of_hasCells fun hs => ?_
  obtain ⟨-, htags, -⟩ := hs p
  rw [afterConsumption_eq hst]
  refine ((ringsKept_pathResumed p).trans (ringsKept_tryTags p _ ?_ htags)).trans (ringsKept_reexamine p)
  rw [pathResumed_state]
  decide

theorem consumedBy_some {n : Nat} {P : HomePath} {cells : List Nat} {e : RingEntry} {rest : List RingEntry}
    (h : consumedBy n P cells = some (e, rest)) :
    ∃ pre, P.units = pre ++ e :: rest ∧ e.start + e.cells ≤ P.published := by
  obtain ⟨pre, hunits, he, -⟩ := splitLast_some h
  simp only [Bool.and_eq_true, decide_eq_true_eq] at he
  exact ⟨pre, hunits, he.1⟩

/-- The entries behind a consumed one stay in order (R107). -/
theorem ringOk_consumed {n : Nat} {P : HomePath} {pre rest : List RingEntry} {e : RingEntry}
    (hunits : P.units = pre ++ e :: rest) (hpub : e.start + e.cells ≤ P.published) (hst : P.state ≠ .off)
    (h : ringOk n P) :
    ringOk n { P with units := rest, consumed := e.start + e.cells } := by
  obtain ⟨h1, h2, h3, -, hin, hpw⟩ := h
  rw [hunits] at hin hpw
  have he := hin e (by simp)
  obtain ⟨-, hpw, -⟩ := List.pairwise_append.1 hpw
  obtain ⟨hbehind, hpw⟩ := List.pairwise_cons.1 hpw
  refine ⟨hpub, h2, ?_, fun hoff => absurd hoff hst, fun x hx => ⟨hbehind x hx, ?_⟩, hpw⟩
  · simp only
    omega
  · exact (hin x (by simp [hx])).2

/-- The consumption of a served read keeps the rings in order (R107). -/
theorem ringsKept_handConsumerRead (p : Fin 2) (o n : Nat) : RingsKept s (handConsumerRead p o n s) := by
  by_cases hoff : (s.home.paths.get p).state = .off
  · rw [handConsumerRead_off hoff]
    exact .refl s
  have hearly : ∃ w, countEarly p o n s = s.modPath p fun P => { P with early := w } := by
    unfold countEarly
    split
    · exact ⟨_, modPath_congr rfl⟩
    · refine ⟨(s.home.paths.get p).early, ?_⟩
      rw [State.modPath, Table.modify_id _ _ rfl]
  obtain ⟨w, hearly⟩ := hearly
  rw [handConsumerRead_on hoff, hearly]
  have hset : RingsKept s (s.modPath p fun P => { P with early := w }) :=
    ringsKept_settings (by simp [SameCounters])
  cases hc : consumedBy (pathCells p s) (s.home.paths.get p) (touchedCells o n) with
  | none => exact hset
  | some x =>
    obtain ⟨e, rest⟩ := x
    obtain ⟨pre, hunits, hpub⟩ := consumedBy_some hc
    have hbehind : RingsKept s (s.modPath p ((fun P => { P with units := rest, consumed := e.start + e.cells })
        ∘ fun P => { P with early := w })) := by
      refine ringsKept_modPath p (fun ⟨h1, h2, h3⟩ => ⟨fun x hx => h1 x ?_, h2, h3⟩) fun n _ hring => ⟨?_, le_refl _⟩
      · rw [hunits]
        exact List.mem_append_right _ (List.mem_cons_of_mem _ hx)
      · exact ringOk_congr id rfl rfl rfl rfl (ringOk_consumed hunits hpub hoff hring)
    rw [consumeUnits, modPath_modPath]
    exact hbehind.trans (ringsKept_afterConsumption (by simpa using hoff))

/-! ## Joining the insert queue (R12, R101) -/

/-- Published rises to the value of a header write that joins, which is not beyond placed. -/
theorem ringsKept_joinFrom (b : Fin 6) : RingsKept s (joinFrom b s) := by
  unfold joinFrom
  split
  · exact .refl s
  next e rest hold =>
    have hshift : RingsKept s (s.modIns fun q =>
        { queue := q.queue ++ [⟨e.op, s.port.nextPiece⟩], holds := s.ins.holds.set b rest
          turn := turnAfter b (s.ins.holds.set b rest) }) := by
      refine ringsKept_of_home rfl rfl fun b' x hx _ => ?_
      rw [State.modIns_ins, Table.get_set] at hx
      split at hx
      next h =>
        subst h
        rw [hold]
        exact List.mem_cons_of_mem _ hx
      next => exact hx
    cases he : e.eff with
    | nothing => exact hshift
    | readable q => exact hshift.works (by simp [joinEffect])
    | publish p v =>
      intro hs
      obtain ⟨hcells, hpaths⟩ := hshift hs
      refine ⟨fun q => ?_, fun hok => ?_⟩
      · show cellsOk ((s.home.paths.modify p _).get q)
        rw [Table.get_modify]
        split <;> exact hs q
      · obtain ⟨-, hpub⟩ := id hok
        obtain ⟨-, hv⟩ := hpub b e (by rw [hold]; exact List.mem_cons_self) p v he
        refine (ringsKept_modPath p (f := fun P => { P with published := max P.published v }) id ?_ hcells).2
          (hpaths hok)
        rintro n - ⟨h1, h2, h3, h4, h5⟩
        refine ⟨⟨by simp only; omega, by simpa using ⟨h2, hv⟩, h3, fun hoff => ?_, h5⟩, le_refl _⟩
        obtain ⟨hpl, hpu, hco⟩ := h4 hoff
        have hv : v ≤ 0 := hpl ▸ hv
        exact ⟨hpl, by simp only [State.modIns_home] at hpu ⊢; omega, hco⟩

theorem ringsKept_joinOne : RingsKept s (joinOne s) := by
  unfold joinOne
  split
  · split
    · exact .refl s
    · exact ringsKept_joinFrom _
  · exact .refl s

/-! ## Commands -/

theorem ringsKept_writePath (p : Fin 2) (e : Bool) (x : PathSettings) : RingsKept s (writePath p e x s) := by
  have hset : RingsKept s (s.modPath p (HomePath.write x)) :=
    ringsKept_settings (by simp [SameCounters, HomePath.write])
  unfold writePath
  split
  next hoff =>
    split
    · refine RingsKept.trans (ringsKept_modPath p (fun _ => ?_) fun n _ ⟨_, _, _, hzero, _⟩ => ?_)
        (ringsKept_ringHeaderWrite p 0)
      · simp [cellsOk, HomePath.newLife, HomePath.emptied]
      · exact ⟨ringOk_empty rfl rfl rfl rfl, (hzero hoff).1.le⟩
    · exact hset
  next =>
    split
    · exact hset.trans (ringsKept_reexamine p)
    · have hempty : RingsKept s ((dropHold (byPath p) s).modPath p fun P => { P.emptied with state := .off }) :=
        ringsKept_emptied p fun P => ⟨rfl, rfl, rfl, rfl, rfl, rfl⟩
      exact (hempty.trans (ringsKept_endEntries _ _ _)).trans (ringsKept_ringHeaderWrite p 0)

theorem ringsKept_setPath (c : Command) : RingsKept s (setPath c s).1 := by
  simp only [setPath, refuse]
  split
  · exact .refl s
  · exact .refl s
  · exact .refl s
  · split
    · exact .refl s
    · exact ringsKept_writePath _ _ _

theorem ringsKept_setRoute (c : Command) : RingsKept s (setRoute c s).1 := by
  simp only [setRoute, refuse]
  split
  · exact .refl s
  · exact fun hs => ⟨hs, id⟩

theorem ringsKept_setStore (c : Command) : RingsKept s (setStore c s).1 := by
  have hdis : RingsKept s (disableStore s) :=
    ((ringsKept_dropHold byStore).trans (ringsKept_endEntries .storeOff true fun _ => true)).works
      (by simp [disableStore])
  have hen : RingsKept s (enableStore s) := (RingsKept.refl s).works (by simp)
  simp only [setStore, refuse]
  (repeat' split) <;> simp [RingsKept.refl, hdis, hen]

theorem ringsKept_abortSend (c : Command) : RingsKept s (abortSend c s).1 := by
  have hactive (e : Send) : RingsKept s (abortActive e s) := ringsKept_letGo.works (by simp [abortActive])
  have hqueued (n : Nat) : RingsKept s (abortQueued n s) := (RingsKept.refl s).works (by simp)
  simp only [abortSend, refuse]
  (repeat' split) <;> simp [RingsKept.refl, hactive, hqueued]

theorem ringsKept_clearStore : RingsKept s (clearStore s) := by
  unfold clearStore
  split
  · exact .refl s
  · exact (ringsKept_dropHold byStore).works (by simp)

theorem ringsKept_clearPath (p : Fin 2) : RingsKept s (clearPath p s) := by
  have hlife : RingsKept s (ringHeaderWrite p 0 .nothing ((dropHold (byPath p) s).modPath p HomePath.newLife)) :=
    (ringsKept_emptied p fun P => ⟨rfl, rfl, rfl, rfl, rfl, rfl⟩).trans (ringsKept_ringHeaderWrite p 0)
  simp only [clearPath]
  split
  · exact .refl s
  · split
    · exact hlife.works (by simp)
    · exact hlife

theorem ringsKept_clearMedia (c : Command) : RingsKept s (clearMedia c s).1 := by
  have hpaths : RingsKept s (forEach (List.finRange 2) clearPath
      (clearStore (endEntries .cleared true (fun _ => true) s))) :=
    forEach_inv ((ringsKept_endEntries _ _ _).trans ringsKept_clearStore) fun p _ t ht =>
      ht.trans (ringsKept_clearPath p)
  exact hpaths.works (by simp [clearMedia])

theorem ringsKept_setNotices (c : Command) : RingsKept s (setNotices c s).1 := by
  have hw : Works True s (setNotices c s).1 := by
    simp only [setNotices, refuse]
    (repeat' split) <;> simp
  exact hw.ringsKept

/-- A path that is not running is OFF. -/
theorem off_of_not_running {f : Fn} (h : ¬f.running s = true) (p : Fin 2) (hf : f = .path p) :
    (s.home.paths.get p).state = .off := by
  subst hf
  simpa [Fn.running] using h

theorem ringsKept_setAperture (c : Command) : RingsKept s (setAperture c s).1 := by
  simp only [setAperture, refuse]
  split
  · exact .refl s
  next f _ =>
    simp only [setApertureOf, refuse]
    split
    · exact .refl s
    split
    · exact .refl s
    split
    · exact .refl s
    split
    · exact .refl s
    next hrun =>
      split
      · exact .refl s
      · have hset : RingsKept (leaveRange f s) (setEntry f (some ⟨c.field 8 8, c.field 16 8⟩) (leaveRange f s)) :=
          ringsKept_setEntry _ fun p hf => by simpa using off_of_not_running hrun p hf
        exact ((ringsKept_leaveRange f).trans hset).works (by simp)

theorem ringsKept_clearAperture (c : Command) : RingsKept s (clearAperture c s).1 := by
  simp only [clearAperture, refuse]
  split
  · exact .refl s
  next f _ =>
    split
    · exact .refl s
    next hrun =>
      split
      · exact .refl s
      · refine (ringsKept_setEntry none fun p hf => off_of_not_running hrun p hf).works ?_
        split <;> simp

/-! ## Resets and the start-up load (R14, R15, R172) -/

theorem ringsKept_endLoad (r : LoadResult) (n : Nat) (b : BitVec 12) : RingsKept s (endLoad r n b s) := by
  have hset : RingsKept s (setEntry .commands (some ⟨s.ctl.cmdBase, 4096⟩)
      (s.modCtl fun c => { c with loader := .ended, loadResult := r, loadErr := n })) :=
    ((RingsKept.refl s).works (by simp)).trans (ringsKept_setEntry _ nofun)
  refine hset.works ?_
  simp only [endLoad]
  rw [push_works (.inl rfl) (by simp), forEach_works fun p t => by simp [settleMarkPin]]
  exact .refl _

theorem ringsKept_loadEntry (i : Nat) (last : Option Nat) (e : Option (BitVec 64)) (b : BitVec 12) :
    RingsKept s (loadEntry i last e b s) := by
  have hnext (tag d : Nat) (f : Control → Control) : RingsKept s ((applyEntry tag d s).modCtl f) :=
    (RingsKept.refl s).works (by simp)
  cases e with
  | none =>
    simp only [loadEntry]
    split <;> exact ringsKept_endLoad _ _ _
  | some e =>
    simp only [loadEntry]
    split
    · exact ringsKept_endLoad _ _ _
    split
    · exact ringsKept_endLoad _ _ _
    split
    · exact ringsKept_endLoad _ _ _
    split
    · exact hnext _ _ _
    · exact (hnext _ _ _).trans (ringsKept_endLoad _ _ _)

theorem ringsKept_linkReset {t : State} (ht : exec .linkReset s = .next t) : RingsKept s t := by
  rw [exec_linkReset_eq] at ht
  cases ht
  have hblocks : RingsKept s (linkResetBlocks s) := by
    refine fun hs => ⟨fun p => ?_, fun ⟨hp, hpub⟩ => ⟨fun p => ?_, ?_⟩⟩
    · show cellsOk ((s.home.paths.map _).get p)
      rw [Table.get_map]
      exact hs p
    · show ringOk (pathCells p s) ((s.home.paths.map _).get p)
      rw [Table.get_map]
      exact hp p
    · refine publishOk_of_subset (s := s) (fun _ _ he _ => he) (fun p => ?_) hpub
      show _ ≤ ((s.home.paths.map fun P => ({ P with stall := 0 } : HomePath)).get p).placed
      rw [Table.get_map]
  exact hblocks.works (by simp)

/-- After POWER_ON_RESET the rings are empty, and stay so when the load ends at once. -/
theorem powerOnReset_rings {b : Bool} {t : State} (ht : exec (.powerOnReset b) s = .next t) :
    HasCells t ∧ PathsOk t := by
  have hcells : HasCells (({ State.reset with pending := s.pending, dram := s.dram, epIn := s.epIn } : State).modCtl
      fun c => { c with cfgsel := b }) := reset_hasCells
  have hpaths : PathsOk (({ State.reset with pending := s.pending, dram := s.dram, epIn := s.epIn } : State).modCtl
      fun c => { c with cfgsel := b }) := reset_pathsOk
  cases ht
  cases b with
  | true => exact ⟨hcells, hpaths⟩
  | false =>
    obtain ⟨hcells', hkept⟩ := ringsKept_endLoad .none 0 s.epIn hcells
    exact ⟨hcells', hkept hpaths⟩

/-! ## Ticks and service -/

theorem ringsKept_tick (i : TickIn) : RingsKept s (tick i s) := by
  have hopen : RingsKept s (openFrame (s.setLevels i.levels)) := Works.ringsKept (o := True) (by simp)
  have hacts : RingsKept s (forEach (schedule (decide (s.clock.pos = 0)) i.order) (runAct (openingOf s))
      (openFrame (s.setLevels i.levels))) := by
    refine forEach_inv hopen fun a _ t ht => ht.trans ?_
    by_cases ha : ∃ p, a = .stall p
    · obtain ⟨p, rfl⟩ := ha
      exact ringsKept_stallTick p
    · exact (runAct_works _ (fun p h => ha ⟨p, h⟩) (.refl t)).ringsKept
  exact hacts.works (by simp [tick])

theorem ringsKept_tickWhen (b : Bool) (i : TickIn) : RingsKept s (tickWhen b i s) := by
  unfold tickWhen
  split
  · exact ringsKept_tick i
  · exact .refl s

theorem ringsKept_handRead (f : Fn) (o n : Nat) (i : Fin 16) : RingsKept s (handRead f o n i s) := by
  cases f with
  | path p =>
    simp only [handRead]
    split
    · exact ringsKept_handConsumerRead p o n
    · exact .refl s
  | notices =>
    simp only [handRead]
    split
    · exact (RingsKept.refl s).works (by simp)
    · exact .refl s
  | _ => exact .refl s

theorem ringsKept_handPiece (p : Piece) (n : Nat) : RingsKept s (handPiece p n s) := by
  unfold handPiece
  split
  · exact .refl s
  · exact ringsKept_handRead _ _ _ _

theorem ringsKept_settleWrites (s : State) : RingsKept s (settleWrites s) := (RingsKept.refl s).works (by simp)

theorem ringsKept_serveRead : RingsKept s (serveRead s) := by
  by_cases h : ∃ p n rest, s.port.granted = .piece p :: rest ∧ p.op = .read n
  · obtain ⟨p, n, rest, hg, hp⟩ := h
    rw [serveRead_eq hg hp]
    have hport (f : Port → Port) : RingsKept s (s.modPort f) := (RingsKept.refl s).works (by simp)
    exact ((hport _).trans (ringsKept_handPiece p n)).trans (ringsKept_settleWrites _)
  · rw [serveRead_none fun p n rest hg hp => h ⟨p, n, rest, hg, hp⟩]
    exact .refl s

theorem Works.pathsOk {t : State} (h : Works False s t) (hs : PathsOk s) : PathsOk t := h.sameRings.pathsOk hs

/-- A replay unit may have no cells; the rings stay in order all the same (R96, R105, R167). -/
theorem offerToPath_pathsOk {p : Fin 2} {u : MUnit} (hc : HasCells s) (h : PathsOk s) :
    PathsOk (offerToPath p u s) := by
  cases hans : replayAnswer p u s with
  | placed =>
    obtain ⟨hst, hfit⟩ := replayAnswer_eq_placed hans
    have hplace : PathsOk (place p u 0 s) := place_pathsOk (by rw [hst]; decide) hfit 0 hc h
    simp only [offerToPath, offerReplay, hans]
    exact Works.pathsOk (by simp) hplace
  | wait =>
    have hheld : PathsOk (s.modPath p fun P => { P with heldOffer := some u }) := by
      obtain ⟨hp, hpub⟩ := h
      refine ⟨fun q => ?_, publishOk_of_subset (s := s) (fun _ _ he _ => he) (fun q => ?_) hpub⟩
      · show ringOk (pathCells q s) ((s.home.paths.modify p fun P => { P with heldOffer := some u }).get q)
        rw [Table.get_modify]
        split <;> exact hp q
      · show _ ≤ ((s.home.paths.modify p fun P => { P with heldOffer := some u }).get q).placed
        rw [Table.get_modify]
        split <;> exact le_refl _
    simp only [offerToPath, offerReplay, hans]
    exact Works.pathsOk (by simp) hheld
  | oversize =>
    simp only [offerToPath, offerReplay, hans]
    exact Works.pathsOk (by simp) h

theorem storeReadData_pathsOk (n : Nat) (d : List Byte) (hc : HasCells s) (h : PathsOk s) :
    PathsOk (storeReadData n d s) := by
  simp only [storeReadData]
  split
  · split
    · split
      · exact Works.pathsOk (by simp) h
      · exact offerToPath_pathsOk (s := s.modXfer _) hc h
    · exact h
  · exact h

theorem serveStoreRead_pathsOk (hc : HasCells s) (h : PathsOk s) : PathsOk (serveStoreRead s) := by
  have hsettle (t : State) (ht : PathsOk t) : PathsOk (settleWrites t) := Works.pathsOk (by simp) ht
  unfold serveStoreRead
  split
  · exact hsettle _ (storeReadData_pathsOk (s := s.modPort _) _ _ hc h)
  · exact h

/-! ## Every step (R96) -/

theorem ringsKept_acceptHeld (s : State) : RingsKept s (acceptHeld s) := (acceptHeld_works s).ringsKept

theorem ringsKept_carryOut (p : Nat → Bool) {f : Command → State → State × Result}
    (hf : ∀ c, RingsKept s (f c s).1) : RingsKept s (carryOut p f s) :=
  carryOut_keeps (.refl s) hf fun _ _ _ ht => ht.works (by simp)

theorem ringsKept_carryOut_of_works (p : Nat → Bool) {f : Command → State → State × Result}
    (hf : ∀ c, Works True s (f c s).1) : RingsKept s (carryOut p f s) :=
  ringsKept_carryOut p fun c => (hf c).ringsKept

/-- Every row but STORE_READ_SERVED keeps the rings in order, cells and all. -/
theorem exec_ringsKept {c : Instr} (hc : c ≠ .storeReadServed) {s t : State} (ht : exec c s = .next t) :
    RingsKept s t := by
  cases c with
  | storeReadServed => exact absurd rfl hc
  | powerOnReset b =>
    obtain ⟨hcells, hpaths⟩ := powerOnReset_rings ht
    exact fun _ => ⟨hcells, fun _ => hpaths⟩
  | linkReset => exact ringsKept_linkReset ht
  | configEntryRead e b =>
    cases hl : s.ctl.loader with
    | reading i last =>
      rw [exec_configEntryRead_reading e b hl] at ht
      cases ht
      exact (ringsKept_loadEntry i last e b).trans (ringsKept_acceptHeld _)
    | ended =>
      rw [exec_configEntryRead_ended e b hl] at ht
      cases ht
      exact .refl s
  | requestAccept r =>
    rw [exec_requestAccept_next ht]
    have hport (f : Port → Port) : RingsKept s (s.modPort f) := (RingsKept.refl s).works (by simp)
    exact (hport _).trans (ringsKept_acceptHeld _)
  | downstreamGrant =>
    cases ht
    have hgrant : RingsKept s (settleWrites (grant s)) := (RingsKept.refl s).works (by simp)
    exact hgrant.trans (ringsKept_acceptHeld _)
  | readServed => cases ht; exact ringsKept_serveRead
  | insertQueueJoin => cases ht; exact ringsKept_joinOne
  | transferReadIssue => cases ht; exact (RingsKept.refl s).works (by simp)
  | linkUp =>
    cases ht
    have hport (f : Port → Port) : RingsKept s (s.modPort f) := (RingsKept.refl s).works (by simp)
    exact (hport _).trans (ringsKept_acceptHeld _)
  | refPulse => cases ht; exact (RingsKept.refl s).works (by simp)
  | sampleTick i => cases ht; exact ringsKept_tick i
  | frameTick | frameCountWrap | midnight | refLost | soundSilent | soundUnitClose | markConfirm | stall | cueFiring =>
    cases ht
    exact ringsKept_tickWhen _ _
  | setAperture => cases ht; exact (ringsKept_carryOut _ ringsKept_setAperture).trans (ringsKept_acceptHeld _)
  | clearAperture => cases ht; exact (ringsKept_carryOut _ ringsKept_clearAperture).trans (ringsKept_acceptHeld _)
  | setPath => cases ht; exact ringsKept_carryOut _ ringsKept_setPath
  | setRoute => cases ht; exact ringsKept_carryOut _ ringsKept_setRoute
  | setStore => cases ht; exact ringsKept_carryOut _ ringsKept_setStore
  | abortSend => cases ht; exact ringsKept_carryOut _ ringsKept_abortSend
  | setNotices => cases ht; exact ringsKept_carryOut _ ringsKept_setNotices
  | clearMedia => cases ht; exact ringsKept_carryOut _ ringsKept_clearMedia
  | unknownCommand | setClock | presetTimecode | setPicture | setLane | setProgram | setSound | setTap | setBus | setPin
    | setLineLevels | addCue | cancelCue | forceCue | clipMark | clipLabel | clipDelete | sendClip =>
    cases ht
    exact ringsKept_carryOut_of_works _ fun c => by simp [unknownCommand, refuse]

/-- Settles O13. -/
theorem pathCountersStayOrdered : Obligations.PathCountersStayOrdered := by
  refine ⟨fun s t hp hc ht => ?_, fun s t hc hpend ht => ?_⟩
  · cases hq : s.pending with
    | nil =>
      rw [step_nil s hq] at ht
      cases ht
      exact hp
    | cons c rest =>
      rw [step_cons s hq] at ht
      by_cases hs : c = .storeReadServed
      · subst hs
        cases ht
        exact serveStoreRead_pathsOk (s := { s with pending := rest }) hc hp
      · obtain ⟨-, hkept⟩ := exec_ringsKept hs ht hc
        exact hkept hp
  · cases hq : s.pending with
    | nil =>
      rw [step_nil s hq] at ht
      cases ht
      exact hc
    | cons c rest =>
      rw [step_cons s hq] at ht
      obtain ⟨hcells, -⟩ := exec_ringsKept (fun h => hpend rest (by rw [hq, h])) ht hc
      exact hcells

end Sys2Proof.Machine
end

section
/-! The paths' stall timers at a frame tick, and the row STALL (R100, R112). -/

namespace Sys2Proof.Machine

open Sys2Proof.Safety

/-! ## One path's share of a frame tick (R100) -/

theorem inUse_eq_zero_iff (P : HomePath) : P.inUse = 0 ↔ P.placed ≤ P.consumed := by
  rw [HomePath.inUse]
  omega

section
variable {s : State} {p : Fin 2}

theorem stallTick_idle (h : (s.home.paths.get p).state ≠ .running) : stallTick p s = s := if_pos h

theorem stallTick_unused (hr : (s.home.paths.get p).state = .running)
    (hu : (s.home.paths.get p).placed ≤ (s.home.paths.get p).consumed) :
    stallTick p s = s.modPath p fun P => { P with stall := 0 } := by
  simp only [stallTick, hr, ne_eq, not_true, if_false, (inUse_eq_zero_iff _).2 hu, if_true]

theorem stallTick_rises (hr : (s.home.paths.get p).state = .running)
    (hu : (s.home.paths.get p).consumed < (s.home.paths.get p).placed)
    (hl : (s.home.paths.get p).stall + 1 < (s.home.paths.get p).limit) :
    stallTick p s = s.modPath p fun P => { P with stall := P.stall + 1 } := by
  have hused : (s.home.paths.get p).inUse ≠ 0 := fun h => by
    rw [inUse_eq_zero_iff] at h
    omega
  simp only [stallTick, hr, ne_eq, not_true, if_false, hused, hl, if_true]

/-- The route that FAILOVER names: path A is STALLED, so path B alone if it is RUNNING (R111). -/
theorem routeBits_failover (hr : s.home.route = .aThenB) (h0 : (s.home.paths.get 0).state = .stalled) :
    routeBits s = if (s.home.paths.get 1).state = .running then 2 else 1 := by
  simp only [routeBits, effectiveRoute, hr, h0]
  by_cases h1 : (s.home.paths.get 1).state = .running <;> simp [h1, setBits]

/-- A path's state once its timer has reached the limit, before STALL is raised. -/
def HomePath.stalled (P : HomePath) : HomePath :=
  { P with state := .stalled, stall := P.stall + 1, stallAt := P.stall + 1 }

theorem stallTick_stalls (hr : (s.home.paths.get p).state = .running)
    (hu : (s.home.paths.get p).consumed < (s.home.paths.get p).placed)
    (hl : (s.home.paths.get p).limit ≤ (s.home.paths.get p).stall + 1) {u : State}
    (h : u = raise .stall p.val [b4 ((s.home.paths.get p).placed - (s.home.paths.get p).consumed),
      b8 (s.home.paths.get p).consumed, b1 (s.home.paths.get p).limit] (s.modPath p HomePath.stalled)) :
    stallTick p s = if p = 0 ∧ s.home.route = .aThenB then
      raise .failover 0 [b1 (if (s.home.paths.get 1).state = .running then 2 else 1)] u else u := by
  have hused : (s.home.paths.get p).inUse ≠ 0 := fun h => by
    rw [inUse_eq_zero_iff] at h
    omega
  have hroute : u.home.route = s.home.route := by rw [h]; simp
  have hsame : stallTick p s =
      if p = 0 ∧ u.home.route = .aThenB then raise .failover 0 [b1 (routeBits u)] u else u := by
    simp only [stallTick, hr, ne_eq, not_true, if_false, hused, if_neg (Nat.not_lt.2 hl), h]
    rfl
  rw [hsame, hroute]
  split
  next hf =>
    obtain ⟨rfl, ha⟩ := hf
    have h0 : (u.home.paths.get 0).state = .stalled := by rw [h]; simp [HomePath.stalled]
    have h1 : (u.home.paths.get 1).state = (s.home.paths.get 1).state := by rw [h]; simp
    rw [routeBits_failover (hroute.trans ha) h0, h1]
  next => rfl

/-- What a stall tick leaves of the home block: the other path, and the route. -/
theorem stallTick_home (p : Fin 2) (s : State) : (stallTick p s).home.route = s.home.route
    ∧ ∀ q, p ≠ q → (stallTick p s).home.paths.get q = s.home.paths.get q := by
  have hpath (f : HomePath → HomePath) : (s.modPath p f).home.route = s.home.route
      ∧ ∀ q, p ≠ q → (s.modPath p f).home.paths.get q = s.home.paths.get q :=
    ⟨rfl, fun q hq => Table.get_modify_ne _ _ hq⟩
  by_cases hr : (s.home.paths.get p).state = .running
  · by_cases hu : (s.home.paths.get p).placed ≤ (s.home.paths.get p).consumed
    · rw [stallTick_unused hr hu]
      exact hpath _
    · by_cases hl : (s.home.paths.get p).stall + 1 < (s.home.paths.get p).limit
      · rw [stallTick_rises hr (by omega) hl]
        exact hpath _
      · rw [stallTick_stalls hr (by omega) (by omega) rfl]
        split <;> simpa using hpath HomePath.stalled
  · rw [stallTick_idle hr]
    exact ⟨rfl, fun _ _ => rfl⟩

/-- The path in the tick in which it stalls. -/
theorem stallTick_stalled (hr : (s.home.paths.get p).state = .running)
    (hu : (s.home.paths.get p).consumed < (s.home.paths.get p).placed)
    (hl : (s.home.paths.get p).limit ≤ (s.home.paths.get p).stall + 1) :
    (stallTick p s).home.paths.get p = (s.home.paths.get p).stalled := by
  rw [stallTick_stalls hr hu hl rfl]
  split <;> simp

end

/-! ## The tick in which a path stalls -/

/-- The route as in `s`, and of path `p` what `SamePath` names. -/
def RoutePathKept (p : Fin 2) (s t : State) : Prop :=
  t.home.route = s.home.route ∧ SamePath (s.home.paths.get p) (t.home.paths.get p)

theorem RoutePathKept.trans {p : Fin 2} {s t u : State} (h : RoutePathKept p s t) (h' : RoutePathKept p t u) :
    RoutePathKept p s u := by
  obtain ⟨hr, hp⟩ := h
  obtain ⟨hr', hp'⟩ := h'
  exact ⟨hr'.trans hr, hp.trans hp'⟩

theorem Works.routePathKept {o : Prop} {s t : State} (h : Works o s t) (p : Fin 2) : RoutePathKept p s t := by
  obtain ⟨hroute, hpath⟩ := h.samePath
  exact ⟨hroute, hpath p⟩

/-- Every act of a tick but the path's own stall timer leaves the path so. -/
theorem runAct_routePathKept {p : Fin 2} (o : Opening) {a : TickAct} (ha : a ≠ .stall p) (s : State) :
    RoutePathKept p s (runAct o a s) := by
  by_cases hs : ∃ q, a = .stall q
  · obtain ⟨q, rfl⟩ := hs
    obtain ⟨hroute, hpath⟩ := stallTick_home q s
    refine ⟨hroute, ?_⟩
    show SamePath _ ((stallTick q s).home.paths.get p)
    rw [hpath p fun h => ha (h ▸ rfl)]
    exact .refl _
  · exact (runAct_works o (fun q h => hs ⟨q, h⟩) (.refl s)).routePathKept p

theorem forEach_routePathKept {p : Fin 2} (o : Opening) {acts : List TickAct} (ha : .stall p ∉ acts) (s : State) :
    RoutePathKept p s (forEach acts (runAct o) s) :=
  forEach_inv ((Works.refl (o := True) s).routePathKept p) fun _ hmem t ht =>
    ht.trans (runAct_routePathKept o (fun h => ha (h ▸ hmem)) t)

/-- A frame tick around the stall timer of one path. -/
theorem tick_around_stall (p : Fin 2) (i : TickIn) {s : State} (h : s.clock.pos = 0) : ∃ t,
    RoutePathKept p s t ∧ RoutePathKept p (stallTick p t) (tick i s) := by
  obtain ⟨before, after, hs, hbefore, hafter⟩ := schedule_split (a := .stall p) (by revert p; decide) i.order
  have hopen : RoutePathKept p s (openFrame (s.setLevels i.levels)) := Works.routePathKept (o := False) (by simp) p
  have htick : tick i s = (forEach after (runAct (openingOf s)) (stallTick p
      (forEach before (runAct (openingOf s)) (openFrame (s.setLevels i.levels))))).modClock Clock.advance := by
    simp only [tick, h, decide_true, hs, forEach_append, forEach_cons]
    rfl
  refine ⟨_, hopen.trans (forEach_routePathKept (openingOf s) hbefore _), ?_⟩
  rw [htick]
  exact (forEach_routePathKept (openingOf s) hafter _).trans (Works.routePathKept (o := False) (by simp) p)

/-- Settles O39. -/
theorem pathsStallAtTheirLimit : Obligations.PathsStallAtTheirLimit := by
  refine ⟨?_, ?_, ?_⟩
  · rintro s p P rfl
    exact ⟨stallTick_idle, stallTick_unused, stallTick_rises, fun hr hu hl u h => stallTick_stalls hr hu hl h⟩
  · intro s p i hpos hr hu hl
    obtain ⟨t, hbefore, hafter⟩ := tick_around_stall p i hpos
    obtain ⟨hroute, hstate, hlimit, hstall, -, hplaced, hcons⟩ := hbefore
    obtain ⟨hroute', hstate', hlimit', hstall', hat', -, hcons'⟩ := hafter
    have hcons := hcons hu
    have hstalled := stallTick_stalled (s := t) (hstate.trans hr) (by omega) (by rw [hlimit, hstall]; exact hl)
    obtain ⟨hroute'', -⟩ := stallTick_home p t
    rw [hstalled] at hstate' hlimit' hstall' hat' hcons'
    have hdue : stallDue p s = true := by
      have hused : (s.home.paths.get p).inUse ≠ 0 := by rw [HomePath.inUse]; omega
      simp [stallDue, frameTickDue, hpos, hr, hused, hl]
    refine ⟨tick i s, by rw [exec_stall, tickWhen, if_pos hdue], hstate', hstall'.trans (congrArg (· + 1) hstall),
      hat'.trans (congrArg (· + 1) hstall), (hcons' ?_).trans hcons, hlimit'.trans hlimit,
      (hroute'.trans hroute'').trans hroute⟩
    show (t.home.paths.get p).consumed < (t.home.paths.get p).placed
    omega
  · intro s p i h
    have hdue : stallDue p s = false := by
      rcases h with h | h <;> simp [stallDue, h]
    rw [exec_stall, tickWhen, if_neg (by simp [hdue])]

end Sys2Proof.Machine
end

section
/-! A consumer's served read: the cells it touches, what it consumes, and what follows (R107 to R109). -/

namespace Sys2Proof.Machine

open Sys2Proof.Safety

/-! ## The cells touched (R107) -/

theorem mem_touchedCells {off len x : Nat} (hlen : 1 ≤ len) : x ∈ touchedCells off len ↔
    ∃ b, off ≤ b ∧ b < off + len ∧ 64 ≤ b ∧ x = (b - 64) / 64 := by
  unfold touchedCells
  split
  · simp only [List.not_mem_nil, false_iff, not_exists]
    omega
  · simp only [List.mem_map, List.mem_range]
    constructor
    · rintro ⟨i, hi, rfl⟩
      refine ⟨max (max off 64) ((max off 64 - 64) / 64 * 64 + 64 * i + 64), ?_⟩
      omega
    · rintro ⟨b, h1, h2, h3, rfl⟩
      exact ⟨(b - 64) / 64 - (max off 64 - 64) / 64, by omega, by omega⟩

/-! ## The value a cell holds (R95, R108) -/

section
variable {n : Nat} {P : HomePath}

/-- Counting on from `c` to the next value at position `pos`. -/
theorem mod_next {c pos : Nat} (hpos : pos < n) : (c + (pos + n - c % n) % n) % n = pos := by
  have hc : c % n < n := Nat.mod_lt _ (by omega)
  have hsplit : c = c % n + n * (c / n) := (Nat.mod_add_div c n).symm
  by_cases h : c % n ≤ pos
  · have hd : (pos + n - c % n) % n = pos - c % n := by
      rw [show pos + n - c % n = pos - c % n + n by omega, Nat.add_mod_right, Nat.mod_eq_of_lt (by omega)]
    rw [hd, show c + (pos - c % n) = pos + n * (c / n) by omega, Nat.add_mul_mod_self_left, Nat.mod_eq_of_lt hpos]
  · have hd : (pos + n - c % n) % n = pos + n - c % n := Nat.mod_eq_of_lt (by omega)
    rw [hd, show c + (pos + n - c % n) = pos + n * (c / n) + n by omega, Nat.add_mod_right, Nat.add_mul_mod_self_left,
      Nat.mod_eq_of_lt hpos]

/-- Below one turn of the ring a value is told by its position. -/
theorem eq_of_mod_eq {c v w : Nat} (hv : c ≤ v) (hw : c ≤ w) (hvn : v < c + n) (hwn : w < c + n) (h : v % n = w % n) :
    v = w :=
  Nat.ModEq.eq_of_abs_lt h (by rw [abs_lt]; omega)

theorem heldValue_eq_some {pos v : Nat} (hused : P.placed - P.consumed ≤ n) (hc : P.consumed ≤ v) (hv : v < P.placed) :
    heldValue n P pos = some v ↔ pos = v % n := by
  have hn : 0 < n := by omega
  constructor
  · intro h
    simp only [heldValue] at h
    split at h
    next hpos =>
      obtain rfl := Option.some.inj h
      exact (mod_next hpos.1).symm
    next => cases h
  · rintro rfl
    have hpos : v % n < n := Nat.mod_lt _ hn
    have hlt : (v % n + n - P.consumed % n) % n < n := Nat.mod_lt _ hn
    have hval : P.consumed + (v % n + n - P.consumed % n) % n = v :=
      eq_of_mod_eq (n := n) (c := P.consumed) (by omega) hc (by omega) (by omega) (mod_next hpos)
    simp only [heldValue, hval, hpos, hv, and_self, if_true]

theorem heldValue_bounds {pos v : Nat} (h : heldValue n P pos = some v) : P.consumed ≤ v ∧ v < P.placed := by
  simp only [heldValue] at h
  split at h
  next hpos =>
    obtain rfl := Option.some.inj h
    exact ⟨by omega, hpos.2⟩
  next => cases h

/-- A placed but unpublished cell is touched (R108). -/
theorem touchesUnpublished_iff (h : ringOk n P) (cells : List Nat) : touchesUnpublished n P cells = true ↔
    ∃ v, P.published ≤ v ∧ v < P.placed ∧ v % n ∈ cells := by
  obtain ⟨hpub, -, hused, -⟩ := h
  simp only [touchesUnpublished, List.any_eq_true, Option.any_eq_true, decide_eq_true_eq]
  constructor
  · rintro ⟨pos, hpos, v, hv, hle⟩
    obtain ⟨hc, hlt⟩ := heldValue_bounds hv
    rw [heldValue_eq_some hused hc hlt] at hv
    exact ⟨v, hle, hlt, hv ▸ hpos⟩
  · rintro ⟨v, hle, hlt, hmem⟩
    exact ⟨v % n, hmem, v, (heldValue_eq_some hused (by omega) hlt).2 rfl, hle⟩

theorem consumedBy_eq_none {cells : List Nat}
    (h : ∀ e ∈ P.units, e.start + e.cells ≤ P.published → (e.start + e.cells - 1) % n ∉ cells) :
    consumedBy n P cells = none :=
  splitLast_none_iff.2 fun e he => by simpa using h e he

theorem consumedBy_eq_some {cells : List Nat} {pre post : List RingEntry} {e : RingEntry}
    (hunits : P.units = pre ++ e :: post) (hpub : e.start + e.cells ≤ P.published)
    (he : (e.start + e.cells - 1) % n ∈ cells)
    (hpost : ∀ x ∈ post, x.start + x.cells ≤ P.published → (x.start + x.cells - 1) % n ∉ cells) :
    consumedBy n P cells = some (e, post) := by
  rw [consumedBy, hunits]
  exact splitLast_append 
    (p := fun e => decide (e.start + e.cells ≤ P.published) && cells.contains ((e.start + e.cells - 1) % n))
    (by simpa using ⟨hpub, he⟩) (fun x hx => by simpa using hpost x hx) pre

end

/-! ## The read handed to its path -/

section
variable {s : State} {p : Piece} {n : Nat} {q : Fin 2}

/-- The one granted read served: the port alone, and what its path does when the read is its consumer's (R11). -/
theorem readServed_alone (hg : s.port.granted = [.piece p]) (hp : p.op = .read n) (hfn : p.fn = some (.path q)) :
    ∃ o, o = { s.port with granted := [], opens := o.opens, answers := o.answers }
      ∧ exec .readServed s = .next (if p.initiator = (s.home.paths.get q).consumer
        then handConsumerRead q p.off n { s with port := o } else { s with port := o }) := by
  have hdone (d : List Byte) (g : Port) : Port.donePiece p.req d g =
      { g with opens := (Port.donePiece p.req d g).opens, answers := (Port.donePiece p.req d g).answers } := by
    unfold Port.donePiece
    split
    · rfl
    · split <;> rfl
  refine ⟨_, hdone (Mem.readBytes s.dram p.addr n) { s.port with granted := [] }, ?_⟩
  rw [exec_readServed, serveRead_eq hg hp, settleWrites_nil]
  · simp only [handPiece, hfn]
    rfl
  · rw [handPiece_port]
    exact congrArg Port.granted (hdone _ _)

/-- What a consumption makes of the path (R106, R107, R109). -/
def HomePath.consumedTo (early : W32) (post : List RingEntry) (c : Nat) (P : HomePath) : HomePath :=
  { P with
    early := early, units := post, consumed := c, stall := 0, state := .running
    arm := if P.placed - c ≤ P.low then true else P.arm }

variable {off : Nat} {early : W32}

/-- The count of early reads after a read of a path that is not OFF (R108). -/
theorem countEarly_eq (h : pathOk s q)
    (hrise : (∃ v, (s.home.paths.get q).published ≤ v ∧ v < (s.home.paths.get q).placed
      ∧ v % pathCells q s ∈ touchedCells off n) → early = (s.home.paths.get q).early + 1)
    (hstay : (∀ v, (s.home.paths.get q).published ≤ v → v < (s.home.paths.get q).placed →
      v % pathCells q s ∉ touchedCells off n) → early = (s.home.paths.get q).early) :
    countEarly q off n s = s.modPath q fun P => { P with early := early } := by
  unfold countEarly
  split
  next ht =>
    rw [hrise ((touchesUnpublished_iff h _).1 ht)]
    exact modPath_congr rfl
  next ht =>
    rw [touchesUnpublished_iff h] at ht
    rw [hstay fun v h1 h2 h3 => ht ⟨v, h1, h2, h3⟩, State.modPath, Table.modify_id _ _ rfl]

/-- The consumption and what follows it, once the newest touched published entry is known (R107, R109). -/
theorem consumeUnits_some (hst : (s.home.paths.get q).state ≠ .off) (e : RingEntry) (post : List RingEntry) {u : State}
    (hu : u = s.modPath q (HomePath.consumedTo early post (e.start + e.cells))) :
    consumeUnits q (some (e, post)) (s.modPath q fun P => { P with early := early })
      = reexamine q (tryTags q (s.home.paths.get q).tags
        (if (s.home.paths.get q).state = .stalled then raiseResume q 0 u else u)) := by
  rw [consumeUnits, modPath_modPath, afterConsumption_eq (by simpa using hst), pathResumed, modPath_modPath, hu]
  simp only [State.modPath_home, Table.get_modify_self, Function.comp_apply]
  rfl

/-- RESUME carries the in-use after the consumption, and the timer at the last stall (R109). -/
theorem raiseResume_consumed (e : RingEntry) (post : List RingEntry) {u v : State}
    (hu : u = s.modPath q (HomePath.consumedTo early post (e.start + e.cells)))
    (hv : v = raise .resume q.val [b1 0, b4 ((s.home.paths.get q).placed - (e.start + e.cells)),
      b1 (s.home.paths.get q).stallAt] u) :
    raiseResume q 0 u = if q = 0 ∧ s.home.route = .aThenB then raise .restore 0 [b1 (routeBits v)] v else v := by
  have hpath : u.home.paths.get q = (s.home.paths.get q).consumedTo early post (e.start + e.cells) := by simp [hu]
  have hroute : v.home.route = s.home.route := by simp [hv, hu]
  have hnotice : raise .resume q.val [b1 0, b4 (u.home.paths.get q).inUse, b1 (u.home.paths.get q).stallAt] u = v := by
    rw [hv, hpath]
    rfl
  simp only [raiseResume, hnotice, hroute]

/-- A read that touches the last cell of no published entry consumes nothing (R107). -/
theorem handConsumerRead_none (hst : (s.home.paths.get q).state ≠ .off)
    (hearly : countEarly q off n s = s.modPath q fun P => { P with early := early })
    (h : ∀ e ∈ (s.home.paths.get q).units, e.start + e.cells ≤ (s.home.paths.get q).published →
      (e.start + e.cells - 1) % pathCells q s ∉ touchedCells off n) :
    handConsumerRead q off n s = s.modPath q fun P => { P with early := early } := by
  rw [handConsumerRead_on hst, hearly, consumedBy_eq_none h]
  rfl

theorem handConsumerRead_some (hst : (s.home.paths.get q).state ≠ .off)
    (hearly : countEarly q off n s = s.modPath q fun P => { P with early := early })
    {pre post : List RingEntry} {e : RingEntry} (hunits : (s.home.paths.get q).units = pre ++ e :: post)
    (hpub : e.start + e.cells ≤ (s.home.paths.get q).published)
    (he : (e.start + e.cells - 1) % pathCells q s ∈ touchedCells off n)
    (hpost : ∀ x ∈ post, x.start + x.cells ≤ (s.home.paths.get q).published →
      (x.start + x.cells - 1) % pathCells q s ∉ touchedCells off n) {u : State}
    (hu : u = s.modPath q (HomePath.consumedTo early post (e.start + e.cells))) :
    handConsumerRead q off n s = reexamine q (tryTags q (s.home.paths.get q).tags
      (if (s.home.paths.get q).state = .stalled then raiseResume q 0 u else u)) := by
  rw [handConsumerRead_on hst, hearly, consumedBy_eq_some hunits hpub he hpost, consumeUnits_some hst e post hu]

end

/-- Settles O23. -/
theorem consumerReadsConsume : Obligations.ConsumerReadsConsume := by
  rintro s p n q N P hg hp hlen hfn ⟨hpaths, -⟩ rfl rfl
  obtain ⟨o, ho, hexec⟩ := readServed_alone hg hp hfn
  refine ⟨o, ho, ?_, ?_⟩
  · rintro (hinit | hoff)
    · rw [hexec, if_neg hinit]
    · rw [hexec, handConsumerRead_off (s := { s with port := o }) hoff, ite_self]
  · intro hinit hst touched early htouch hrise hstay
    have hcell (x : Nat) : touched x ↔ x ∈ touchedCells p.off n := (htouch x).trans (mem_touchedCells hlen).symm
    simp only [hcell] at hrise hstay ⊢
    have hearly := countEarly_eq (s := { s with port := o }) (off := p.off) (n := n) (hpaths q) hrise hstay
    rw [hexec, if_pos hinit]
    refine ⟨fun hnone => ?_, fun pre e post hunits hpub he hpost u hu => ?_⟩
    · rw [handConsumerRead_none (s := { s with port := o }) hst hearly hnone]
      rfl
    · have hu' : u = { s with port := o }.modPath q (HomePath.consumedTo early post (e.start + e.cells)) := hu
      rw [handConsumerRead_some (s := { s with port := o }) hst hearly hunits hpub he hpost hu']
      refine ⟨fun hrun => ?_, fun hstall v hv => ?_⟩
      · rw [if_neg (by rw [hrun]; decide)]
      · rw [if_pos hstall, raiseResume_consumed (s := { s with port := o }) e post hu' hv]

end Sys2Proof.Machine
end

section
/-! SET_PATH: its checks and settings, a path enabled, and a path disabled with the transfers bound to it (R97 to R99,
R170). -/

namespace Sys2Proof.Machine

open Sys2Proof.Safety

/-! ## The checks of SET_PATH (R97) -/

section
variable {s : State} {c : Command} {p : Fin 2} {k : Fin 16}

theorem setPath_badPath (h : 1 < c.word 0) : setPath c s = (s, .refused .badField 1) := by
  rw [setPath, asFin_eq_none.2 h]
  rfl

theorem setPath_badEnable (h0 : c.word 0 ≤ 1) (h1 : 1 < c.word 1) : setPath c s = (s, .refused .badField 2) := by
  rw [setPath, asFin_lt (Nat.lt_succ_of_le h0), asFin_eq_none.2 h1]
  rfl

theorem setPath_badConsumer (h0 : c.word 0 ≤ 1) (h1 : c.word 1 ≤ 1) (h2 : 15 < c.word 2) :
    setPath c s = (s, .refused .badField 3) := by
  rw [setPath, asFin_lt (Nat.lt_succ_of_le h0), asFin_lt (Nat.lt_succ_of_le h1), asFin_eq_none.2 h2]
  rfl

/-- The settings as the command names them. -/
def Command.pathSettings (c : Command) (k : Fin 16) : PathSettings := ⟨k, c.word 3, c.word 4, c.word 5, c.word 6⟩

/-- SET_PATH once its path, its enable choice and its consumer are in range. -/
theorem setPath_named (h0 : c.word 0 = p.val) (h1 : c.word 1 ≤ 1) (h2 : c.word 2 = k.val) : setPath c s =
    if (ap (.path p) s).isNone then (s, .refused .state 0)
    else (writePath p (decide (c.word 1 = 1)) ((c.pathSettings k).clamped (pathCells p s)) s,
      clampedResult ((c.pathSettings k).changed (pathCells p s))) := by
  have he : decide ((⟨c.word 1, Nat.lt_succ_of_le h1⟩ : Fin 2) = 1) = decide (c.word 1 = 1) := by
    rw [decide_eq_decide, Fin.ext_iff]
    rfl
  rw [setPath, h0, asFin_val, asFin_lt (Nat.lt_succ_of_le h1), h2, asFin_val]
  simp only [he, refuse]
  rfl

end

/-! ## The ring's place (R95) -/

theorem pathCells_set {s : State} {p : Fin 2} {a : Aperture} (h : ap (.path p) s = some a) :
    pathCells p s = a.size / 64 - 1 := by
  rw [pathCells, apSize, h]
  rfl

theorem apBase_set {s : State} {f : Fn} {a : Aperture} (h : ap f s = some a) : apBase f s = a.base := by
  rw [apBase, h]
  rfl

/-! ## A path enabled or tuned (R98) -/

section
variable {s : State} {p : Fin 2} {x : PathSettings}

theorem writePath_tuned (h : (s.home.paths.get p).state ≠ .off) :
    writePath p true x s = reexamine p (s.modPath p (HomePath.write x)) := by
  rw [writePath, if_neg h]
  rfl

theorem writePath_disabled (h : (s.home.paths.get p).state ≠ .off) : writePath p false x s = disablePath p s := by
  rw [writePath, if_neg h]
  rfl

theorem writePath_off (h : (s.home.paths.get p).state = .off) :
    writePath p false x s = s.modPath p (HomePath.write x) := by
  rw [writePath, if_pos h]
  rfl

theorem writePath_enabled (h : (s.home.paths.get p).state = .off) {a : Aperture} (ha : ap (.path p) s = some a) :
    writePath p true x s = push (byPath p)
      ⟨.write a.base (ringHeader 0 (a.size / 64 - 1) ((s.home.paths.get p).epoch + 1)), .nothing⟩
      (s.modPath p fun P => (P.write x).newLife) := by
  have hcells : pathCells p (s.modPath p fun P => (P.write x).newLife) = a.size / 64 - 1 := pathCells_set ha
  have hbase : apBase (.path p) (s.modPath p fun P => (P.write x).newLife) = a.base := apBase_set ha
  rw [writePath, if_pos h, if_pos rfl, enablePath, ringHeaderWrite, hcells, hbase]
  simp [HomePath.newLife, HomePath.emptied, HomePath.write]

end

/-! ## The engine lets go, and an entry ends (R169, R170) -/

section
variable {s : State}

theorem letGo_eq {e : Send} {es : List Send} (h : s.xfer.queue = e :: es) : letGo s = letGoOf e s := by
  unfold letGo letGoOf
  split
  next hnil => rw [h] at hnil; cases hnil
  next hcons =>
    obtain ⟨rfl, -⟩ := List.cons.inj (h.symm.trans hcons)
    split <;> rfl

/-- The entry's clip, found in record `i`, has its prior state again, and then its ending is raised. -/
theorem endEntry_eq {e : Send} {i : Fin 256} (h : findClip e.clip s = some i) (placed remaining : Nat) :
    endEntry .pathOff false placed remaining e s = endedTo 1 e placed remaining i s := by
  rw [endEntry, if_neg (by decide), restorePrior, h]
  rfl

/-- The active entry ended, with what follows it: the queued ones that end, and the next one made active. -/
theorem endEntries_active {e : Send} {es : List Send} (hq : s.xfer.queue = e :: es) {which : Send → Bool}
    (hw : which e = true) (r : EndReason) (l : Bool) : endEntries r l which s =
      nextActive ((e :: es).filter fun f => !which f) (forEach (es.filter which) (endEntry r l 0 0)
        (endEntry r l s.xfer.placed.toNat s.xfer.remaining e (letGoOf e s))) := by
  simp only [endEntries, hq, hw, if_true, letGo_eq hq]
  rfl

theorem endEntries_queued {e : Send} {es : List Send} (hq : s.xfer.queue = e :: es) {which : Send → Bool}
    (hw : which e = false) (r : EndReason) (l : Bool) : endEntries r l which s =
      (forEach (es.filter which) (endEntry r l 0 0) s).modXfer fun x =>
        { x with queue := (e :: es).filter fun f => !which f } := by
  simp only [endEntries, hq, hw, Bool.false_eq_true, if_false]

/-! ## What is left in the queue (R166, R168) -/

/-- The engine's going on takes entries from the head of the queue alone. -/
theorem mem_queue_deal {x : Send} (k : Nat) (h : x ∈ (deal k s).xfer.queue) : x ∈ s.xfer.queue := by
  induction k generalizing s with
  | zero => exact h
  | succ k ih =>
    have hskip (n : Nat) (t : State) : (skipUnits n t).xfer.queue = t.xfer.queue := by
      induction n generalizing t with
      | zero => rfl
      | succ n ihn =>
        simp only [skipUnits]
        split
        · rfl
        · exact ihn _
    have hactivate (t : State) (hx : x ∈ (activate t).xfer.queue) : x ∈ t.xfer.queue := by
      unfold activate at hx
      split at hx
      · cases hx
      · exact hx
    have hcomplete (t : State) (hx : x ∈ (complete t).xfer.queue) : x ∈ t.xfer.queue := by
      unfold complete at hx
      split at hx
      · exact hx
      next hq =>
        rw [hq]
        exact List.mem_cons_of_mem _ hx
    simp only [deal] at h
    split at h
    · exact h
    · split at h
      · exact hskip _ s ▸ hcomplete _ (hactivate _ (ih h))
      · exact hskip _ s ▸ h

theorem mem_queue_nextActive {x : Send} {rest : List Send} (h : x ∈ (nextActive rest s).xfer.queue) : x ∈ rest := by
  have h := mem_queue_deal _ h
  unfold activate at h
  split at h
  · cases h
  · exact h

theorem mem_queue_endEntries {x : Send} {r : EndReason} {l : Bool} {which : Send → Bool}
    (h : x ∈ (endEntries r l which s).xfer.queue) : which x = false := by
  cases hq : s.xfer.queue with
  | nil =>
    have hid : endEntries r l which s = s := by simp only [endEntries, hq]
    rw [hid, hq] at h
    cases h
  | cons e es =>
    have hmem : x ∈ (e :: es).filter fun f => !which f := by
      cases hw : which e with
      | true =>
        rw [endEntries_active hq hw] at h
        exact mem_queue_nextActive h
      | false =>
        rw [endEntries_queued hq hw] at h
        exact h
    simpa using (List.mem_filter.1 hmem).2

/-! ## The rings while transfers end -/

/-- Where the paths of the entries that end hold no offer, the home block and the paths' holds are as before. -/
theorem endEntries_rings (r : EndReason) (l : Bool) {which : Send → Bool}
    (h : ∀ x ∈ s.xfer.queue, which x = true → (s.home.paths.get x.path).heldOffer = none) :
    (endEntries r l which s).home = s.home
      ∧ ∀ p, (endEntries r l which s).ins.holds.get (byPath p) = s.ins.holds.get (byPath p) := by
  have hworks {t : State} (hw : Works False t (endEntries r l which s)) (hhome : t.home = s.home)
      (hhold : ∀ p, t.ins.holds.get (byPath p) = s.ins.holds.get (byPath p)) :
      (endEntries r l which s).home = s.home
        ∧ ∀ p, (endEntries r l which s).ins.holds.get (byPath p) = s.ins.holds.get (byPath p) := by
    obtain ⟨h1, -, h2, -⟩ := hw.sameRings
    exact ⟨h1.trans hhome, fun p => (h2 p).trans (hhold p)⟩
  cases hq : s.xfer.queue with
  | nil =>
    have hid : endEntries r l which s = s := by simp only [endEntries, hq]
    exact hworks (t := s) (by rw [hid]; exact .refl s) rfl fun _ => rfl
  | cons e es =>
    cases hw : which e with
    | true =>
      refine hworks (t := letGoOf e s) ?_ ?_ fun p => ?_
      · simp only [endEntries, hq, hw, if_true, letGo_eq hq]
        simp
      · have hnone := h e (by rw [hq]; exact List.mem_cons_self) hw
        unfold letGoOf
        split
        · rw [Table.modify_id]
          rw [← hnone]
        · rfl
      · exact Table.get_set_ne _ _ (ne_byPath (.inr (by decide)) p)
    | false =>
      refine hworks (t := s) ?_ rfl fun _ => rfl
      simp only [endEntries, hq, hw, Bool.false_eq_true, if_false]
      simp

/-! ## The next entry made active (R166) -/

theorem nextActive_nil : nextActive [] s = { s with xfer := { Transfer.reset with tag := s.xfer.tag + 1 } } := rfl

/-- A clip whose first unit is retained and selected is read from there. -/
theorem nextActive_reads {f : Send} {fs : List Send} {a b : W32} (h : ReadsFirst f a b s) :
    nextActive (f :: fs) s = { s with xfer := { s.xfer with
      queue := f :: fs, cursor := a, remaining := (b - a + 1).toNat, paused := false, issued := false, buffer := []
      placed := 0, skipped := 0, oversize := 0, tag := s.xfer.tag + 1 } } := by
  obtain ⟨i, R, r, u, hfind, rfl, hfirst, hlast, hne, hret, hsel⟩ := h
  have hact : activeClip { s with xfer := { s.xfer with queue := f :: fs } } = some i := hfind
  have hne : (b - a + 1).toNat ≠ 0 := fun h0 => hne (BitVec.eq_of_toNat_eq h0)
  have hstart : activate { s with xfer := { s.xfer with queue := f :: fs } } = { s with xfer := { s.xfer with
      queue := f :: fs, cursor := a, remaining := (b - a + 1).toNat, paused := false, issued := false, buffer := []
      placed := 0, skipped := 0, oversize := 0, tag := s.xfer.tag + 1 } } := by
    have hl : ((s.log.recs.get i).last.map (·.1)).getD 0 = b := by rw [hlast]; rfl
    have hf : (s.log.recs.get i).firstSeq = a := by rw [Clip.firstSeq, hfirst]; rfl
    simp only [activate, hact, Option.map_some, Option.bind_some, Option.getD_some, hf, hl]
    rfl
  rw [nextActive, hstart, goOn]
  generalize hv : { s with xfer := { s.xfer with
    queue := f :: fs, cursor := a, remaining := (b - a + 1).toNat, paused := false, issued := false, buffer := []
    placed := 0, skipped := 0, oversize := 0, tag := s.xfer.tag + 1 } } = v
  have hq : v.xfer.queue = f :: fs := by rw [← hv]
  have hrem : v.xfer.remaining = (b - a + 1).toNat := by rw [← hv]
  have hcur : cursorSelected v = true := by
    have ha : activeClip v = some i := by rw [← hv]; exact hfind
    have hr : retainedOf v.xfer.cursor v = some (r, u) := by rw [← hv]; exact hret
    simp only [cursorSelected, ha, hr]
    rw [← hv]
    exact hsel
  have hskip (n : Nat) : skipUnits n v = v := by
    cases n with
    | zero => rfl
    | succ n => rw [skipUnits, if_pos (.inr hcur)]
  rw [hq, List.length_cons, deal, if_neg (by simp [hq]), hskip]
  exact if_neg (by rwa [hrem])

end

/-! ## Clips given back their prior state (R138, R169, R170) -/

/-- A clip given back its prior state, its revision counted. -/
def Clip.restored (R : Clip) : Clip := { R with state := R.prior.getD .closed, prior := none, rev := R.rev + 1 }

theorem restored_ne_free {R : Clip} (h : R.prior ≠ some .free) : R.restored.state ≠ .free := by
  show R.prior.getD .closed ≠ .free
  cases hp : R.prior with
  | none => simp
  | some k => rw [hp] at h; simpa using h

/-- In `t` the same records are FREE as in `s`, and each holds the same number. -/
def SameNames (s t : State) : Prop :=
  ∀ i, (t.log.recs.get i).num = (s.log.recs.get i).num
    ∧ ((t.log.recs.get i).state = .free ↔ (s.log.recs.get i).state = .free)

/-- No clip has FREE as its prior state (R136). -/
def PriorsOk (s : State) : Prop := ∀ i, (s.log.recs.get i).prior ≠ some .free

theorem findClip_congr {s t : State} (h : SameNames s t) (n : Nat) : findClip n t = findClip n s := by
  have hpred : (fun i => decide ((t.log.recs.get i).state ≠ .free) && decide ((t.log.recs.get i).num = n))
      = fun i => decide ((s.log.recs.get i).state ≠ .free) && decide ((s.log.recs.get i).num = n) := by
    funext i
    obtain ⟨hnum, hfree⟩ := h i
    rw [hnum, decide_eq_decide.2 (not_congr hfree)]
  rw [findClip, hpred]
  rfl

theorem findClip_some {s : State} {n : Nat} {i : Fin 256} (h : findClip n s = some i) :
    (s.log.recs.get i).state ≠ .free ∧ (s.log.recs.get i).num = n := by
  simpa using List.find?_some h

theorem priorsOk_of_numbersOk {s : State} (h : NumbersOk s) : PriorsOk s := by
  obtain ⟨hclip, -⟩ := h
  intro i
  obtain ⟨-, -, hprior⟩ := hclip i
  rcases hprior with hp | hp | hp <;> simp [hp]

section
variable {s : State} {e : Send} {i : Fin 256} (code placed remaining : Nat)

theorem endedTo_log : (endedTo code e placed remaining i s).log
    = { s.log with recs := s.log.recs.modify i Clip.restored } := by
  have hwrite (t : State) : (writeRecord i t).log = t.log := by simp
  simp only [endedTo, raise_frame, mirror, hwrite, State.modRec, State.modLog, Table.modify, Table.get_set_self]
  congr 1
  exact Table.ext_items (List.set_set ..)

theorem endedTo_names (hf : findClip e.clip s = some i) (hp : PriorsOk s) :
    SameNames s (endedTo code e placed remaining i s) ∧ PriorsOk (endedTo code e placed remaining i s) := by
  obtain ⟨hfree, -⟩ := findClip_some hf
  refine ⟨fun j => ?_, fun j => ?_⟩
  all_goals
    rw [endedTo_log, Table.get_modify]
    split
  next h =>
    subst h
    exact ⟨rfl, iff_of_false (restored_ne_free (hp i)) hfree⟩
  next => exact ⟨rfl, Iff.rfl⟩
  next => simp [Clip.restored]
  next => exact hp j

end

/-- The transfers `l` ended, each with its counts and its clip's record. -/
def endedAll (l : List Send) (placed remaining : Send → Nat) (idx : Send → Fin 256) (s : State) : State :=
  l.foldl (fun y x => endedTo 1 x (placed x) (remaining x) (idx x) y) s

/-- Entries ended in queue order. -/
theorem forEach_endEntry {s : State} {l : List Send} {idx : Send → Fin 256} (hp : PriorsOk s)
    (hf : ∀ x ∈ l, findClip x.clip s = some (idx x)) :
    forEach l (endEntry .pathOff false 0 0) s = endedAll l (fun _ => 0) (fun _ => 0) idx s := by
  induction l generalizing s with
  | nil => rfl
  | cons x l ih =>
    obtain ⟨hx, hl⟩ := List.forall_mem_cons.1 hf
    obtain ⟨hnames, hpriors⟩ := endedTo_names 1 0 0 hx hp
    rw [forEach_cons, endEntry_eq hx, ih hpriors fun y hy => (findClip_congr hnames y.clip).trans (hl y hy)]
    rfl

theorem endedAll_congr {l : List Send} {f f' g g' : Send → Nat} (h : ∀ x ∈ l, f x = f' x ∧ g x = g' x)
    (idx : Send → Fin 256) (s : State) : endedAll l f g idx s = endedAll l f' g' idx s :=
  List.foldl_ext _ _ _ fun y x hx => by
    obtain ⟨hf, hg⟩ := h x hx
    rw [hf, hg]

section
variable (l : List Send) (placed remaining : Send → Nat) (idx : Send → Fin 256) (s : State)

theorem endedAll_log : (endedAll l placed remaining idx s).log
    = { s.log with recs := (l.map idx).foldl (fun u j => u.modify j Clip.restored) s.log.recs } := by
  induction l generalizing s with
  | nil => rfl
  | cons x l ih =>
    have hstep : endedAll (x :: l) placed remaining idx s
        = endedAll l placed remaining idx (endedTo 1 x (placed x) (remaining x) (idx x) s) := rfl
    rw [hstep, ih, endedTo_log]
    rfl

theorem endedAll_frame : (endedAll l placed remaining idx s).home = s.home
    ∧ (endedAll l placed remaining idx s).store = s.store ∧ (endedAll l placed remaining idx s).xfer = s.xfer := by
  induction l generalizing s with
  | nil => exact ⟨rfl, rfl, rfl⟩
  | cons x l ih =>
    obtain ⟨h1, h2, h3⟩ := ih (endedTo 1 x (placed x) (remaining x) (idx x) s)
    exact ⟨h1.trans (by simp [endedTo]), h2.trans (by simp [endedTo]), h3.trans (by simp [endedTo])⟩

theorem endedAll_get (hidx : (l.map idx).Nodup) (j : Fin 256) : (endedAll l placed remaining idx s).log.recs.get j
    = if j ∈ l.map idx then (s.log.recs.get j).restored else s.log.recs.get j := by
  rw [endedAll_log]
  exact Table.get_foldl_modify (fun _ => Clip.restored) hidx _ j

end

/-! ## A path disabled (R99, R170) -/

/-- The ring of a path dropped and the path OFF, before the transfers bound to it end (R99). -/
def pathDropped (p : Fin 2) (s : State) : State :=
  (dropHold (byPath p) s).modPath p fun P => { P.emptied with state := .off }

/-- The entries bound to a path. -/
def boundTo (p : Fin 2) (x : Send) : Bool := decide (x.path = p)

theorem pathDropped_path (p : Fin 2) (s : State) :
    (pathDropped p s).home.paths.get p = { (s.home.paths.get p).emptied with state := .off } := by
  simp [pathDropped]

theorem pathDropped_hold (p : Fin 2) (s : State) : (pathDropped p s).ins.holds.get (byPath p) = [] :=
  Table.get_set_self ..

/-- After the endings the path is as it was dropped, and its hold is empty. -/
theorem endEntries_pathDropped (p : Fin 2) (s : State) :
    (endEntries .pathOff false (boundTo p) (pathDropped p s)).home = (pathDropped p s).home
      ∧ (endEntries .pathOff false (boundTo p) (pathDropped p s)).ins.holds.get (byPath p) = [] := by
  obtain ⟨hhome, hhold⟩ := endEntries_rings (s := pathDropped p s) .pathOff false (which := boundTo p) fun x _ hx => by
    obtain rfl : x.path = p := of_decide_eq_true hx
    rw [pathDropped_path]
    rfl
  exact ⟨hhome, (hhold p).trans (pathDropped_hold p s)⟩

/-- A path disabled: the endings, and then the header write that is all its hold has. -/
theorem disablePath_eq {s : State} {p : Fin 2} {a : Aperture} (ha : ap (.path p) s = some a) {w : State}
    (hw : w = endEntries .pathOff false (boundTo p) (pathDropped p s)) : disablePath p s = { w with
      ins := { w.ins with holds := (w.ins.holds.set (byPath p)
        [⟨.write a.base (ringHeader 0 (a.size / 64 - 1) (s.home.paths.get p).epoch), .nothing⟩]) } } := by
  obtain ⟨hhome, hhold⟩ := endEntries_pathDropped p s
  have hap : ap (.path p) w = some a := by
    rw [hw, ap_congr (s := s) (by simp [pathDropped])]
    exact ha
  have hepoch : (w.home.paths.get p).epoch = (s.home.paths.get p).epoch := by
    rw [hw, hhome, pathDropped_path]
    rfl
  have hdis : disablePath p s = ringHeaderWrite p 0 .nothing w := by
    rw [hw]
    rfl
  rw [hdis, ringHeaderWrite, apBase_set hap, pathCells_set hap, hepoch, push, State.modIns, Table.modify, hw, hhold]
  rfl

theorem endEntries_nil {s : State} (h : s.xfer.queue = []) (r : EndReason) (l : Bool) (which : Send → Bool) :
    endEntries r l which s = s := by
  simp only [endEntries, h]

/-- The records of the bound entries are distinct, and no other entry's clip is among them (R138, R171). -/
theorem nodup_records {s : State} (hn : (s.xfer.queue.map (·.clip)).Nodup) {l : List Send} (hl : l.Sublist s.xfer.queue)
    {idx : Send → Fin 256} (hf : ∀ x ∈ l, findClip x.clip s = some (idx x)) : (l.map idx).Nodup := by
  have hclips : (l.map idx).map (fun i => (s.log.recs.get i).num) = l.map (·.clip) := by
    rw [List.map_map]
    exact List.map_congr_left fun x hx => (findClip_some (hf x hx)).2
  refine List.Nodup.of_map (fun i => (s.log.recs.get i).num) ?_
  rw [hclips]
  exact hn.sublist (hl.map _)

/-- What the transfers bound to a path leave when they have ended beneath the active entry `e` (R170). -/
def pathEnded (p : Fin 2) (e : Send) (idx : Send → Fin 256) (s : State) : State :=
  endedAll (s.xfer.queue.filter (boundTo p)) (fun x => if x = e then s.xfer.placed.toNat else 0)
    (fun x => if x = e then s.xfer.remaining else 0) idx
    (if e.path = p then letGoOf e (pathDropped p s) else pathDropped p s)

section
variable {s : State} {p : Fin 2} {e : Send} {es : List Send} {idx : Send → Fin 256} (hq : s.xfer.queue = e :: es)
  (hlog : LogOk s) (hidx : ∀ x ∈ s.xfer.queue.filter (boundTo p), findClip x.clip s = some (idx x))
include hq hlog

/-- The queued entries are not the active one (R171). -/
theorem ne_of_mem_queued {x : Send} (hx : x ∈ es) : x ≠ e := by
  obtain ⟨-, -, hn, -⟩ := hlog
  rw [hq, List.map_cons, List.nodup_cons] at hn
  rintro rfl
  exact hn.1 (List.mem_map_of_mem hx)

include hidx

/-- The endings of R170 in queue order, and what the engine goes on to. -/
theorem endEntries_bound : endEntries .pathOff false (boundTo p) (pathDropped p s) =
    if e.path = p then nextActive (s.xfer.queue.filter fun x => decide (x.path ≠ p)) (pathEnded p e idx s)
    else { pathEnded p e idx s with
      xfer := { (pathEnded p e idx s).xfer with queue := s.xfer.queue.filter fun x => decide (x.path ≠ p) } } := by
  have hqd : (pathDropped p s).xfer.queue = e :: es := hq
  have hkept : ((e :: es).filter fun f => !boundTo p f) = s.xfer.queue.filter fun x => decide (x.path ≠ p) := by
    rw [hq]
    simp [boundTo]
  have hpriors : PriorsOk s := priorsOk_of_numbersOk hlog.1
  have hzero : ∀ x ∈ es.filter (boundTo p), (if x = e then s.xfer.placed.toNat else 0) = 0
      ∧ (if x = e then s.xfer.remaining else 0) = 0 := fun x hx => by
    have hne := ne_of_mem_queued hq hlog (List.mem_of_mem_filter hx)
    exact ⟨if_neg hne, if_neg hne⟩
  by_cases he : e.path = p
  · have hb : boundTo p e = true := decide_eq_true he
    have hbound : s.xfer.queue.filter (boundTo p) = e :: es.filter (boundTo p) := by rw [hq, List.filter_cons_of_pos hb]
    rw [hbound] at hidx
    obtain ⟨hfe, hfs⟩ := List.forall_mem_cons.1 hidx
    have hfe : findClip e.clip (letGoOf e (pathDropped p s)) = some (idx e) := hfe
    obtain ⟨hnames, hpriors'⟩ := endedTo_names 1 s.xfer.placed.toNat s.xfer.remaining hfe hpriors
    rw [endEntries_active hqd hb, hkept, endEntry_eq hfe, if_pos he, pathEnded, hbound, if_pos he]
    congr 1
    have hrest := forEach_endEntry (l := es.filter (boundTo p)) (idx := idx) hpriors' fun x hx =>
      (findClip_congr hnames x.clip).trans (hfs x hx)
    refine hrest.trans ((endedAll_congr hzero idx _).symm.trans ?_)
    simp only [endedAll, List.foldl_cons, if_true]
  · have hb : boundTo p e = false := decide_eq_false he
    have hbound : s.xfer.queue.filter (boundTo p) = es.filter (boundTo p) := by
      rw [hq, List.filter_cons_of_neg (by simp [hb])]
    rw [hbound] at hidx
    rw [endEntries_queued hqd hb, hkept, if_neg he, pathEnded, hbound, if_neg he, endedAll_congr hzero,
      forEach_endEntry (s := pathDropped p s) hpriors hidx]
    rfl

end

/-- The endings leave of the log all but the records, the home block as the drop left it, and the store. -/
theorem pathEnded_frame (p : Fin 2) (e : Send) (idx : Send → Fin 256) (s : State) :
    (pathEnded p e idx s).log = { s.log with recs := (pathEnded p e idx s).log.recs }
      ∧ (pathEnded p e idx s).home = (pathDropped p s).home ∧ (pathEnded p e idx s).store = s.store := by
  obtain ⟨hhome, hstore, -⟩ := endedAll_frame (s.xfer.queue.filter (boundTo p))
    (fun x => if x = e then s.xfer.placed.toNat else 0) (fun x => if x = e then s.xfer.remaining else 0) idx
    (if e.path = p then letGoOf e (pathDropped p s) else pathDropped p s)
  refine ⟨?_, hhome.trans ?_, hstore.trans ?_⟩
  · rw [pathEnded, endedAll_log]
    split <;> rfl
  · split
    next he =>
      unfold letGoOf
      split
      · rw [Table.modify_id]
        rw [he, pathDropped_path]
        rfl
      · rfl
    next => rfl
  · split <;> rfl

section
variable {s : State} {p : Fin 2} {e : Send} {idx : Send → Fin 256} (hlog : LogOk s)
  (hidx : ∀ x ∈ s.xfer.queue.filter (boundTo p), findClip x.clip s = some (idx x))
include hlog hidx

/-- The log after the endings: each bound entry's clip has its prior state again, and nothing else has changed. -/
theorem pathEnded_get (j : Fin 256) : (pathEnded p e idx s).log.recs.get j =
    if j ∈ (s.xfer.queue.filter (boundTo p)).map idx then (s.log.recs.get j).restored else s.log.recs.get j := by
  obtain ⟨-, -, hn, -⟩ := hlog
  have hrecs := nodup_records hn List.filter_sublist hidx
  rw [pathEnded, endedAll_get _ _ _ _ _ hrecs]
  split <;> split <;> rfl

theorem pathEnded_names : SameNames s (pathEnded p e idx s) := by
  intro j
  rw [pathEnded_get hlog hidx]
  split
  next hmem =>
    obtain ⟨x, hx, rfl⟩ := List.mem_map.1 hmem
    obtain ⟨hfree, -⟩ := findClip_some (hidx x hx)
    exact ⟨rfl, iff_of_false (restored_ne_free (priorsOk_of_numbersOk hlog.1 _)) hfree⟩
  next => exact ⟨rfl, Iff.rfl⟩

/-- A kept entry's clip and its range are as before, so it is read from the same unit (R166). -/
theorem readsFirst_pathEnded {f : Send} {a b : W32} (hf : f ∈ s.xfer.queue) (hp : f.path ≠ p)
    (h : ReadsFirst f a b s) : ReadsFirst f a b (pathEnded p e idx s) := by
  obtain ⟨i, R, r, u, hfind, rfl, hfirst, hlast, hne, hret, hsel⟩ := h
  have hrec : (pathEnded p e idx s).log.recs.get i = s.log.recs.get i := by
    rw [pathEnded_get hlog hidx, if_neg]
    intro hmem
    obtain ⟨x, hx, rfl⟩ := List.mem_map.1 hmem
    obtain ⟨-, -, hn, -⟩ := hlog
    obtain ⟨-, hnum⟩ := findClip_some hfind
    obtain ⟨-, hnum'⟩ := findClip_some (hidx x hx)
    obtain ⟨hxq, hxp⟩ := List.mem_filter.1 hx
    obtain rfl := List.inj_on_of_nodup_map hn hf hxq (hnum.symm.trans hnum')
    exact hp (of_decide_eq_true hxp)
  obtain ⟨-, -, hstore⟩ := pathEnded_frame p e idx s
  refine ⟨i, _, r, u, (findClip_congr (pathEnded_names hlog hidx) _).trans hfind, rfl, ?_, ?_, hne, ?_, ?_⟩
  · rw [hrec]; exact hfirst
  · rw [hrec]; exact hlast
  · rw [retainedOf, hstore]; exact hret
  · rw [hrec]; exact hsel

theorem nextStarts_pathEnded :
    NextStarts (s.xfer.queue.filter fun x => decide (x.path ≠ p)) s (pathEnded p e idx s) := by
  refine ⟨fun h => by rw [h]; exact nextActive_nil, fun f fs a b h hreads => ?_⟩
  obtain ⟨hf, hp⟩ := List.mem_filter.1 (h ▸ List.mem_cons_self : f ∈ s.xfer.queue.filter fun x => decide (x.path ≠ p))
  rw [h]
  exact nextActive_reads (readsFirst_pathEnded hlog hidx hf (of_decide_eq_true hp) hreads)

end

/-! ## SET_PATH at the head of the queue -/

theorem exec_setPath_head {s : State} {c : Command} (hh : AtHead c s) (hc : c.code = 11) :
    exec .setPath s = .next (answered c (setPath c s).2 (setPath c s).1) :=
  exec_atHead (exec_setPath (s := s)) hh hc

/-- Settles O48. -/
theorem setPathEnablesTunesOrDisables : Obligations.SetPathEnablesTunesOrDisables := by
  intro s c hh hc
  rw [exec_setPath_head hh hc]
  refine ⟨fun h => by rw [setPath_badPath h], fun h0 h => by rw [setPath_badEnable h0 h],
    fun h0 h1 h => by rw [setPath_badConsumer h0 h1 h], ?_⟩
  intro p k h0 h1 h2
  rw [setPath_named h0 h1 h2]
  refine ⟨fun hap => by rw [hap]; rfl, ?_⟩
  rintro a n P Q r hap rfl rfl hQ hr
  rw [hap, if_neg (by simp), pathCells_set hap]
  have hwrite : HomePath.write ((c.pathSettings k).clamped (a.size / 64 - 1)) (s.home.paths.get p) = Q := by
    rw [hQ]
    rfl
  have hres : clampedResult ((c.pathSettings k).changed (a.size / 64 - 1)) = r := by
    rw [hr, hQ]
    rfl
  rw [hres]
  have hon (h : c.word 1 = 1) : decide (c.word 1 = 1) = true := decide_eq_true h
  have hoff (h : c.word 1 = 0) : decide (c.word 1 = 1) = false := by rw [h]; rfl
  refine ⟨fun hst h => ?_, fun hst h => ?_, fun hst h u hu => ?_, fun hst h => ?_, fun hst h hnil => ?_, ?_⟩
  · simp only [hoff h, writePath_off hst]
    rw [← hwrite]
    rfl
  · simp only [hon h, writePath_enabled hst hap]
    rw [← hwrite]
    rfl
  · have hmod : s.modPath p (HomePath.write ((c.pathSettings k).clamped (a.size / 64 - 1))) = u := by
      rw [hu, ← hwrite]
      rfl
    have hpath : u.home.paths.get p = Q := by rw [hu]; exact Table.get_set_self ..
    simp only [hon h, writePath_tuned hst, hmod, true_and]
    refine ⟨fun hnone => reexamine_none (by rw [hpath, hQ]; exact hnone), fun x hx hwait =>
      reexamine_waits (u := x) (by rw [hpath, hQ]; exact hx) ?_⟩
    rw [hpath]
    rcases hwait with hstall | hlarge | hfull
    · left
      rw [hQ]
      exact fun hrun => by simp [hstall] at hrun
    · refine .inr (.inr ((fits_eq_false_iff p x u).2 fun pad passed hat => ?_))
      have hcells : pathCells p u = a.size / 64 - 1 := by
        rw [hu]
        exact pathCells_set hap
      have hle := fitsAt_cells_le hat
      omega
    · refine .inr (.inl (hfull.trans_eq ?_))
      rw [hQ]
      rfl
  · simp only [hoff h, writePath_disabled hst]
    obtain ⟨hhome, -⟩ := endEntries_pathDropped p s
    refine ⟨_, rfl, ?_⟩
    rw [disablePath_eq hap rfl]
    refine ⟨fun x hx => of_decide_eq_false (mem_queue_endEntries hx), ?_, Table.get_set_self .., ?_⟩
    · show (endEntries .pathOff false (boundTo p) (pathDropped p s)).home.paths.get p = _
      rw [hhome, pathDropped_path]
      rfl
    · simp [pathDropped]
  · simp only [hoff h, writePath_disabled hst]
    have hset (l l' : List InsEntry) :
        (s.ins.holds.set (byPath p) l).set (byPath p) l' = s.ins.holds.set (byPath p) l' :=
      Table.ext_items (List.set_set ..)
    rw [disablePath_eq hap (endEntries_nil (s := pathDropped p s) hnil ..).symm, ← hset [] _]
    rfl
  · rintro hst h hlog e es hq bound kept idx u v w rfl rfl hidx rfl rfl rfl
    simp only [hoff h, writePath_disabled hst]
    obtain ⟨hvlog, hvhome, -⟩ := pathEnded_frame p e idx s
    refine ⟨?_, hvlog, hvhome, fun x hx R m hR hprior => ?_, fun j hj => ?_, fun _ => nextStarts_pathEnded hlog hidx⟩
    · rw [disablePath_eq hap (endEntries_bound hq hlog hidx).symm]
      rfl
    · refine (pathEnded_get hlog hidx (idx x)).trans ((if_pos (List.mem_map_of_mem hx)).trans ?_)
      rw [← hR, Clip.restored, hprior]
      rfl
    · refine (pathEnded_get hlog hidx j).trans (if_neg fun hmem => ?_)
      obtain ⟨x, hx, hxj⟩ := List.mem_map.1 hmem
      exact hj x hx hxj

end Sys2Proof.Machine
end

section
/-! What an offer makes of the store: the entries that leave, those that join, and the frame indexes (R117, R120, R121,
R125). -/

namespace Sys2Proof.Machine

open Sys2Proof.Safety

/-! ## The entries that leave (R120) -/

/-- The entries that leave and those that stay are the retained list cut at one place. -/
theorem splitLeaving_append (n head need : Nat) (l : List Retained) :
    (splitLeaving n head need l).1 ++ (splitLeaving n head need l).2 = l := by
  induction l with
  | nil => rfl
  | cons e l ih =>
    unfold splitLeaving
    split
    · rfl
    · rw [List.cons_append, ih]

/-- The cut lies before the first entry that the unit leaves room for. -/
theorem splitLeaving_eq {n head need : Nat} {out keep : List Retained} (hout : ∀ e ∈ out, n + e.start < head + need)
    (hkeep : ∀ e rest, keep = e :: rest → head + need ≤ n + e.start) :
    splitLeaving n head need (out ++ keep) = (out, keep) := by
  induction out with
  | nil =>
    cases keep with
    | nil => rfl
    | cons e rest =>
      have hroom := hkeep e rest rfl
      exact if_pos (by omega)
  | cons e out ih =>
    obtain ⟨he, hout⟩ := List.forall_mem_cons.1 hout
    rw [List.cons_append, splitLeaving, if_neg (by omega), ih hout]

/-- An entry of a retained list names a sequence. -/
def Retained.hasSeq (q : W32) (e : Retained) : Bool := decide ((e.unit.map (·.seq)) = some q)

/-- Some of the leaving entries name the sequence of an index entry. -/
def goneWith (gone : List Retained) (x : IndexEntry) : Bool := gone.any (Retained.hasSeq x.seq)

/-- The frame indexes after the index entries of leaving units have gone (R125). -/
def Store.evicted (gone : List Retained) (st : Store) : Table (List IndexEntry) 4 :=
  st.index.map (·.filter fun x => !goneWith gone x)

theorem goneWith_cons_unit {e : Retained} {u : StoredUnit} (h : e.unit = some u) (gone : List Retained) (x : IndexEntry) :
    goneWith (e :: gone) x = (decide (u.seq = x.seq) || goneWith gone x) := by
  simp [goneWith, Retained.hasSeq, h]

theorem goneWith_cons_pad {e : Retained} (h : e.unit = none) (gone : List Retained) (x : IndexEntry) :
    goneWith (e :: gone) x = goneWith gone x := by
  simp [goneWith, Retained.hasSeq, h]

theorem goneWith_iff {gone : List Retained} {x : IndexEntry} :
    goneWith gone x = true ↔ ∃ e ∈ gone, ∃ u, e.unit = some u ∧ u.seq = x.seq := by
  simp [goneWith, Retained.hasSeq]

theorem unitLeaves_store (u : StoredUnit) (s : State) : (unitLeaves u s).store =
    { s.store with index := s.store.index.map (·.filter fun x => decide (x.seq ≠ u.seq)) } := by
  simp [unitLeaves]

/-- The units of the leaving entries leave one after another. -/
theorem forEach_unitLeaves_store (gone : List Retained) (s : State) :
    (forEach (gone.filterMap (·.unit)) unitLeaves s).store = { s.store with index := s.store.evicted gone } := by
  have hnone (st : Store) : st.evicted [] = st.index :=
    Table.ext_get fun l => by simp [Store.evicted, goneWith]
  induction gone generalizing s with
  | nil => rw [hnone]; rfl
  | cons e gone ih =>
    cases hu : e.unit with
    | none =>
      rw [List.filterMap_cons_none hu, ih]
      simp only [Store.evicted, goneWith_cons_pad hu]
    | some u =>
      rw [List.filterMap_cons_some hu, forEach_cons, ih, unitLeaves_store]
      have hindex : (({ s.store with index := s.store.index.map (·.filter fun x => decide (x.seq ≠ u.seq)) } : Store).evicted
          gone) = s.store.evicted (e :: gone) := by
        refine Table.ext_get fun l => ?_
        simp only [Store.evicted, Table.get_map, List.filter_filter, goneWith_cons_unit hu]
        congr 1
        funext x
        simp [Bool.and_comm, eq_comm]
      rw [hindex]

/-! ## The entries that join (R121) -/

/-- The store behind a pad of `e` cells, when one is needed. -/
def Store.padded (e : Nat) (st : Store) : Store :=
  { st with retained := st.retained ++ (if e = 0 then [] else [⟨st.head, e, none⟩]), head := st.head + e }

theorem storePadStep_store (e : Nat) (s : State) : (storePadStep e s).store = s.store.padded e := by
  unfold storePadStep Store.padded
  split
  next h => simp [h]
  next h => simp [push_frame]

/-- The store behind a unit of `c` cells, not yet readable. -/
def Store.joined (src : Option (Fin 4)) (frame : W32) (c : Nat) (st : Store) : Store :=
  { st with
    nextSeq := st.nextSeq + 1, gapRuns := st.gapRuns.set (gapSource src) 0
    retained := st.retained ++ [⟨st.head, c, some ⟨st.nextSeq, src, frame, false⟩⟩]
    head := st.head + c }

theorem storeDataStep_store (src : Option (Fin 4)) (frame : W32) (u : MUnit) (s : State) :
    (storeDataStep src frame u s).store = s.store.joined src frame u.cells := by
  simp [storeDataStep, Store.joined]

/-- An index without its oldest entry when it is full (R125). -/
def roomIn (index : List IndexEntry) : List IndexEntry := if index.length < 128 then index else index.drop 1

/-- The newest entry of an index is of a frame. -/
def endsWith (frame : W32) (index : List IndexEntry) : Bool :=
  decide ((index.getLast?.map fun x => decide (x.frame = frame)) = some true)

/-- A lane's index has an entry to come for a row of a frame (R125). -/
def Store.indexes (l : Fin 4) (frame : W32) (st : Store) : Bool :=
  st.openMark.get l && !endsWith frame (st.index.get l)

/-- The store after a row of lane `l` has updated the lane's index (R125). -/
def Store.indexed (l : Fin 4) (x : IndexEntry) (st : Store) : Store :=
  { st with
    openMark := st.openMark.set l false
    index := if st.indexes l x.frame = true then st.index.set l (roomIn (st.index.get l) ++ [x]) else st.index }

/-- The entry of a stored row's frame is new in its lane's index, or nothing happens but that the mark goes. -/
theorem indexStep_eq (l : Fin 4) (frame seq : W32) (cell : Nat) (s : State) : indexStep l frame seq cell s =
    if s.store.indexes l frame = true then
      resolveFirst l ⟨frame, seq, cell⟩ (roomIn (s.store.index.get l))
        (s.modStore (Store.indexed l ⟨frame, seq, cell⟩))
    else s.modStore (Store.indexed l ⟨frame, seq, cell⟩) := by
  have hends (i : List IndexEntry) : ((i.getLast?.map fun e => decide (e.frame = frame)).getD false) = endsWith frame i := by
    unfold endsWith
    cases i.getLast? <;> simp
  unfold indexStep Store.indexed
  cases hm : s.store.openMark.get l with
  | false =>
    have hset : s.store.openMark.set l false = s.store.openMark := by
      refine Table.ext_get fun k => ?_
      rw [Table.get_set]
      split
      next h => rw [← h, hm]
      next => rfl
    have hno : s.store.indexes l frame = false := by rw [Store.indexes, hm]; rfl
    simp only [if_true, hno, Bool.false_eq_true, if_false, State.modStore, hset]
  | true =>
    have hno : s.store.indexes l frame = !endsWith frame (s.store.index.get l) := by rw [Store.indexes, hm]; rfl
    simp only [Bool.true_eq_false, if_false, State.modStore, hends, hno]
    cases endsWith frame (s.store.index.get l) <;> rfl

theorem resolveFirst_store (l : Fin 4) (x : IndexEntry) (before : List IndexEntry) (s : State) :
    (resolveFirst l x before s).store = s.store := by simp

theorem indexStep_store (l : Fin 4) (frame seq : W32) (cell : Nat) (s : State) :
    (indexStep l frame seq cell s).store = s.store.indexed l ⟨frame, seq, cell⟩ := by
  rw [indexStep_eq]
  split
  · rw [resolveFirst_store, State.modStore_store]
  · rfl

/-! ## The store after an offer that is stored (R121) -/

/-- The store once the entries `out` have left and a pad of `pad` cells and a unit of `c` cells have joined behind `keep`. -/
def Store.holding (src : Option (Fin 4)) (frame : W32) (pad c : Nat) (out keep : List Retained) (st : Store) : Store :=
  (({ st with retained := keep, index := st.evicted out } : Store).padded pad).joined src frame c

/-- The index entry of a unit that joins at position `h` of a store of `n` cells. -/
def Store.entryAt (frame : W32) (n h : Nat) (st : Store) : IndexEntry := ⟨frame, st.nextSeq, h % n⟩

/-- The store after a unit has been stored, a row with its index entry. -/
def Store.stored (src : Option (Fin 4)) (frame : W32) (n pad c : Nat) (out keep : List Retained) (st : Store) : Store :=
  match src with
  | none => st.holding src frame pad c out keep
  | some l => (st.holding src frame pad c out keep).indexed l (st.entryAt frame n (st.head + pad))

theorem storeCells_congr {s t : State} (h : ap .store t = ap .store s) : storeCells t = storeCells s := by
  rw [storeCells, storeCells, apSize, apSize, h]

/-- The store's own work on a unit once its entry has joined: a row updates its lane's index and the row tallies. -/
def rowNoted (src : Option (Fin 4)) (frame seq : W32) (cell : Nat) (s : State) : State :=
  match src with
  | none => s
  | some l => tallyRows l frame (indexStep l frame seq cell s)

/-- The state once the units of the leaving entries have left. -/
def unitsLeft (out keep : List Retained) (s : State) : State :=
  forEach (out.filterMap (·.unit)) unitLeaves (s.modStore fun st => { st with retained := keep })

theorem unitsLeft_aps (out keep : List Retained) (s : State) : (unitsLeft out keep s).aps = s.aps := by
  simp [unitsLeft]

theorem unitsLeft_store (out keep : List Retained) (s : State) : (unitsLeft out keep s).store =
    { s.store with retained := keep, index := s.store.evicted out } := by
  rw [unitsLeft, forEach_unitLeaves_store]
  rfl

/-- The state as the unit's entry has joined the store, before its index step. -/
def unitJoined (src : Option (Fin 4)) (frame : W32) (u : MUnit) (out keep : List Retained) (s : State) : State :=
  storeDataStep src frame u (storePadStep (storePad (storeCells s) s.store.head u.cells) (unitsLeft out keep s))

theorem storeUnit_eq (src : Option (Fin 4)) (frame : W32) (u : MUnit) (out keep : List Retained) (s : State) :
    storeUnit src frame u out keep s = storeHeaderWrite (rowNoted src frame s.store.nextSeq
      ((s.store.head + storePad (storeCells s) s.store.head u.cells) % storeCells s)
      (unitJoined src frame u out keep s)) := by
  have hcells (t : State) (ht : t.aps = s.aps) : storeCells t = storeCells s := storeCells_congr (ap_congr ht _)
  have hleft : storeCells (unitsLeft out keep s) = storeCells s := hcells _ (unitsLeft_aps ..)
  have hhead : (unitsLeft out keep s).store.head = s.store.head := by rw [unitsLeft_store]
  have hseq : (unitsLeft out keep s).store.nextSeq = s.store.nextSeq := by rw [unitsLeft_store]
  have hpad : storeCells (storePadStep (storePad (storeCells s) s.store.head u.cells) (unitsLeft out keep s))
      = storeCells s := hcells _ (by simp [unitsLeft_aps])
  unfold storeUnit unitJoined
  simp only [← unitsLeft.eq_def, hleft, hhead, hpad, storePadStep_store, Store.padded, hseq]
  cases src <;> rfl

theorem unitJoined_store (src : Option (Fin 4)) (frame : W32) (u : MUnit) (out keep : List Retained) (s : State) :
    (unitJoined src frame u out keep s).store
      = s.store.holding src frame (storePad (storeCells s) s.store.head u.cells) u.cells out keep := by
  rw [unitJoined, storeDataStep_store, storePadStep_store, unitsLeft_store]
  rfl

theorem storeUnit_store (src : Option (Fin 4)) (frame : W32) (u : MUnit) (out keep : List Retained) (s : State) :
    (storeUnit src frame u out keep s).store = s.store.stored src frame (storeCells s)
      (storePad (storeCells s) s.store.head u.cells) u.cells out keep := by
  rw [storeUnit_eq]
  cases src with
  | none => simp [rowNoted, unitJoined_store, Store.stored]
  | some l => simp [rowNoted, unitJoined_store, indexStep_store, Store.stored, Store.entryAt]

end Sys2Proof.Machine
end

section
/-! Every step keeps the frame indexes naming retained units (R119, R122, R125). -/

namespace Sys2Proof.Machine

open Sys2Proof.Safety

/-! ## A store and its frame indexes (R125) -/

/-- An index entry of lane `l` names a retained row, in a store of `n` cells. -/
def Store.Names (n : Nat) (st : Store) (l : Fin 4) (x : IndexEntry) : Prop :=
  ∃ e ∈ st.retained, ∃ u, e.unit = some u ∧ u.seq = x.seq ∧ u.source = some l ∧ u.frame = x.frame ∧ x.cell = e.start % n

/-- R125 for a store of `n` cells. -/
def Store.IndexOk (n : Nat) (st : Store) : Prop :=
  (∀ l, ∀ x ∈ st.index.get l, st.Names n l x) ∧ (∀ l, (st.index.get l).length ≤ 128)
    ∧ (st.state = .off → st.retained = [] ∧ ∀ l, st.index.get l = [])

theorem indexOk_iff (s : State) : Safety.IndexOk s ↔ s.store.IndexOk (storeCells s) := Iff.rfl

namespace Store

variable {n : Nat} {st : Store}

/-- An emptied store names nothing. -/
theorem IndexOk.of_empty (hr : st.retained = []) (hi : ∀ l, st.index.get l = []) : st.IndexOk n :=
  ⟨fun l x hx => absurd hx (by simp [hi]), fun l => by simp [hi], fun _ => ⟨hr, hi⟩⟩

/-- The indexes and the retained entries are what the law is about. -/
theorem IndexOk.congr {st' : Store} (hr : st'.retained = st.retained) (hi : st'.index = st.index)
    (ho : st'.state = .off → st.state = .off) (h : st.IndexOk n) : st'.IndexOk n := by
  obtain ⟨hnames, hlen, hoff⟩ := h
  unfold Store.IndexOk Store.Names
  rw [hr, hi]
  exact ⟨hnames, hlen, fun h => hoff (ho h)⟩

/-- An OFF store holds no entry whose cell could be wrong, so its number of cells may change. -/
theorem IndexOk.of_off (hoff : st.state = .off) (h : st.IndexOk n) (m : Nat) : st.IndexOk m := by
  obtain ⟨hr, hi⟩ := h.2.2 hoff
  exact .of_empty hr hi

theorem names_append {l : Fin 4} {x : IndexEntry} (es : List Retained) (h : st.Names n l x) :
    ({ st with retained := st.retained ++ es } : Store).Names n l x := by
  obtain ⟨e, he, hu⟩ := h
  exact ⟨e, List.mem_append_left _ he, hu⟩

/-- An index entry that no leaving unit takes with it names a unit that stays. -/
theorem names_keep {l : Fin 4} {x : IndexEntry} {out keep : List Retained} (hcut : st.retained = out ++ keep)
    (hx : goneWith out x = false) (h : st.Names n l x) : ({ st with retained := keep } : Store).Names n l x := by
  obtain ⟨e, he, u, hu, hseq, hrest⟩ := h
  rw [hcut, List.mem_append] at he
  rcases he with he | he
  · rw [goneWith_iff.2 ⟨e, he, u, hu, hseq⟩] at hx
    cases hx
  · exact ⟨e, he, u, hu, hseq, hrest⟩

/-- After the leaving units have taken their index entries with them, the others name units that stay, also behind a new
pad and a new unit. -/
theorem IndexOk.holding {out keep : List Retained} (hcut : st.retained = out ++ keep) (hon : st.state ≠ .off)
    (h : st.IndexOk n) (src : Option (Fin 4)) (frame : W32) (pad c : Nat) :
    (st.holding src frame pad c out keep).IndexOk n := by
  obtain ⟨hnames, hlen, -⟩ := h
  refine ⟨fun l x hx => ?_, fun l => ?_, fun hoff => absurd hoff hon⟩
  · have hx : x ∈ (st.evicted out).get l := hx
    rw [Store.evicted, Table.get_map, List.mem_filter, Bool.not_eq_true'] at hx
    obtain ⟨hmem, hgone⟩ := hx
    obtain ⟨e, he, hu⟩ := names_keep hcut hgone (hnames l x hmem)
    exact ⟨e, List.mem_append_left _ (List.mem_append_left _ he), hu⟩
  · show ((st.evicted out).get l).length ≤ 128
    rw [Store.evicted, Table.get_map]
    exact (List.length_filter_le _ _).trans (hlen l)

theorem mem_roomIn {x : IndexEntry} {index : List IndexEntry} (h : x ∈ roomIn index) : x ∈ index := by
  unfold roomIn at h
  split at h
  · exact h
  · exact List.mem_of_mem_drop h

/-- A full index of at most 128 entries gives up its oldest one. -/
theorem length_roomIn {index : List IndexEntry} (h : index.length ≤ 128) : (roomIn index).length ≤ 127 := by
  unfold roomIn
  split
  · omega
  · rw [List.length_drop]
    omega

/-- A row's own index entry, when it has one, names the row. -/
theorem IndexOk.indexed {l : Fin 4} {x : IndexEntry} (h : st.IndexOk n) (hx : st.Names n l x) :
    (st.indexed l x).IndexOk n := by
  obtain ⟨hnames, hlen, hoff⟩ := h
  have hget (k : Fin 4) : (st.indexed l x).index.get k = st.index.get k
      ∨ (l = k ∧ (st.indexed l x).index.get k = roomIn (st.index.get k) ++ [x]) := by
    unfold Store.indexed
    dsimp only
    split
    · rw [Table.get_set]
      split
      next hk => exact .inr ⟨hk, by rw [hk]⟩
      next => exact .inl rfl
    · exact .inl rfl
  refine ⟨fun k y hy => ?_, fun k => ?_, fun hst => ?_⟩
  · show st.Names n k y
    rcases hget k with hk | ⟨rfl, hk⟩
    · exact hnames k y (hk ▸ hy)
    · rw [hk, List.mem_append, List.mem_singleton] at hy
      rcases hy with hy | rfl
      · exact hnames l y (mem_roomIn hy)
      · exact hx
  · rcases hget k with hk | ⟨-, hk⟩
    · exact hk ▸ hlen k
    · rw [hk, List.length_append, List.length_singleton]
      exact Nat.succ_le_succ (length_roomIn (hlen k))
  · obtain ⟨hr, -⟩ := hoff hst
    obtain ⟨e, he, -⟩ := hx
    rw [hr] at he
    cases he

/-- A stored unit leaves every index entry naming a retained one (R120, R121, R125). -/
theorem IndexOk.stored {out keep : List Retained} (hcut : st.retained = out ++ keep) (hon : st.state ≠ .off)
    (h : st.IndexOk n) (src : Option (Fin 4)) (frame : W32) (pad c : Nat) :
    (st.stored src frame n pad c out keep).IndexOk n := by
  have hholding := h.holding hcut hon src frame pad c
  cases src with
  | none => exact hholding
  | some l =>
    refine hholding.indexed ⟨⟨st.head + pad, c, some ⟨st.nextSeq, some l, frame, false⟩⟩, ?_, _, rfl, rfl, rfl, rfl, rfl⟩
    exact List.mem_append_right _ List.mem_cons_self

end Store

/-! ## What keeps the indexes -/

/-- From `s` to `t` the law of the frame indexes is kept. -/
structure IndexKept (s t : State) : Prop where
  keeps : Safety.IndexOk s → Safety.IndexOk t

section
variable {s t : State}

theorem IndexKept.refl (s : State) : IndexKept s s := ⟨id⟩

theorem IndexKept.trans {u : State} (h : IndexKept s t) (h' : IndexKept t u) : IndexKept s u := ⟨h'.keeps ∘ h.keeps⟩

/-- With the number of cells as it was, the law is about the store alone. -/
theorem IndexKept.of_indexOk (ha : ap .store t = ap .store s) (h : s.store.IndexOk (storeCells s) →
    t.store.IndexOk (storeCells s)) : IndexKept s t := by
  refine ⟨fun hs => ?_⟩
  rw [indexOk_iff, storeCells_congr ha]
  exact h hs

theorem IndexKept.of_ap (hs : t.store = s.store) (ha : ap .store t = ap .store s) : IndexKept s t :=
  .of_indexOk ha (hs ▸ id)

theorem IndexKept.of_blocks (hs : t.store = s.store) (ha : t.aps = s.aps) : IndexKept s t := .of_ap hs (ap_congr ha _)

/-- What comes first leaves the store and the map. -/
theorem IndexKept.from_blocks {u : State} (h : IndexKept t u) (hs : t.store = s.store) (ha : t.aps = s.aps) :
    IndexKept s u := (IndexKept.of_blocks hs ha).trans h

theorem forEach_indexKept {α : Type} {f : α → State → State} (h : ∀ a t, IndexKept t (f a t)) (l : List α) :
    IndexKept s (forEach l f s) :=
  forEach_inv (.refl s) fun a _ t ht => ht.trans (h a t)

end

/-! ## Offers to the store (R120 to R125) -/

section
variable {s : State}

theorem refuseOffer_store (src : Option (Fin 4)) (frame : W32) (i : Fin 256) : (refuseOffer src frame i s).store =
    { s.store with
      state := .blocked (s.log.recs.get i).num, gaps := s.store.gaps + 1
      gapRuns := s.store.gapRuns.modify (gapSource src) (holdInc Config.hold16) } := by
  simp only [refuseOffer]
  split <;> simp

/-- A store that is not OFF goes on as a RUNNING one. -/
theorem resumeStore_store (h : s.store.state ≠ .off) : (resumeStore s).store = { s.store with state := .running } := by
  unfold resumeStore
  split
  · simp
  next hst => exact absurd hst h
  next hst => rw [← hst]

theorem offerStore_indexKept (h : s.store.state ≠ .off) (src : Option (Fin 4)) (frame : W32) (u : MUnit) :
    IndexKept s (offerStore src frame u s) := by
  refine .of_indexOk (ap_congr (by simp) _) fun hs => ?_
  unfold offerStore
  dsimp only
  split
  · rw [refuseOffer_store]
    exact Store.IndexOk.congr (st := s.store) rfl rfl nofun hs
  · have hcells : storeCells (resumeStore s) = storeCells s := storeCells_congr (ap_congr (by simp) _)
    have hrunning : ({ s.store with state := .running } : Store).IndexOk (storeCells s) :=
      Store.IndexOk.congr (st := s.store) rfl rfl nofun hs
    rw [storeUnit_store, hcells, resumeStore_store h]
    exact hrunning.stored (splitLeaving_append ..).symm StoreState.noConfusion _ _ _ _

theorem storeFrameStart_indexKept (l : Fin 4) (n : W32) : IndexKept s (storeFrameStart l n s) := by
  refine .of_indexOk (ap_congr (by simp) _) fun hs => ?_
  have hstore : (storeFrameStart l n s).store = { s.store with openMark := s.store.openMark.set l true } := by
    simp [storeFrameStart]
  rw [hstore]
  exact Store.IndexOk.congr (st := s.store) rfl rfl id hs

/-- A unit that becomes readable keeps its sequence, source and frame (R117). -/
theorem markReadable_indexKept (q : W32) : IndexKept s (markReadable q s) := by
  refine .of_indexOk (ap_congr (by simp) _) fun ⟨hnames, hlen, hoff⟩ => ⟨fun l x hx => ?_, hlen, fun h => ?_⟩
  · obtain ⟨e, he, u, hu, hseq, hsrc, hframe, hcell⟩ := hnames l x hx
    refine ⟨_, List.mem_map_of_mem he, if u.seq = q then { u with readable := true } else u, by rw [hu]; rfl, ?_⟩
    split <;> exact ⟨hseq, hsrc, hframe, hcell⟩
  · obtain ⟨hr, hi⟩ := hoff h
    refine ⟨?_, hi⟩
    show s.store.retained.map _ = []
    rw [hr]
    rfl

/-! ## Picture and sound (R35 to R40, R48, R89 to R92) -/

theorem offerLives_indexKept (ps : List (Fin 2)) (src : Fin 5) (u : MUnit) (s : State) :
    IndexKept s (ps.foldl (fun y p => offerLive src u p y) s) :=
  forEach_indexKept (fun p t => .of_blocks (by simp) (by simp)) ps

theorem offerRow_indexKept (l : Fin 4) (u : MUnit) : IndexKept s (offerRow l u s) := by
  generalize hx : (if (s.lanes.get l).record = true ∧ s.store.state ≠ .off then
      offerStore (some l) (s.lanes.get l).frameNo u s else s) = x
  have hstore : IndexKept s x := by
    rw [← hx]
    split
    next h => exact offerStore_indexKept h.2 _ _ _
    next => exact .refl s
  rw [offerRow_eq hx.symm]
  split
  · exact hstore.trans (offerLives_indexKept _ _ _ x)
  · exact hstore

theorem rowComplete_indexKept (l : Fin 4) (j : Nat) (row : List Byte) : IndexKept s (rowComplete l j row s) := by
  rw [rowComplete_eq rfl rfl]
  exact (offerRow_indexKept l _).from_blocks (by simp [chargedRow]) (by simp [chargedRow])

theorem feedRows_indexKept (l : Fin 4) (k : Nat) (d : List Byte) (s : State) : IndexKept s (feedRows l k d s) := by
  induction k generalizing d s with
  | zero => exact .refl s
  | succ k ih =>
    unfold feedRows
    split
    next g slot expected j part _ _ =>
      have hnext (off : Nat) (row : List Byte) : IndexKept s (nextRow l slot off j row s) :=
        (rowComplete_indexKept l j row).trans (.of_blocks rfl rfl)
      dsimp only
      split
      · exact .of_blocks rfl rfl
      · split
        · exact (rowComplete_indexKept l j _).trans (.of_blocks rfl rfl)
        · exact (hnext _ _).trans (ih _ _)
    next => exact .refl s

theorem frameStart_indexKept (l : Fin 4) (slot off : Nat) (d : List Byte) (s : State) :
    IndexKept s (frameStart l slot off d s) := by
  have hannounced : IndexKept s (frameStarted l slot off s) :=
    (storeFrameStart_indexKept l s.clock.frame).from_blocks (by simp [inFrameFrom]) (by simp [inFrameFrom])
  exact hannounced.trans (feedRows_indexKept l _ d _)

theorem takePicture_indexKept (l : Fin 4) (off : Nat) (d : List Byte) (s : State) :
    IndexKept s (takePicture l off d s) := by
  have habandon (r : SkewReason) (x j : Nat) : IndexKept s (abandon l r x off j s) := .of_blocks (by simp) (by simp)
  unfold takePicture
  dsimp only
  split
  · exact .refl s
  · exact .refl s
  · split
    · exact .of_blocks (by simp) (by simp)
    · split
      · exact frameStart_indexKept ..
      · exact .of_blocks rfl rfl
  · split
    · exact habandon _ _ _
    · split
      · exact feedRows_indexKept ..
      · split
        · exact (habandon _ _ _).trans (frameStart_indexKept ..)
        · exact habandon _ _ _

theorem closeUnit_indexKept (a : Accumulator) (restart : Bool) : IndexKept s (closeUnit a restart s) := by
  rw [closeUnit_eq rfl rfl]
  refine IndexKept.trans ?_ (offerLives_indexKept _ _ _ _)
  split
  next => exact .of_blocks rfl rfl
  next h => 
    exact (offerStore_indexKept (s := { s with snd := { s.snd with acc := none, restart := restart } }) h none a.frame
      a.toUnit).from_blocks rfl rfl

theorem mixerTick_indexKept (pos : Nat) (opening : Bool) : IndexKept s (mixerTick pos opening s) := by
  have hmixed : IndexKept s (mixedAt pos opening s) :=
    .of_blocks (by simp [mixedAt_eq, mixedBefore, inputsSettled_eq, apply_ite]) (by simp [mixedAt_eq, mixedBefore, inputsSettled_eq, apply_ite])
  rw [mixerTick_eq]
  refine hmixed.trans ?_
  generalize mixedAt pos opening s = v
  unfold accumulate
  split
  · exact .of_blocks rfl rfl
  · dsimp only
    split
    · exact closeUnit_indexKept _ _
    · exact .of_blocks rfl rfl

/-! ## Acceptance and joining (R1, R10, R12) -/

theorem handWrite_indexKept (f : Fn) (off : Nat) (i : Fin 16) (d : List Byte) : IndexKept s (handWrite f off i d s) := by
  cases f with
  | picture l => exact takePicture_indexKept l off d s
  | notices =>
    simp only [handWrite]
    split
    · exact .of_blocks (by simp) (by simp)
    · exact .refl s
  | _ => exact .of_blocks (by simp [handWrite]) (by simp [handWrite])

theorem takePiece_indexKept (p : Piece) (s : State) : IndexKept s (takePiece p s) := by
  unfold takePiece
  split
  · split
    · exact .refl s
    · exact .of_ap rfl rfl
  · dsimp only
    split
    · exact (handWrite_indexKept _ _ _ _).from_blocks rfl rfl
    · exact .of_blocks rfl rfl

theorem acceptRequest_indexKept (r : Request) (s : State) : IndexKept s (acceptRequest r s) :=
  IndexKept.from_blocks (forEach_indexKept takePiece_indexKept _) (by simp) (by simp)

theorem acceptHeld_indexKept (s : State) : IndexKept s (acceptHeld s) := by
  refine acceptHeld_inv (.refl s) fun r rest t ht => ht.trans ?_
  exact (acceptRequest_indexKept r _).from_blocks rfl rfl

theorem joinOne_indexKept : IndexKept s (joinOne s) := by
  have heffect (e : JoinEffect) (t : State) : IndexKept t (joinEffect e t) := by
    cases e with
    | readable q => exact markReadable_indexKept q
    | _ => exact .of_blocks rfl rfl
  unfold joinOne joinFrom
  split
  · split
    · exact .refl s
    · split
      · exact .refl s
      · exact (heffect _ _).from_blocks rfl rfl
  · exact .refl s

/-! ## Ticks (R9, R16) -/

theorem runAct_indexKept (o : Opening) (a : TickAct) (s : State) : IndexKept s (runAct o a s) := by
  cases a with
  | mixer =>
    simp only [runAct]
    exact mixerTick_indexKept _ _
  | guards => exact .of_ap (by simp [runAct]) (ap_of_map (runAct_map o .guards s) _)
  | midnight | cues =>
    simp only [runAct]
    split <;> exact .of_blocks (by simp) (by simp)
  | _ => exact .of_blocks (by simp [runAct]) (by simp [runAct])

theorem tick_indexKept (i : TickIn) : IndexKept s (tick i s) := by
  have hopen : IndexKept s (openFrame (s.setLevels i.levels)) := .of_blocks (by simp) (by simp)
  have hacts : IndexKept s (forEach (schedule (decide (s.clock.pos = 0)) i.order) (runAct (openingOf s))
      (openFrame (s.setLevels i.levels))) := hopen.trans (forEach_indexKept (runAct_indexKept _) _)
  exact hacts.trans (.of_blocks (State.modClock_store ..) (State.modClock_aps ..))

theorem tickWhen_indexKept (b : Bool) (i : TickIn) : IndexKept s (tickWhen b i s) := by
  cases b with
  | false => exact .refl s
  | true => exact tick_indexKept i

/-! ## The host's commands (R5, R7, R87, R118, R119, R130) -/

theorem carryOut_indexKept {p : Nat → Bool} {f : Command → State → State × Result}
    (h : ∀ c, IndexKept s (f c s).1) : IndexKept s (carryOut p f s) :=
  carryOut_keeps (.refl s) h fun _ _ _ ht => ht.trans (.of_blocks rfl rfl)

/-- The map entry of a function that is not running is replaced; only that of STORE matters, and then the store is OFF. -/
theorem setEntry_indexKept {f : Fn} (h : f.running s = false) (e : Option Aperture) {t : State}
    (hs : t.store = s.store) (ha : ∀ g, ap g t = ap g (setEntry f e s)) : IndexKept s t := by
  by_cases hf : f = .store
  · subst hf
    have hoff : s.store.state = .off := by simpa [Fn.running] using h
    refine ⟨fun hok => ?_⟩
    rw [indexOk_iff, hs]
    exact Store.IndexOk.of_off hoff hok _
  · refine .of_ap hs ?_
    rw [ha, ap_setEntry, if_neg hf]

/-- The block that owns a movable function leaves the map and the store alone when it is SET (R6). -/
theorem restartOwner_store (f : Fn) (base : Nat) (u : State) :
    (restartOwner f base u).store = u.store ∧ (restartOwner f base u).aps = u.aps := by
  cases f <;> simp [restartOwner]

theorem setAperture_indexKept (c : Command) : IndexKept s (setAperture c s).1 := by
  unfold setAperture
  split
  · exact .refl s
  next f _ =>
    unfold setApertureOf
    split
    · exact .refl s
    split
    · exact .refl s
    split
    · exact .refl s
    split
    · exact .refl s
    next hr =>
      split
      · exact .refl s
      · obtain ⟨hs, ha⟩ := restartOwner_store f (c.field 8 8)
          (setEntry f (some ⟨c.field 8 8, c.field 16 8⟩) (leaveRange f s))
        refine setEntry_indexKept (by simpa using hr) (some ⟨c.field 8 8, c.field 16 8⟩) (hs.trans (by simp)) fun g => ?_
        rw [ap_congr ha, ap_setEntry, ap_setEntry, ap_congr (s := s) (by simp)]

theorem clearAperture_indexKept (c : Command) : IndexKept s (clearAperture c s).1 := by
  unfold clearAperture
  split
  · exact .refl s
  next f _ =>
    split
    · exact .refl s
    next hr =>
      split
      · exact .refl s
      · refine setEntry_indexKept (by simpa using hr) none ?_ fun g => ?_
        · dsimp only
          split <;> simp
        · dsimp only
          split <;> rfl

theorem setBus_indexKept (c : Command) : IndexKept s (setBus c s).1 := by
  unfold setBus
  split
  · exact .refl s
  · exact .refl s
  · exact .refl s
  · exact .refl s
  · unfold writeBus
    dsimp only
    split
    · exact .of_blocks rfl rfl
    · split
      · exact .of_blocks rfl rfl
      · exact (closeUnit_indexKept _ _).from_blocks rfl rfl

/-- The store enabled, disabled or emptied retains nothing (R118, R119, R130). -/
theorem emptied_indexKept {t : State} (hr : t.store.retained = []) (hi : t.store.index = Table.fill 4 []) :
    IndexKept s t :=
  ⟨fun _ => Store.IndexOk.of_empty (st := t.store) hr fun l => by rw [hi, Table.get_fill]⟩

theorem setStore_indexKept (c : Command) : IndexKept s (setStore c s).1 := by
  unfold setStore
  split
  · exact .refl s
  · (repeat' split)
    · exact .refl s
    · exact emptied_indexKept (by simp [enableStore]) (by simp [enableStore])
    · exact .refl s
    · exact .refl s
    · exact emptied_indexKept (by simp [disableStore]) (by simp [disableStore])

theorem clearStore_indexKept : IndexKept s (clearStore s) := by
  have hresumed (u : State) : (resumeStore u).store.retained = u.store.retained ∧ (resumeStore u).store.index = u.store.index := by
    unfold resumeStore
    split <;> simp
  unfold clearStore
  split
  · exact .refl s
  · obtain ⟨hr, hi⟩ := hresumed (storeHeaderWrite ((loseAll (dropHold byStore s)).modStore fun st =>
      { st with retained := [], index := Table.fill 4 [], openMark := Table.fill 4 false, gapRuns := Table.fill 5 0,
                head := 0, nextSeq := 0, epoch := st.epoch + 1 }))
    exact emptied_indexKept (hr.trans (by simp)) (hi.trans (by simp))

theorem clearMedia_indexKept (c : Command) : IndexKept s (clearMedia c s).1 := by
  have hends : IndexKept s (endEntries .cleared true (fun _ => true) s) := .of_blocks (by simp) (by simp)
  exact (hends.trans clearStore_indexKept).trans (.of_blocks (by simp [clearMedia]) (by simp [clearMedia]))

/-! ## Resets and the start-up load (R14, R15, R172) -/

theorem endLoad_indexKept (r : LoadResult) (n : Nat) (b : BitVec 12) : IndexKept s (endLoad r n b s) := by
  refine .of_ap (by simp) ?_
  have hmap : (endLoad r n b s).aps.map = s.aps.map.set Fn.commands.num (some ⟨s.ctl.cmdBase, 4096⟩) := by
    simp [endLoad]
  rw [ap, hmap]
  exact Table.get_set_ne _ _ (by decide)

theorem loadEntry_indexKept (i : Nat) (last : Option Nat) (e : Option (BitVec 64)) (b : BitVec 12) :
    IndexKept s (loadEntry i last e b s) := by
  have hnext (tag d : Nat) (f : Control → Control) : IndexKept s ((applyEntry tag d s).modCtl f) :=
    .of_blocks (by simp) (by simp)
  cases e with
  | none =>
    simp only [loadEntry]
    split <;> exact endLoad_indexKept _ _ _
  | some e =>
    simp only [loadEntry]
    split
    · exact endLoad_indexKept _ _ _
    split
    · exact endLoad_indexKept _ _ _
    split
    · exact endLoad_indexKept _ _ _
    split
    · exact hnext _ _ _
    · exact (hnext _ _ _).trans (endLoad_indexKept _ _ _)

theorem powerOnReset_indexOk {b : Bool} {t : State} (ht : exec (.powerOnReset b) s = .next t) : Safety.IndexOk t := by
  have hreset : Safety.IndexOk (({ State.reset with pending := s.pending, dram := s.dram, epIn := s.epIn } : State).modCtl
      fun c => { c with cfgsel := b }) := reset_indexOk
  cases ht
  cases b with
  | true => exact hreset
  | false => exact (endLoad_indexKept .none 0 s.epIn).keeps hreset

/-! ## Every step (R125) -/

theorem exec_indexKept {c : Instr} {t : State} (ht : exec c s = .next t) : IndexKept s t := by
  cases c with
  | powerOnReset b => exact ⟨fun _ => powerOnReset_indexOk ht⟩
  | linkReset =>
    rw [exec_linkReset_eq] at ht
    cases ht
    exact .of_blocks (by simp [linkResetBlocks]) (by simp [linkResetBlocks])
  | configEntryRead e b =>
    cases hl : s.ctl.loader with
    | reading i last =>
      rw [exec_configEntryRead_reading e b hl] at ht
      cases ht
      exact (loadEntry_indexKept i last e b).trans (acceptHeld_indexKept _)
    | ended =>
      rw [exec_configEntryRead_ended e b hl] at ht
      cases ht
      exact .refl s
  | requestAccept r =>
    rw [exec_requestAccept_next ht]
    exact (acceptHeld_indexKept _).from_blocks rfl rfl
  | downstreamGrant | linkUp =>
    cases ht
    exact (acceptHeld_indexKept _).from_blocks (by simp) (by simp)
  | insertQueueJoin => cases ht; exact joinOne_indexKept
  | sampleTick i => cases ht; exact tickWhen_indexKept true i
  | frameTick | frameCountWrap | midnight | refLost | soundSilent | soundUnitClose | markConfirm | stall | cueFiring =>
    cases ht
    exact tickWhen_indexKept _ _
  | setAperture => cases ht; exact (carryOut_indexKept setAperture_indexKept).trans (acceptHeld_indexKept _)
  | clearAperture => cases ht; exact (carryOut_indexKept clearAperture_indexKept).trans (acceptHeld_indexKept _)
  | setBus => cases ht; exact carryOut_indexKept setBus_indexKept
  | setStore => cases ht; exact carryOut_indexKept setStore_indexKept
  | clearMedia => cases ht; exact carryOut_indexKept clearMedia_indexKept
  | _ => cases ht; exact .of_blocks (by simp) (by simp)

end

/-- Settles O14: index entries leave with their units, a row's new entry names the row itself, and whatever else touches the
store either leaves what the entries name or empties the store. -/
theorem indexEntriesNameRetainedUnits : Obligations.IndexEntriesNameRetainedUnits :=
  keptByStep_of_exec (fun _ _ h => h) fun _ _ _ hs ht => (exec_indexKept ht).keeps hs

end Sys2Proof.Machine
end

section
/-! Clips made LOST in the order of their first units, and the units whose leaving does it (R122, R147, R148). -/

namespace Sys2Proof.Machine

open Sys2Proof.Safety

/-! ## Sorting keeps the order of equal keys -/

section
variable {α : Type} (key : α → Nat) {r : α → α → Prop}

/-- An entry goes in behind those of a lower or an equal key, and so behind the earlier ones of its own key. -/
theorem insertBy_stable {x : α} {l : List α} (hl : l.Pairwise fun a b => key a < key b ∨ (key a = key b ∧ r a b))
    (hx : ∀ y ∈ l, r y x) : (insertBy key x l).Pairwise fun a b => key a < key b ∨ (key a = key b ∧ r a b) := by
  induction l with
  | nil => exact List.pairwise_singleton _ _
  | cons y ys ih =>
    obtain ⟨hy, hys⟩ := List.pairwise_cons.1 hl
    obtain ⟨hyx, hx⟩ := List.forall_mem_cons.1 hx
    unfold insertBy
    split
    next hle =>
      refine List.pairwise_cons.2 ⟨fun z hz => ?_, ih hys hx⟩
      rcases (mem_insertBy key x z ys).1 hz with rfl | hz
      · exact (Nat.lt_or_eq_of_le hle).imp_right fun h => ⟨h, hyx⟩
      · exact hy z hz
    next hlt =>
      refine List.pairwise_cons.2 ⟨fun z hz => .inl ?_, hl⟩
      rcases List.mem_cons.1 hz with rfl | hz
      · omega
      · have := hy z hz
        omega

/-- Sorting by a key keeps the entries of equal keys in the order they had. -/
theorem sortBy_stable {l : List α} (hl : l.Pairwise r) :
    (sortBy key l).Pairwise fun a b => key a < key b ∨ (key a = key b ∧ r a b) := by
  suffices ∀ acc : List α, (acc.Pairwise fun a b => key a < key b ∨ (key a = key b ∧ r a b)) →
      (∀ y ∈ acc, ∀ x ∈ l, r y x) →
      (l.foldl (fun a x => insertBy key x a) acc).Pairwise fun a b => key a < key b ∨ (key a = key b ∧ r a b) from
    this [] List.Pairwise.nil nofun
  induction l with
  | nil => exact fun acc hacc _ => hacc
  | cons x l ih =>
    obtain ⟨hx, hl⟩ := List.pairwise_cons.1 hl
    intro acc hacc hbefore
    refine ih hl _ (insertBy_stable key hacc fun y hy => hbefore y hy x List.mem_cons_self) fun y hy z hz => ?_
    rcases (mem_insertBy key x y acc).1 hy with rfl | hy
    · exact hx z hz
    · exact hbefore y hy z (List.mem_cons_of_mem _ hz)

end

/-! ## The records in order of their first units (R122; log 16) -/

theorem dist_lt (a b : W32) : dist a b < 2 ^ 32 := (b - a).isLt

/-- The order of R122 as the statements say it. -/
theorem oldestFirst_of {seq : W32} {p : Clip → Bool} {P : Clip → Prop} (hp : ∀ R, p R = true ↔ P R) (s : State) :
    OldestFirst seq P s (oldestFirst seq s (recsWhere p s)) := by
  have hidx : (recsWhere p s).Pairwise (· < ·) := List.Pairwise.filter _ (List.pairwise_lt_finRange 256)
  refine ⟨fun i => ?_, ?_⟩
  · rw [oldestFirst, mem_sortBy, mem_recsWhere, hp]
  · refine (sortBy_stable (fun i => 2 ^ 32 - dist (s.log.recs.get i).firstSeq seq) hidx).imp fun {i j} h => ?_
    have hi := dist_lt (s.log.recs.get i).firstSeq seq
    have hj := dist_lt (s.log.recs.get j).firstSeq seq
    show dist (s.log.recs.get j).firstSeq seq < dist (s.log.recs.get i).firstSeq seq
      ∨ (dist (s.log.recs.get i).firstSeq seq = dist (s.log.recs.get j).firstSeq seq ∧ i < j)
    omega

theorem nodup_of_oldestFirst {seq : W32} {P : Clip → Prop} {s : State} {is : List (Fin 256)} (h : OldestFirst seq P s is) :
    is.Nodup := by
  refine h.2.imp fun {i j} hij he => ?_
  subst he
  rcases hij with hlt | ⟨-, hlt⟩
  · exact Nat.lt_irrefl _ hlt
  · exact lt_irrefl i hlt

/-- Whether R122 can make a clip LOST, as the statements say it. -/
theorem losable_iff (R : Clip) : R.losable = true ↔
    R.first.isSome = true ∧ (R.state = .opened ∨ R.state = .closed ∨ R.state = .sent) := by
  simp [Clip.losable, or_assoc]

/-! ## One clip LOST (R122, R147) -/

theorem loseClip_eq (i : Fin 256) (s : State) : loseClip i s = lostAt i s := by
  simp only [loseClip, lostAt]
  split <;> rfl

theorem writeRecord_log (i : Fin 256) (s : State) : (writeRecord i s).log = s.log := by simp

/-- The log after a record has been mirrored: its revision has risen (R148). -/
theorem mirror_log (i : Fin 256) (s : State) :
    (mirror i s).log = { s.log with recs := s.log.recs.modify i fun c => { c with rev := c.rev + 1 } } := by
  rw [mirror, writeRecord_log]
  rfl

theorem revised_set (t : Table Clip 256) (i : Fin 256) (X : Clip) :
    (t.set i X).modify i (fun c => { c with rev := c.rev + 1 }) = t.set i { X with rev := X.rev + 1 } := by
  refine Table.ext_get fun j => ?_
  rw [Table.get_modify, Table.get_set, Table.get_set]
  split <;> rfl

/-- The log after a clip has been made LOST. -/
theorem lostAt_log (i : Fin 256) (s : State) : (lostAt i s).log = { s.log with
    recs := s.log.recs.modify i lostClip
    opens := if (s.log.recs.get i).state = .opened then s.log.opens.set (s.log.recs.get i).source none
      else s.log.opens } := by
  simp only [lostAt, mirror_log, raise_frame, revised_set]
  rfl

/-! ## Several clips LOST, one after another -/

theorem foldl_lostAt_recs (is : List (Fin 256)) (s : State) : (is.foldl (fun y i => lostAt i y) s).log.recs
    = is.foldl (fun u i => u.modify i lostClip) s.log.recs := by
  induction is generalizing s with
  | nil => rfl
  | cons i is ih => rw [List.foldl_cons, ih, lostAt_log, List.foldl_cons]

section
variable {is : List (Fin 256)} (hn : is.Nodup) (s : State)
include hn

/-- Each of the records named is LOST, and the others are as before. -/
theorem foldl_lostAt_get (j : Fin 256) : (is.foldl (fun y i => lostAt i y) s).log.recs.get j
    = if j ∈ is then lostClip (s.log.recs.get j) else s.log.recs.get j := by
  rw [foldl_lostAt_recs, Table.get_foldl_modify (fun _ => lostClip) hn]

/-- A pointer is clear when an OPEN clip of its input has been made LOST, and as before otherwise. -/
theorem foldl_lostAt_opens (m : Fin 4) :
    ((∃ i ∈ is, (s.log.recs.get i).state = .opened ∧ (s.log.recs.get i).source = m) →
      (is.foldl (fun y i => lostAt i y) s).log.opens.get m = none)
    ∧ ((∀ i ∈ is, (s.log.recs.get i).state = .opened → (s.log.recs.get i).source ≠ m) →
      (is.foldl (fun y i => lostAt i y) s).log.opens.get m = s.log.opens.get m) := by
  induction is generalizing s with
  | nil => exact ⟨nofun, fun _ => rfl⟩
  | cons i is ih =>
    obtain ⟨hi, hn⟩ := List.nodup_cons.1 hn
    obtain ⟨hclear, hkeep⟩ := ih hn (lostAt i s)
    have hrec (j : Fin 256) (hj : j ∈ is) : (lostAt i s).log.recs.get j = s.log.recs.get j := by
      rw [lostAt_log]
      exact Table.get_modify_ne _ _ fun h => hi (h ▸ hj)
    have hopens : (lostAt i s).log.opens.get m = if (s.log.recs.get i).state = .opened ∧ (s.log.recs.get i).source = m
        then none else s.log.opens.get m := by
      rw [lostAt_log]
      dsimp only
      by_cases ho : (s.log.recs.get i).state = .opened
      · rw [if_pos ho, Table.get_set]
        simp [ho]
      · rw [if_neg ho, if_neg fun h => ho h.1]
    refine ⟨fun ⟨j, hj, hjo⟩ => ?_, fun h => ?_⟩
    · by_cases hrest : ∃ k ∈ is, (s.log.recs.get k).state = .opened ∧ (s.log.recs.get k).source = m
      · obtain ⟨k, hk, hko⟩ := hrest
        exact hclear ⟨k, hk, by rwa [hrec k hk]⟩
      · have hij : j = i := (List.mem_cons.1 hj).resolve_right fun hj => hrest ⟨j, hj, hjo⟩
        refine (hkeep fun k hk hko hkm => hrest ⟨k, hk, ?_⟩).trans ?_
        · rw [hrec k hk] at hko hkm
          exact ⟨hko, hkm⟩
        · rw [hopens, if_pos (hij ▸ hjo)]
    · obtain ⟨hhead, htail⟩ := List.forall_mem_cons.1 h
      refine (hkeep fun k hk => ?_).trans ?_
      · rw [hrec k hk]
        exact htail k hk
      · rw [hopens, if_neg fun h => hhead h.1 h.2]

end

/-- What several losses leave of the log. -/
theorem foldl_lostAt_log (is : List (Fin 256)) (s : State) : (is.foldl (fun y i => lostAt i y) s).log = { s.log with
    recs := (is.foldl (fun y i => lostAt i y) s).log.recs, opens := (is.foldl (fun y i => lostAt i y) s).log.opens } := by
  induction is generalizing s with
  | nil => rfl
  | cons i is ih =>
    rw [List.foldl_cons, ih, lostAt_log]

/-! ## The clips that leaving units make LOST (R122) -/

/-- The leaving of units of the sequences `qs` makes a clip LOST. -/
def LostTo (qs : List W32) (R : Clip) : Prop :=
  (R.state = .opened ∨ R.state = .closed ∨ R.state = .sent)
    ∧ ∃ f, R.first = some f ∧ ∃ q ∈ qs, atOrBefore f.1 q = true

theorem lostTo_cons {q : W32} {qs : List W32} {R : Clip} : LostTo (q :: qs) R ↔ LostTo [q] R ∨ LostTo qs R := by
  simp only [LostTo, List.mem_cons, List.not_mem_nil, or_false]
  constructor
  · rintro ⟨hst, f, hf, x, rfl | hx, hle⟩
    · exact .inl ⟨hst, f, hf, x, rfl, hle⟩
    · exact .inr ⟨hst, f, hf, x, hx, hle⟩
  · rintro (⟨hst, f, hf, x, rfl, hle⟩ | ⟨hst, f, hf, x, hx, hle⟩)
    · exact ⟨hst, f, hf, x, .inl rfl, hle⟩
    · exact ⟨hst, f, hf, x, .inr hx, hle⟩

theorem not_lostTo_lostClip (qs : List W32) (R : Clip) : ¬LostTo qs (lostClip R) := by
  rintro ⟨h | h | h, -⟩ <;> cases h

theorem not_lostTo_nil (R : Clip) : ¬LostTo [] R := by
  rintro ⟨-, f, -, q, hq, -⟩
  cases hq

/-- The clips of one leaving unit, as `LostBy` names them. -/
theorem lostBy_cons_iff {q : W32} {qs : List W32} {s t : State} :
    LostBy (q :: qs) s t ↔ ∃ is, OldestFirst q (LostTo [q]) s is ∧ LostBy qs (is.foldl (fun y i => lostAt i y) s) t := by
  have hP : (fun R : Clip => (R.state = .opened ∨ R.state = .closed ∨ R.state = .sent)
      ∧ ∃ f, R.first = some f ∧ atOrBefore f.1 q = true) = LostTo [q] := by
    funext R
    simp [LostTo]
  rw [LostBy, hP]

/-- The leaving of units is told by the clips that it makes LOST. -/
theorem lostBy_get {qs : List W32} {s t : State} (h : LostBy qs s t) (j : Fin 256) :
    (LostTo qs (s.log.recs.get j) → t.log.recs.get j = lostClip (s.log.recs.get j))
      ∧ (¬LostTo qs (s.log.recs.get j) → t.log.recs.get j = s.log.recs.get j) := by
  induction qs generalizing s with
  | nil =>
    obtain rfl : t = s := h
    exact ⟨fun h => absurd h (not_lostTo_nil _), fun _ => rfl⟩
  | cons q qs ih =>
    obtain ⟨is, his, h⟩ := lostBy_cons_iff.1 h
    have hget := foldl_lostAt_get (nodup_of_oldestFirst his) s j
    obtain ⟨hlost, hkept⟩ := ih h
    rw [lostTo_cons]
    by_cases hj : LostTo [q] (s.log.recs.get j)
    · rw [if_pos ((his.1 j).2 hj)] at hget
      rw [hget] at hkept
      exact ⟨fun _ => hkept (not_lostTo_lostClip _ _), fun hno => absurd (.inl hj) hno⟩
    · rw [if_neg fun hmem => hj ((his.1 j).1 hmem)] at hget
      rw [hget] at hlost hkept
      exact ⟨fun hor => hlost (hor.resolve_left hj), fun hno => hkept fun h => hno (.inr h)⟩

theorem lostBy_opens {qs : List W32} {s t : State} (h : LostBy qs s t) (m : Fin 4) :
    ((∃ j, LostTo qs (s.log.recs.get j) ∧ (s.log.recs.get j).state = .opened ∧ (s.log.recs.get j).source = m) →
      t.log.opens.get m = none)
    ∧ ((∀ j, LostTo qs (s.log.recs.get j) → (s.log.recs.get j).state = .opened → (s.log.recs.get j).source ≠ m) →
      t.log.opens.get m = s.log.opens.get m) := by
  induction qs generalizing s with
  | nil =>
    obtain rfl : t = s := h
    exact ⟨fun ⟨j, hj, _⟩ => absurd hj (not_lostTo_nil _), fun _ => rfl⟩
  | cons q qs ih =>
    obtain ⟨is, his, h⟩ := lostBy_cons_iff.1 h
    obtain ⟨hclear, hkeep⟩ := ih h
    obtain ⟨hclear', hkeep'⟩ := foldl_lostAt_opens (nodup_of_oldestFirst his) s m
    have hget := foldl_lostAt_get (nodup_of_oldestFirst his) s
    have hother {j : Fin 256} (hj : LostTo qs ((is.foldl (fun y i => lostAt i y) s).log.recs.get j)) :
        (is.foldl (fun y i => lostAt i y) s).log.recs.get j = s.log.recs.get j := by
      rw [hget] at hj ⊢
      split at hj
      · exact absurd hj (not_lostTo_lostClip _ _)
      next hmem => exact if_neg hmem
    by_cases hnow : ∃ j, LostTo qs ((is.foldl (fun y i => lostAt i y) s).log.recs.get j)
        ∧ ((is.foldl (fun y i => lostAt i y) s).log.recs.get j).state = .opened
        ∧ ((is.foldl (fun y i => lostAt i y) s).log.recs.get j).source = m
    · refine ⟨fun _ => hclear hnow, fun hno => ?_⟩
      obtain ⟨j, hj, ho, hm⟩ := hnow
      have hsame := hother hj
      rw [hsame] at hj ho hm
      exact absurd hm (hno j (lostTo_cons.2 (.inr hj)) ho)
    · have hlater := hkeep fun j hj ho hm => hnow ⟨j, hj, ho, hm⟩
      refine ⟨fun ⟨j, hj, ho, hm⟩ => ?_, fun hno => ?_⟩
      · refine hlater.trans (hclear' ⟨j, ?_, ho, hm⟩)
        by_contra hmem
        have hsame := (hget j).trans (if_neg hmem)
        have hjq : LostTo qs (s.log.recs.get j) :=
          (lostTo_cons.1 hj).resolve_left fun h => hmem ((his.1 j).2 h)
        exact hnow ⟨j, by rw [hsame]; exact ⟨hjq, ho, hm⟩⟩
      · exact hlater.trans (hkeep' fun j hj => hno j (lostTo_cons.2 (.inl ((his.1 j).1 hj))))

theorem lostBy_log {qs : List W32} {s t : State} (h : LostBy qs s t) :
    t.log = { s.log with recs := t.log.recs, opens := t.log.opens } := by
  induction qs generalizing s with
  | nil =>
    obtain rfl : t = s := h
    rfl
  | cons q qs ih =>
    obtain ⟨is, -, h⟩ := lostBy_cons_iff.1 h
    refine (ih h).trans ?_
    rw [foldl_lostAt_log]

end Sys2Proof.Machine
end

section
/-! An offer to the store: refused, or stored over the oldest entries (R117, R120 to R125, R127, R147). The notices, the
mirror writes and the clips' changes that it makes look neither at the store nor at its hold, so they are told apart from
what becomes of these two. -/

namespace Sys2Proof.Machine

open Sys2Proof.Safety

/-! ## What does not look at the store and its hold -/

/-- The state `s` with another store, and with other entries in the store's hold. -/
def atStore (st : Store) (h : List InsEntry) (s : State) : State :=
  { s with store := st, ins := { s.ins with holds := s.ins.holds.set 3 h } }

theorem atStore_of_hold {st : Store} {h : List InsEntry} {s : State} (hs : s.ins.holds.get 3 = h) :
    atStore st h s = { s with store := st } := by
  have hsame : s.ins.holds.set 3 h = s.ins.holds := by
    refine Table.ext_get fun b => ?_
    rw [Table.get_set]
    split
    next hb => rw [← hb, hs]
    next => rfl
  rw [atStore, hsame]

theorem atStore_self (s : State) : atStore s.store (s.ins.holds.get 3) s = s := atStore_of_hold rfl

section
variable (st : Store) (h : List InsEntry) (s : State)

@[simp] theorem atStore_store : (atStore st h s).store = st := rfl
@[simp] theorem atStore_log : (atStore st h s).log = s.log := rfl
@[simp] theorem atStore_ctl : (atStore st h s).ctl = s.ctl := rfl
@[simp] theorem atStore_clock : (atStore st h s).clock = s.clock := rfl
@[simp] theorem atStore_aps : (atStore st h s).aps = s.aps := rfl
@[simp] theorem atStore_hold : (atStore st h s).ins.holds.get 3 = h := Table.get_set_self ..

theorem atStore_modStore (g : Store → Store) : (atStore st h s).modStore g = atStore (g st) h s := rfl

theorem atStore_pushAll (es : List InsEntry) : pushAll byStore es (atStore st h s) = atStore st (h ++ es) s := by
  have hholds : (s.ins.holds.set 3 h).modify 3 (· ++ es) = s.ins.holds.set 3 (h ++ es) := by
    refine Table.ext_get fun b => ?_
    rw [Table.get_modify, Table.get_set, Table.get_set]
    split <;> rfl
  show { s with store := st, ins := { s.ins with holds := (s.ins.holds.set 3 h).modify 3 (· ++ es) } } = _
  rw [hholds]
  rfl

end

/-- Work that looks neither at the store nor at its hold, and changes neither. -/
def OffStore (f : State → State) : Prop := ∀ st h s, f (atStore st h s) = atStore st h (f s)

theorem OffStore.store {f : State → State} (hf : OffStore f) (s : State) : (f s).store = s.store := by
  rw [← atStore_self s, hf]
  rfl

theorem OffStore.hold {f : State → State} (hf : OffStore f) (s : State) : (f s).ins.holds.get 3 = s.ins.holds.get 3 := by
  rw [← atStore_self s, hf, atStore_hold, atStore_hold]

theorem OffStore.forEach {α : Type} {f : α → State → State} (hf : ∀ i, OffStore (f i)) (l : List α) :
    OffStore (forEach l f) := by
  intro st h s
  induction l generalizing s with
  | nil => rfl
  | cons i l ih => rw [forEach_cons, hf, ih, forEach_cons]

/-- Entries of another block. -/
theorem pushAll_offStore {b : Fin 6} (hb : b ≠ 3) (es : List InsEntry) : OffStore (pushAll b es) := by
  intro st h s
  have hholds : (s.ins.holds.set 3 h).modify b (· ++ es) = (s.ins.holds.modify b (· ++ es)).set 3 h := by
    refine Table.ext_get fun k => ?_
    rw [Table.get_modify, Table.get_set, Table.get_set, Table.get_modify]
    by_cases h3 : 3 = k
    · subst h3
      simp [hb]
    · rw [if_neg h3, if_neg h3]
  simp only [pushAll, atStore, State.modIns, hholds]

theorem modCtl_offStore (f : Control → Control) : OffStore (State.modCtl f) := fun _ _ _ => rfl
theorem modLog_offStore (f : ClipLog → ClipLog) : OffStore (State.modLog f) := fun _ _ _ => rfl
theorem modRec_offStore (i : Fin 256) (f : Clip → Clip) : OffStore (State.modRec i f) := fun _ _ _ => rfl

theorem raise_offStore (k : NoticeKind) (j : Nat) (d : List Item) : OffStore (raise k j d) := by
  intro st h s
  have hap : ap .notices (atStore st h s) = ap .notices s := rfl
  simp only [raise, raiseAt, hap]
  cases ap .notices s with
  | none => rfl
  | some a =>
    dsimp only
    rw [atStore_ctl, pushAll_offStore (by decide)]
    split <;> rfl

theorem writeRecord_offStore (i : Fin 256) : OffStore (writeRecord i) := by
  intro st h s
  have hap : ap .log (atStore st h s) = ap .log s := rfl
  simp only [writeRecord, hap]
  cases ap .log s with
  | none => rfl
  | some a => exact pushAll_offStore (by decide) _ st h s

theorem mirror_offStore (i : Fin 256) : OffStore (mirror i) := by
  intro st h s
  simp only [mirror]
  rw [modRec_offStore, writeRecord_offStore]

theorem changeRec_offStore (i : Fin 256) (f : Clip → Clip) : OffStore (changeRec i f) := by
  intro st h s
  simp only [changeRec]
  rw [modRec_offStore, mirror_offStore]

theorem lostAt_offStore (i : Fin 256) : OffStore (lostAt i) := by
  intro st h s
  have hlog (g : ClipLog) : { atStore st h s with log := g } = atStore st h { s with log := g } := rfl
  simp only [lostAt, atStore_log, hlog]
  rw [raise_offStore, mirror_offStore]
  rfl

theorem foldl_lostAt_offStore (is : List (Fin 256)) : OffStore fun s => is.foldl (fun y i => lostAt i y) s :=
  OffStore.forEach lostAt_offStore is

/-- The changes that pick their records by what these hold. -/
theorem changeRecs_offStore (P : Clip → Bool) (f : Clip → Clip) :
    OffStore fun s => forEach (recsWhere P s) (changeRec · f) s := fun st h s =>
  OffStore.forEach (fun i => changeRec_offStore i f) (recsWhere P s) st h s

theorem tallyRows_offStore (l : Fin 4) (frame : W32) : OffStore (tallyRows l frame) := modLog_offStore _

/-! ## Changes of records that differ only in how they are written -/

/-- Changes that agree on the records changed are one. -/
theorem changedWhere_congr {P Q : Clip → Bool} {f g : Clip → Clip} (hP : ∀ R, P R = Q R)
    (h : ∀ R, Q R = true → { f R with rev := R.rev + 1 } = { g R with rev := R.rev + 1 }) (s : State) :
    changedWhere P f s = changedWhere Q g s := by
  obtain rfl : P = Q := funext hP
  have hclip : (fun R => if P R = true then { f R with rev := R.rev + 1 } else R)
      = fun R => if P R = true then { g R with rev := R.rev + 1 } else R := by
    funext R
    split
    next hR => exact h R hR
    next => rfl
  unfold changedWhere
  rw [hclip]

/-! ## Clips marked GAP (R123) -/

theorem markGaps_eq (src : Option (Fin 4)) (frame : W32) (s : State) : markGaps src frame s = gapsMarked src frame s := by
  rw [markGaps, forEach_recsWhere _ (f := fun c => { c with gap := true }) (fun _ => rfl), gapsMarked]
  refine changedWhere_congr (fun R => ?_) (fun _ _ => rfl) s
  have htakes : R.takesGap src frame = (R.last.isNone && atOrBefore R.inFrame frame
      && (decide (R.state = .opened) || (decide (R.state = .closed) && R.endPending))
      && src.all fun l => decide (R.source = l)) := by
    cases src <;> rfl
  rw [htakes]
  cases R.gap <;> simp

theorem markGaps_offStore (src : Option (Fin 4)) (frame : W32) : OffStore (markGaps src frame) :=
  changeRecs_offStore _ _

/-- A clip takes GAP with a refused unit (R123). -/
theorem gapsMarked_get (src : Option (Fin 4)) (frame : W32) (s : State) (j : Fin 256) {R : Clip}
    (hR : R = s.log.recs.get j) {gap : Prop} (hgap : gap ↔ R.last = none ∧ atOrBefore R.inFrame frame = true
      ∧ (R.state = .opened ∨ (R.state = .closed ∧ R.endPending = true)) ∧ (∀ l, src = some l → R.source = l)
      ∧ R.gap = false) :
    (gap → (gapsMarked src frame s).log.recs.get j = { R with gap := true, rev := R.rev + 1 })
      ∧ (¬gap → (gapsMarked src frame s).log.recs.get j = R) := by
  have hsrc : (src.all fun l => decide (R.source = l)) = true ↔ ∀ l, src = some l → R.source = l := by
    cases src <;> simp
  have hP : (R.last.isNone && atOrBefore R.inFrame frame && !R.gap
      && (decide (R.state = .opened) || (decide (R.state = .closed) && R.endPending))
      && src.all fun l => decide (R.source = l)) = true ↔ gap := by
    rw [hgap, Bool.and_eq_true, hsrc]
    simp only [Bool.and_eq_true, Bool.or_eq_true, decide_eq_true_eq, Bool.not_eq_true', Option.isNone_iff_eq_none]
    tauto
  rw [gapsMarked, changedWhere_get, ← hR]
  exact ⟨fun h => if_pos (hP.2 h), fun h => if_neg (mt hP.1 h)⟩

/-! ## The offer that is refused (R123) -/

/-- The store after a refused offer: BLOCKED by a clip, one more gap in all and from its source. -/
def Store.refusing (src : Option (Fin 4)) (num : Nat) (st : Store) : Store :=
  { st with
    state := .blocked num, gaps := st.gaps + 1, gapRuns := st.gapRuns.modify (gapSource src) (holdInc Config.hold16) }

/-- The gap marks, and then the notice of a store that was RUNNING (log 52). -/
def refusalNoted (src : Option (Fin 4)) (frame : W32) (num : Nat) (s : State) : State :=
  if s.store.state = .running then
    raise .storeBlocked 0 ([b2 num] ++ refusedItems src ++ [b4 (s.store.gaps + 1).toNat]) (gapsMarked src frame s)
  else gapsMarked src frame s

theorem refusalNoted_hold (src : Option (Fin 4)) (frame : W32) (num : Nat) (s : State) :
    (refusalNoted src frame num s).ins.holds.get 3 = s.ins.holds.get 3 := by
  have hgaps : (gapsMarked src frame s).ins.holds.get 3 = s.ins.holds.get 3 := by
    rw [← markGaps_eq, (markGaps_offStore src frame).hold]
  unfold refusalNoted
  split
  · rw [(raise_offStore _ _ _).hold, hgaps]
  · exact hgaps

theorem refuseOffer_eq (src : Option (Fin 4)) (frame : W32) (i : Fin 256) (s : State) : refuseOffer src frame i s =
    { refusalNoted src frame (s.log.recs.get i).num s with store := s.store.refusing src (s.log.recs.get i).num } := by
  have hcounted (g : Store → Store) : s.modStore g = atStore (g s.store) (s.ins.holds.get 3) s := by
    conv_lhs => rw [← atStore_self s]
    rfl
  rw [← atStore_of_hold (refusalNoted_hold ..)]
  simp only [refuseOffer, hcounted]
  rw [markGaps_offStore, atStore_modStore, raise_offStore, markGaps_eq]
  unfold refusalNoted
  split <;> rfl

/-! ## Protection (R123) -/

section
variable {s : State}

theorem protects_iff (R : Clip) (q : W32) : R.protects q = true ↔
    R.state = .sending ∧ ∃ f l, R.first = some f ∧ R.last = some l ∧ within f.1 q l.1 = true := by
  unfold Clip.protects
  cases R.first <;> cases R.last <;> simp

theorem protector_none {q : W32} (h : ∀ j, (s.log.recs.get j).protects q = false) : protector q s = none := by
  simpa [protector, allRecs] using h

theorem protector_some {q : W32} {i : Fin 256} (hi : (s.log.recs.get i).protects q = true)
    (hlt : ∀ j, j < i → (s.log.recs.get j).protects q = false) : protector q s = some i :=
  find?_finRange hi hlt

/-- No leaving unit is protected. -/
def Unprotected (out : List Retained) (s : State) : Prop :=
  ∀ e ∈ out, ∀ v, e.unit = some v → ∀ j, (s.log.recs.get j).protects v.seq = false

theorem blockerOf_none {out : List Retained} (h : Unprotected out s) : blockerOf out s = none := by
  refine List.findSome?_eq_none_iff.2 fun e he => ?_
  cases hu : e.unit with
  | none => rfl
  | some v => exact protector_none (h e he v hu)

theorem unprotected_of_blockerOf {out : List Retained} (h : blockerOf out s = none) : Unprotected out s := by
  intro e he v hv j
  have hnone := List.findSome?_eq_none_iff.1 h e he
  rw [hv, Option.bind_some, protector, List.find?_eq_none] at hnone
  simpa using hnone j (List.mem_finRange j)

theorem blockerOf_some {pre post : List Retained} {e : Retained} {v : StoredUnit} {i : Fin 256} (hpre : Unprotected pre s)
    (hv : e.unit = some v) (hi : (s.log.recs.get i).protects v.seq = true)
    (hlt : ∀ j, j < i → (s.log.recs.get j).protects v.seq = false) : blockerOf (pre ++ e :: post) s = some i := by
  have hbefore : pre.findSome? (fun e => e.unit.bind fun u => protector u.seq s) = none := blockerOf_none hpre
  have hhere : (e.unit.bind fun u => protector u.seq s) = some i := by
    rw [hv]
    exact protector_some hi hlt
  rw [blockerOf, List.findSome?_append, hbefore, Option.none_or, List.findSome?_cons, hhere]

end

/-! ## Units that leave (R122) -/

section
variable (st : Store) (h : List InsEntry)

/-- A leaving unit takes its index entries with it, and makes LOST the clips that began at or before it. -/
theorem unitLeaves_atStore (u : StoredUnit) (s : State) : ∃ is, OldestFirst u.seq (LostTo [u.seq]) s is
    ∧ unitLeaves u (atStore st h s) =
      atStore { st with index := st.index.map (·.filter fun x => decide (x.seq ≠ u.seq)) } h
        (is.foldl (fun y i => lostAt i y) s) := by
  have hP (R : Clip) : (R.losable && atOrBefore R.firstSeq u.seq) = true ↔ LostTo [u.seq] R := by
    rw [Bool.and_eq_true, losable_iff, LostTo, Clip.firstSeq]
    cases R.first <;> simp [and_comm]
  refine ⟨_, oldestFirst_of hP s, ?_⟩
  have hlose : loseClip = lostAt := funext fun i => funext fun y => loseClip_eq i y
  rw [unitLeaves, atStore_modStore, loseUpTo, hlose]
  exact foldl_lostAt_offStore _ _ h s

theorem forEach_unitLeaves_atStore (us : List StoredUnit) (s : State) : ∃ w st', LostBy (us.map (·.seq)) s w
    ∧ forEach us unitLeaves (atStore st h s) = atStore st' h w := by
  induction us generalizing st s with
  | nil => exact ⟨s, st, rfl, rfl⟩
  | cons u us ih =>
    obtain ⟨is, his, hleft⟩ := unitLeaves_atStore st h u s
    obtain ⟨w, st', hw, hrest⟩ := ih { st with index := st.index.map (·.filter fun x => decide (x.seq ≠ u.seq)) }
      (is.foldl (fun y i => lostAt i y) s)
    exact ⟨w, st', lostBy_cons_iff.2 ⟨is, his, hw⟩, by rw [forEach_cons, hleft, hrest]⟩

/-- The sequences of the units among some entries. -/
def unitSeqs (out : List Retained) : List W32 := out.filterMap fun e => e.unit.map fun v => v.seq

theorem unitsLeft_atStore (out keep : List Retained) (s : State) : ∃ w, LostBy (unitSeqs out) s w
    ∧ unitsLeft out keep (atStore st h s) = atStore { st with retained := keep, index := st.evicted out } h w := by
  obtain ⟨w, st', hw, hleft⟩ := forEach_unitLeaves_atStore { st with retained := keep } h (out.filterMap (·.unit)) s
  have hstore := unitsLeft_store out keep (atStore st h s)
  have heq : unitsLeft out keep (atStore st h s) = atStore st' h w := hleft
  rw [List.map_filterMap] at hw
  rw [heq, atStore_store, atStore_store] at hstore
  exact ⟨w, hw, heq.trans (by rw [hstore])⟩

/-! ## The pad, the unit and the index entry (R121, R125, R127) -/

/-- The header write stands last in the hold (R117). -/
theorem storeHeaderWrite_atStore {s y : State} (ha : y.aps = s.aps) : storeHeaderWrite (atStore st h y)
    = atStore st (h ++ [⟨.write (apBase .store s) (storeHeader st (storeCells s)), .nothing⟩]) y := by
  have hb : apBase .store y = apBase .store s := by rw [apBase, apBase, ap_congr ha]
  rw [← hb, ← storeCells_congr (ap_congr ha _)]
  exact atStore_pushAll st h y _

/-- The write of a store pad's first cell, when a pad of `e` cells is needed. -/
def storePadWrites (e base n head : Nat) (frame : W32) (tc : Nat) : List InsEntry :=
  if e = 0 then [] else [⟨.write (base + 64 * (head % n + 1)) (padCell e frame tc), .nothing⟩]

theorem storePadStep_atStore (e : Nat) (s : State) : storePadStep e (atStore st h s) = atStore (st.padded e)
    (h ++ storePadWrites e (apBase .store s) (storeCells s) st.head s.clock.frame (timecode s)) s := by
  unfold storePadStep storePadWrites Store.padded
  split
  next he => simp [he]
  next he =>
    exact congrArg (State.modStore _) (atStore_pushAll st h s _)

/-- The writes of a unit's cells; the last one's joining makes the unit readable. -/
def storeCellWrites (a c : Nat) (bs : List Byte) (seq : W32) : List InsEntry :=
  (List.range c).map fun i =>
    ⟨.write (a + 64 * i) (padTo 64 (slice (64 * i) 64 bs)), if i + 1 = c then .readable seq else .nothing⟩

theorem cellWrites_last (a : Nat) (cs : List (List Byte)) (eff : JoinEffect) : cellWrites a cs eff
    = cs.mapIdx fun i c => ⟨.write (a + 64 * i) c, if i + 1 = cs.length then eff else .nothing⟩ := by
  induction cs generalizing a with
  | nil => rfl
  | cons c cs ih =>
    cases cs with
    | nil => rfl
    | cons d ds =>
      rw [cellWrites, ih (a + 64), List.mapIdx_cons (l := d :: ds)]
      refine congrArg₂ List.cons (by simp [writeEntry]) (congrArg (fun f => List.mapIdx f (d :: ds)) ?_)
      funext i x
      rw [Nat.mul_add, Nat.mul_one, Nat.add_assoc, Nat.add_comm 64]
      simp

theorem cellWrites_readable (a c : Nat) (bs : List Byte) (seq : W32) :
    cellWrites a (cellsOf c bs) (.readable seq) = storeCellWrites a c bs seq := by
  rw [cellWrites_last, cellsOf, storeCellWrites]
  apply List.ext_getElem <;> simp

theorem storeDataStep_atStore (src : Option (Fin 4)) (frame : W32) (u : MUnit) (s : State) :
    storeDataStep src frame u (atStore st h s) = atStore (st.joined src frame u.cells)
      (h ++ storeCellWrites (apBase .store s + 64 * (st.head % storeCells s + 1)) u.cells
        (u.bytes st.nextSeq (st.gapRuns.get (gapSource src))) st.nextSeq) s := by
  rw [← cellWrites_readable]
  simp only [storeDataStep]
  rw [atStore_pushAll]
  rfl

end

theorem firstResolved_rev {l : Fin 4} {x : IndexEntry} {before : List IndexEntry} {R : Clip} (h : (R.firstPending
    && decide (R.source = l) && atOrBefore R.inFrame x.frame) = true) : firstResolved l (some x) before R =
      { R with
        first := some (x.seq, x.cell), firstPending := false, rev := R.rev + 1
        prerollShort := R.prerollShort || (decide (x.frame ≠ R.inFrame)
          && before.all fun o => decide (o.frame = R.inFrame) || !atOrBefore o.frame R.inFrame) } := by
  rw [Bool.and_eq_true, Bool.and_eq_true, decide_eq_true_eq] at h
  obtain ⟨⟨hp, hs⟩, hle⟩ := h
  exact if_pos ⟨hp, hs, hle⟩

/-- PREROLL_SHORT as the statements say it: the entry is not the in-frame's, and none before it is at an earlier frame. -/
theorem prerollShort_eq {R : Clip} {x : IndexEntry} (h : atOrBefore R.inFrame x.frame = true) (before : List IndexEntry) :
    (earlier R.inFrame x.frame && !before.any fun o => earlier o.frame R.inFrame)
      = (decide (x.frame ≠ R.inFrame)
        && before.all fun o => decide (o.frame = R.inFrame) || !atOrBefore o.frame R.inFrame) := by
  have hone (o : IndexEntry) : (!earlier o.frame R.inFrame)
      = (decide (o.frame = R.inFrame) || !atOrBefore o.frame R.inFrame) := by
    simp [earlier, Bool.not_and, Bool.or_comm]
  have hnot : (!before.any fun o => earlier o.frame R.inFrame)
      = before.all fun o => decide (o.frame = R.inFrame) || !atOrBefore o.frame R.inFrame := by
    rw [List.not_any_eq_all_not]
    simp only [hone]
  rw [hnot, earlier, h, Bool.true_and]
  congr 1
  exact decide_eq_decide.2 ne_comm

theorem resolveFirst_eq (l : Fin 4) (x : IndexEntry) (before : List IndexEntry) (s : State) :
    resolveFirst l x before s = firstUnitsTaken l x before s := by
  have hchange := forEach_recsWhere (fun c => c.firstPending && decide (c.source = l) && atOrBefore c.inFrame x.frame)
    (f := fun c => { c with
      first := some (x.seq, x.cell), firstPending := false
      prerollShort := c.prerollShort
        || (earlier c.inFrame x.frame && !before.any fun o => earlier o.frame c.inFrame) }) (fun _ => rfl) s
  rw [resolveFirst, hchange, firstUnitsTaken]
  refine changedWhere_congr (fun _ => rfl) (fun R hR => ?_) s
  rw [firstResolved_rev hR]
  simp only [Bool.and_eq_true] at hR
  rw [prerollShort_eq hR.2]

theorem resolveFirst_offStore (l : Fin 4) (x : IndexEntry) (before : List IndexEntry) :
    OffStore (resolveFirst l x before) := changeRecs_offStore _ _

/-- The clips after a new index entry has given first units. -/
theorem firstUnitsTaken_get (l : Fin 4) (x : IndexEntry) (before : List IndexEntry) (s : State) (j : Fin 256) :
    (firstUnitsTaken l x before s).log.recs.get j = firstResolved l (some x) before (s.log.recs.get j) := by
  rw [firstUnitsTaken, changedWhere_get]
  split
  next h => rw [firstResolved_rev h]
  next h =>
    refine (if_neg fun hno => h ?_).symm
    obtain ⟨hp, hs, hle⟩ := hno
    simp [hp, hs, hle]

/-- What a row's index entry does to the clips, when it has one. -/
def rowResolved (l : Fin 4) (x : IndexEntry) (st : Store) (s : State) : State :=
  if st.indexes l x.frame = true then firstUnitsTaken l x (roomIn (st.index.get l)) s else s

theorem indexStep_atStore (l : Fin 4) (frame seq : W32) (cell : Nat) (st : Store) (h : List InsEntry) (s : State) :
    indexStep l frame seq cell (atStore st h s)
      = atStore (st.indexed l ⟨frame, seq, cell⟩) h (rowResolved l ⟨frame, seq, cell⟩ st s) := by
  rw [indexStep_eq, rowResolved]
  cases hx : st.indexes l frame with
  | true =>
    simp only [atStore_store, atStore_modStore, hx, if_true]
    rw [resolveFirst_offStore, resolveFirst_eq]
  | false => simp only [atStore_store, atStore_modStore, hx, Bool.false_eq_true, if_false]

/-- What a stored unit's row does to the clips: first units by its index entry, and then the row tallies. -/
def rowCounted (src : Option (Fin 4)) (x : IndexEntry) (st : Store) (s : State) : State :=
  match src with
  | none => s
  | some l => tallyRows l x.frame (rowResolved l x st s)

/-! ## The offer that is stored (R121, R124) -/

section
variable (src : Option (Fin 4)) (frame : W32) (u : MUnit) (out keep : List Retained) (st : Store) (h : List InsEntry)
  (s : State)

/-- The pad of a unit of `c` cells in the store `st` of the state `s`. -/
def padOf (st : Store) (c : Nat) (s : State) : Nat := storePad (storeCells s) st.head c

/-- The writes that a stored unit leaves in the store's hold before the header's. -/
def unitWrites (u : MUnit) (src : Option (Fin 4)) (st : Store) (s : State) : List InsEntry :=
  storePadWrites (padOf st u.cells s) (apBase .store s) (storeCells s) st.head s.clock.frame (timecode s)
    ++ storeCellWrites (apBase .store s + 64 * ((st.head + padOf st u.cells s) % storeCells s + 1)) u.cells
        (u.bytes st.nextSeq (st.gapRuns.get (gapSource src))) st.nextSeq

theorem storeCells_atStore : storeCells (atStore st h s) = storeCells s := rfl
theorem apBase_atStore : apBase .store (atStore st h s) = apBase .store s := rfl

/-- What leaves and what a notice is made of stands through the losses. -/
theorem lostBy_frame {qs : List W32} {t : State} (ht : LostBy qs s t) :
    t.aps = s.aps ∧ t.clock = s.clock ∧ t.ins.holds.get 3 = s.ins.holds.get 3 := by
  induction qs generalizing s with
  | nil =>
    obtain rfl : t = s := ht
    exact ⟨rfl, rfl, rfl⟩
  | cons q qs ih =>
    obtain ⟨is, -, ht⟩ := lostBy_cons_iff.1 ht
    obtain ⟨haps, hclock, hhold⟩ := ih _ ht
    have hframe : (is.foldl (fun y i => lostAt i y) s).aps = s.aps ∧ (is.foldl (fun y i => lostAt i y) s).clock = s.clock :=
      forEach_inv (Inv := fun y => y.aps = s.aps ∧ y.clock = s.clock) ⟨rfl, rfl⟩ fun i _ y hy => by
        rw [← loseClip_eq]
        exact ⟨(by simp : (loseClip i y).aps = y.aps).trans hy.1, (by simp : (loseClip i y).clock = y.clock).trans hy.2⟩
    exact ⟨haps.trans hframe.1, hclock.trans hframe.2, hhold.trans ((foldl_lostAt_offStore is).hold s)⟩

theorem storeUnit_atStore : ∃ w, LostBy (unitSeqs out) s w ∧ storeUnit src frame u out keep (atStore st h s) =
    atStore (st.stored src frame (storeCells s) (padOf st u.cells s) u.cells out keep)
      (h ++ unitWrites u src st s ++ [⟨.write (apBase .store s) (storeHeader
        (st.stored src frame (storeCells s) (padOf st u.cells s) u.cells out keep) (storeCells s)), .nothing⟩])
      (rowCounted src (st.entryAt frame (storeCells s) (st.head + padOf st u.cells s))
        (st.holding src frame (padOf st u.cells s) u.cells out keep) w) := by
  obtain ⟨w, hw, hleft⟩ := unitsLeft_atStore st h out keep s
  obtain ⟨haps, hclock, -⟩ := lostBy_frame s hw
  have hcells : storeCells w = storeCells s := storeCells_congr (ap_congr haps _)
  have hbase : apBase .store w = apBase .store s := by rw [apBase, apBase, ap_congr haps]
  have htc : timecode w = timecode s := by rw [timecode, timecode, hclock]
  refine ⟨w, hw, ?_⟩
  have hjoined : unitJoined src frame u out keep (atStore st h s)
      = atStore (st.holding src frame (padOf st u.cells s) u.cells out keep) (h ++ unitWrites u src st s) w := by
    rw [unitJoined, hleft, storePadStep_atStore, storeDataStep_atStore, hcells, hbase, htc, hclock, List.append_assoc]
    rfl
  have hnoted : rowNoted src frame st.nextSeq ((st.head + padOf st u.cells s) % storeCells s)
      (atStore (st.holding src frame (padOf st u.cells s) u.cells out keep) (h ++ unitWrites u src st s) w)
      = atStore (st.stored src frame (storeCells s) (padOf st u.cells s) u.cells out keep) (h ++ unitWrites u src st s)
        (rowCounted src (st.entryAt frame (storeCells s) (st.head + padOf st u.cells s))
          (st.holding src frame (padOf st u.cells s) u.cells out keep) w) := by
    cases src with
    | none => rfl
    | some l => rw [rowNoted, indexStep_atStore, tallyRows_offStore]; rfl
  rw [storeUnit_eq, hjoined, ← storeHeaderWrite_atStore, ← hnoted]
  · rfl
  · rw [← haps]
    unfold rowCounted rowResolved
    cases src with
    | none => rfl
    | some l =>
      dsimp only
      rw [← resolveFirst_eq]
      split <;> simp

/-- The state as a store that was BLOCKED has said that it goes on (R124). -/
def resumeNoted (s : State) : State :=
  match s.store.state with
  | .blocked b => raise .storeResumed 0 [b2 b, b4 s.store.gaps.toNat] s
  | .off | .running => s

theorem resumeNoted_hold : (resumeNoted s).ins.holds.get 3 = s.ins.holds.get 3 := by
  unfold resumeNoted
  split
  · exact (raise_offStore _ _ _).hold s
  · rfl
  · rfl

theorem resumeStore_eq (hon : s.store.state ≠ .off) : resumeStore s
    = atStore { s.store with state := .running } (s.ins.holds.get 3) (resumeNoted s) := by
  cases hst : s.store.state with
  | blocked b =>
    have hmod : (s.modStore fun st => { st with state := .running })
        = atStore { s.store with state := .running } (s.ins.holds.get 3) s := (atStore_of_hold rfl).symm
    simp only [resumeStore, resumeNoted, hst]
    rw [hmod, raise_offStore]
  | off => exact absurd hst hon
  | running =>
    simp only [resumeStore, resumeNoted, hst]
    rw [← hst]
    exact (atStore_self s).symm

end

/-! ## The cut of the statement (R120) -/

section
variable {s : State} {src : Option (Fin 4)} {frame : W32} {u : MUnit} {out keep : List Retained}
  (hret : s.store.retained = out ++ keep)
  (hout : ∀ e ∈ out, storeCells s + e.start < s.store.head + padOf s.store u.cells s + u.cells)
  (hkeep : ∀ e rest, keep = e :: rest → s.store.head + padOf s.store u.cells s + u.cells ≤ storeCells s + e.start)
include hret hout hkeep

theorem splitLeaving_cut : splitLeaving (storeCells s) s.store.head
    (storePad (storeCells s) s.store.head u.cells + u.cells) s.store.retained = (out, keep) := by
  rw [hret]
  refine splitLeaving_eq (fun e he => ?_) fun e rest he => ?_
  · exact (hout e he).trans_eq (Nat.add_assoc ..)
  · exact (Nat.add_assoc ..).symm.trans_le (hkeep e rest he)

theorem offerStore_refused {i : Fin 256} (h : blockerOf out s = some i) :
    offerStore src frame u s = refuseOffer src frame i s := by
  simp only [offerStore, splitLeaving_cut hret hout hkeep, h]

theorem offerStore_taken (h : blockerOf out s = none) :
    offerStore src frame u s = storeUnit src frame u out keep (resumeStore s) := by
  simp only [offerStore, splitLeaving_cut hret hout hkeep, h]

/-- A unit that is stored: what becomes of the store and of its hold, and what the losses and the row do to the rest. -/
theorem offerStore_stored (hon : s.store.state ≠ .off) (hfree : Unprotected out s) {st : Store}
    (hst : st = ({ s.store with state := .running } : Store).stored src frame (storeCells s)
      (padOf s.store u.cells s) u.cells out keep) :
    ∃ w, LostBy (unitSeqs out) (resumeNoted s) w ∧ offerStore src frame u s = atStore st
      (s.ins.holds.get 3 ++ unitWrites u src s.store s
        ++ [⟨.write (apBase .store s) (storeHeader st (storeCells s)), .nothing⟩])
      (rowCounted src (s.store.entryAt frame (storeCells s) (s.store.head + padOf s.store u.cells s))
        (s.store.holding src frame (padOf s.store u.cells s) u.cells out keep) w) := by
  have hframe : (resumeNoted s).aps = s.aps ∧ (resumeNoted s).clock = s.clock := by
    unfold resumeNoted
    split <;> simp
  obtain ⟨haps, hclock⟩ := hframe
  have hcells : storeCells (resumeNoted s) = storeCells s := storeCells_congr (ap_congr haps _)
  have hbase : apBase .store (resumeNoted s) = apBase .store s := by rw [apBase, apBase, ap_congr haps]
  have htc : timecode (resumeNoted s) = timecode s := by rw [timecode, timecode, hclock]
  obtain ⟨w, hw, hstored⟩ := storeUnit_atStore src frame u out keep { s.store with state := .running }
    (s.ins.holds.get 3) (resumeNoted s)
  refine ⟨w, hw, ?_⟩
  rw [offerStore_taken hret hout hkeep (blockerOf_none hfree), resumeStore_eq s hon, hstored]
  simp only [unitWrites, padOf, hcells, hbase, htc, hclock, hst]
  cases src <;> rfl

end

/-! ## What a stored unit makes of the store (R121, R125) -/

section
variable (src : Option (Fin 4)) (frame : W32) (n pad c : Nat) (out keep : List Retained) (st : Store)

theorem stored_eq : st.stored src frame n pad c out keep = { st with
    head := st.head + pad + c, nextSeq := st.nextSeq + 1, gapRuns := st.gapRuns.set (gapSource src) 0
    retained := keep ++ (if pad = 0 then [] else [⟨st.head, pad, none⟩])
      ++ [⟨st.head + pad, c, some ⟨st.nextSeq, src, frame, false⟩⟩]
    index := (st.stored src frame n pad c out keep).index
    openMark := (st.stored src frame n pad c out keep).openMark } := by
  cases src <;> rfl

/-- Whether a stored row has an index entry of its own, as the statements say it. -/
theorem indexes_holding_iff (l : Fin 4) : (st.holding src frame pad c out keep).indexes l frame = true ↔
    st.openMark.get l = true
      ∧ (((st.evicted out).get l).getLast?.map fun x => decide (x.frame = frame)) ≠ some true := by
  have hindexes : (st.holding src frame pad c out keep).indexes l frame
      = (st.openMark.get l && !endsWith frame ((st.evicted out).get l)) := rfl
  rw [hindexes, endsWith, Bool.and_eq_true, Bool.not_eq_true', decide_eq_false_iff_not]

/-- The index of a lane that has no row among the stored, or whose frame has its entry already. -/
theorem stored_index_other {l : Fin 4} (h : src ≠ some l ∨ st.openMark.get l = false) :
    (st.stored src frame n pad c out keep).index.get l = (st.evicted out).get l
      ∧ (st.stored src frame n pad c out keep).openMark.get l = st.openMark.get l := by
  cases src with
  | none => exact ⟨rfl, rfl⟩
  | some m =>
    by_cases hm : m = l
    · subst hm
      have hclosed : st.openMark.get m = false := h.resolve_left fun hne => hne rfl
      refine ⟨?_, (Table.get_set_self ..).trans hclosed.symm⟩
      refine congrArg (Table.get · m) (if_neg fun hx => ?_)
      have hopen : st.openMark.get m = true := ((indexes_holding_iff ..).1 hx).1
      rw [hclosed] at hopen
      cases hopen
    · refine ⟨?_, Table.get_set_ne _ _ hm⟩
      show (if _ then (st.evicted out).set m _ else st.evicted out).get l = _
      split
      · exact Table.get_set_ne _ _ hm
      · rfl

/-- The index of the stored row's lane, whose frame was open (R125). -/
theorem stored_index_row {l : Fin 4} (hm : st.openMark.get l = true) :
    (st.stored (some l) frame n pad c out keep).openMark.get l = false
      ∧ (st.stored (some l) frame n pad c out keep).index.get l =
        if (((st.evicted out).get l).getLast?.map fun x => decide (x.frame = frame)) = some true then
          (st.evicted out).get l
        else roomIn ((st.evicted out).get l) ++ [⟨frame, st.nextSeq, (st.head + pad) % n⟩] := by
  refine ⟨Table.get_set_self .., ?_⟩
  split
  next hends =>
    refine congrArg (Table.get · l) (if_neg fun hx => ?_)
    exact ((indexes_holding_iff ..).1 hx).2 hends
  next hends =>
    refine (congrArg (Table.get · l) (if_pos ((indexes_holding_iff ..).2 ⟨hm, hends⟩))).trans ?_
    exact Table.get_set_self ..

end

/-! ## What a stored unit makes of the clips (R127, R147) -/

theorem tallies_iff (X : Clip) (l : Fin 4) (frame : W32) : X.tallies l frame = true ↔ X.source = l ∧ X.first.isSome = true
    ∧ atOrBefore X.inFrame frame = true ∧ (X.state = .opened
      ∨ (X.state = .closed ∧ X.endPending = true ∧ (X.out.map fun o => atOrBefore frame o.1) = some true)) := by
  unfold Clip.tallies
  cases X.out <;> simp [and_assoc]

theorem rowResolved_get (l : Fin 4) (x : IndexEntry) (st : Store) (s : State) (j : Fin 256) :
    (rowResolved l x st s).log.recs.get j = firstResolved l (if st.indexes l x.frame = true then some x else none)
      (roomIn (st.index.get l)) (s.log.recs.get j) := by
  unfold rowResolved
  split
  · exact firstUnitsTaken_get ..
  · rfl

theorem rowCounted_get (l : Fin 4) (x : IndexEntry) (st : Store) (s : State) (j : Fin 256) :
    (rowCounted (some l) x st s).log.recs.get j = rowStored l x.frame
      (if st.indexes l x.frame = true then some x else none) (roomIn (st.index.get l)) (s.log.recs.get j) := by
  refine (Table.get_map ..).trans ?_
  rw [rowResolved_get, rowStored]
  exact if_congr (tallies_iff ..) rfl rfl

/-- A clip that has just been LOST takes no first unit and no row. -/
theorem rowStored_lostClip (l : Fin 4) (frame : W32) (new : Option IndexEntry) (before : List IndexEntry) (R : Clip) :
    rowStored l frame new before (lostClip R) = lostClip R := by
  have hfirst : firstResolved l new before (lostClip R) = lostClip R := by
    unfold firstResolved
    cases new with
    | none => rfl
    | some x => exact if_neg fun h => Bool.noConfusion h.1
  rw [rowStored, hfirst]
  refine if_neg ?_
  rintro ⟨-, -, -, h | ⟨h, -⟩⟩ <;> cases h

theorem rowCounted_log (src : Option (Fin 4)) (x : IndexEntry) (st : Store) (s : State) :
    (rowCounted src x st s).log = { s.log with recs := (rowCounted src x st s).log.recs } := by
  cases src with
  | none => rfl
  | some l =>
    simp only [rowCounted, rowResolved]
    split <;> rfl

theorem resumeNoted_log (s : State) : (resumeNoted s).log = s.log := by
  unfold resumeNoted
  split <;> simp

/-- A clip that the leaving of the entries `out` makes LOST, as the statements say it. -/
theorem lostTo_unitSeqs {out : List Retained} {R : Clip} : LostTo (unitSeqs out) R ↔
    (R.state = .opened ∨ R.state = .closed ∨ R.state = .sent) ∧ ∃ f, R.first = some f
      ∧ ∃ e ∈ out, ∃ v, e.unit = some v ∧ atOrBefore f.1 v.seq = true := by
  have hseqs (a : W32) : (∃ q ∈ unitSeqs out, atOrBefore a q = true) ↔
      ∃ e ∈ out, ∃ v, e.unit = some v ∧ atOrBefore a v.seq = true := by
    simp only [unitSeqs, List.mem_filterMap, Option.map_eq_some_iff]
    constructor
    · rintro ⟨q, ⟨e, he, v, hv, rfl⟩, hq⟩
      exact ⟨e, he, v, hv, hq⟩
    · rintro ⟨e, he, v, hv, hq⟩
      exact ⟨_, ⟨e, he, v, hv, rfl⟩, hq⟩
  simp only [LostTo, hseqs]

theorem storeCellWrites_at (base p c : Nat) (bs : List Byte) (seq : W32) : storeCellWrites (base + 64 * p) c bs seq
    = (List.range c).map fun i => ⟨.write (base + 64 * (p + i)) (padTo 64 (slice (64 * i) 64 bs)),
        if i + 1 = c then .readable seq else .nothing⟩ := by
  simp only [storeCellWrites, Nat.mul_add, Nat.add_assoc]

/-! ## The statement -/

/-- A state of this form is told by the rest of it, its store and the store's hold. -/
theorem eq_of_atStore {t y : State} {st : Store} {h : List InsEntry} (ht : t = atStore st h y) : t = { y with
    store := t.store, ins := { y.ins with holds := y.ins.holds.set 3 (t.ins.holds.get 3) } } := by
  subst ht
  simp only [atStore_hold, atStore_store]
  rfl

/-- What an offer leaves (R120). -/
theorem offerStore_rest (src : Option (Fin 4)) (frame : W32) (u : MUnit) (s : State) : offerStore src frame u s = { s with
    store := (offerStore src frame u s).store, log := (offerStore src frame u s).log
    ctl := (offerStore src frame u s).ctl, ins := (offerStore src frame u s).ins } := by
  obtain ⟨h1, h2, h3, h4, h5, h6, h7, h8, h9, h10, h11, h12, h13⟩ := offerStore_frame s src frame u
  generalize offerStore src frame u s = t at *
  cases t
  cases s
  simp_all

theorem gapSource_eq {src : Option (Fin 4)} {k : Fin 5} (hsome : ∀ l : Fin 4, src = some l → k.val = l.val)
    (hnone : src = none → k = 4) : gapSource src = k := by
  cases src with
  | none => exact (hnone rfl).symm
  | some l => exact Fin.ext (hsome l rfl).symm

theorem refusedItems_eq {src : Option (Fin 4)} {k : Fin 5} (hk : gapSource src = k) :
    refusedItems src = [b1 (if src = none then 2 else 1), b1 (if src = none then 0 else k.val)] := by
  subst hk
  cases src <;> rfl

section
variable {s : State} {src : Option (Fin 4)} {frame : W32} {u : MUnit} {out keep : List Retained}
  (hret : s.store.retained = out ++ keep)
  (hout : ∀ e ∈ out, storeCells s + e.start < s.store.head + padOf s.store u.cells s + u.cells)
  (hkeep : ∀ e rest, keep = e :: rest → s.store.head + padOf s.store u.cells s + u.cells ≤ storeCells s + e.start)
include hret hout hkeep

/-- No unit in a SENDING clip's range leaves (R123, R171). -/
theorem protected_retained (hon : s.store.state ≠ .off) {e : Retained} (he : e ∈ s.store.retained) {v : StoredUnit}
    (hv : e.unit = some v) {j : Fin 256} (hj : (s.log.recs.get j).protects v.seq = true) :
    e ∈ (offerStore src frame u s).store.retained := by
  cases hb : blockerOf out s with
  | some i =>
    rw [offerStore_refused hret hout hkeep hb, refuseOffer_store]
    exact he
  | none =>
    have hfree := unprotected_of_blockerOf hb
    obtain ⟨w, -, hstored⟩ := offerStore_stored (src := src) (frame := frame) hret hout hkeep hon hfree rfl
    rw [hstored, atStore_store, stored_eq]
    rw [hret, List.mem_append] at he
    rcases he with he | he
    · rw [hfree e he v hv j] at hj
      cases hj
    · exact List.mem_append_left _ (List.mem_append_left _ he)

end

/-- Settles O26. -/
theorem storeOffersStoreOrRefuse : Obligations.StoreOffersStoreOrRefuse := by
  rintro s src frame u n h c pad out keep k base protects hon rfl rfl rfl rfl rfl hret hout hkeep hsome hnone hprotects
  obtain rfl := gapSource_eq hsome hnone
  have hprot (R : Clip) (q : W32) : protects R q ↔ R.protects q = true := (hprotects R q).trans (protects_iff R q).symm
  have hfree_iff (l : List Retained) : (∀ e ∈ l, ∀ v, e.unit = some v → ∀ j, ¬protects (s.log.recs.get j) v.seq)
      ↔ Unprotected l s := by
    simp only [Unprotected, hprot, Bool.not_eq_true]
  refine ⟨_, rfl, offerStore_rest .., fun e he v hv j hj =>
    protected_retained hret hout hkeep hon he hv ((hprot _ _).1 hj), ?_, ?_⟩
  · rintro pre e post v i num rfl hv hpre hi hlt rfl
    have hblocked := blockerOf_some (post := post) ((hfree_iff pre).1 hpre) hv ((hprot _ _).1 hi) fun j hj => by
      simpa [hprot] using hlt j hj
    rw [offerStore_refused hret hout hkeep hblocked]
    have hstore : s.store.refusing src (s.log.recs.get i).num = { s.store with
        state := .blocked (s.log.recs.get i).num, gaps := s.store.gaps + 1
        gapRuns := s.store.gapRuns.set (gapSource src) (min (s.store.gapRuns.get (gapSource src) + 1) 65535) } := rfl
    have hlog : (refuseOffer src frame i s).log = (gapsMarked src frame s).log := by
      rw [refuseOffer_eq]
      show (refusalNoted src frame _ s).log = _
      unfold refusalNoted
      split <;> simp
    refine ⟨?_, ?_, ?_, ?_, fun j R gap hR hgap => ?_⟩
    · rw [refuseOffer_eq, hstore]
    · rintro w rfl
      rw [refuseOffer_eq, refusalNoted, refusedItems_eq rfl]
      split <;> rfl
    · rw [hlog]
      rfl
    · rw [refuseOffer_eq]
      exact refusalNoted_hold ..
    · rw [hlog]
      exact gapsMarked_get src frame s j hR hgap
  · rintro hfree seq evicted rfl hevicted
    obtain ⟨w, hw, hstored⟩ :=
      offerStore_stored (src := src) (frame := frame) hret hout hkeep hon ((hfree_iff out).1 hfree) rfl
    have hevict : s.store.evicted out = Table.ofFn evicted :=
      Table.ext_get fun l => by rw [Table.get_ofFn, hevicted]; exact Table.get_map ..
    have hget (l : Fin 4) : (s.store.evicted out).get l = evicted l := by rw [hevict, Table.get_ofFn]
    have hnew (l : Fin 4) : (s.store.holding src frame (padOf s.store u.cells s) u.cells out keep).indexes l frame = true ↔
        s.store.openMark.get l = true ∧ ((evicted l).getLast?.map fun x => decide (x.frame = frame)) ≠ some true := by
      rw [indexes_holding_iff, hget]
    have hroom (l : Fin 4) :
        (s.store.holding src frame (padOf s.store u.cells s) u.cells out keep).index.get l = evicted l := hget l
    have hresumed := resumeNoted_log s
    have hlost := lostBy_get hw
    have hclear := lostBy_opens hw
    simp only [hresumed] at hlost hclear
    have hwlog := lostBy_log hw
    rw [hresumed] at hwlog
    generalize offerStore src frame u s = t at hstored ⊢
    have hstore : t.store = ({ s.store with state := .running } : Store).stored src frame (storeCells s)
        (padOf s.store u.cells s) u.cells out keep := by rw [hstored, atStore_store]
    have hlog : t.log = (rowCounted src
        (s.store.entryAt frame (storeCells s) (s.store.head + padOf s.store u.cells s))
        (s.store.holding src frame (padOf s.store u.cells s) u.cells out keep) w).log := by
      rw [hstored, atStore_log]
    refine ⟨?_, fun l hl => ?_, ?_, fun j R lost hR hlostR => ?_, ?_, ?_, fun m clears hclears => ?_, ?_⟩
    · rw [hstore]
      exact stored_eq ..
    · rw [hstore, ← hget]
      exact stored_index_other _ _ _ _ _ _ _ { s.store with state := .running } hl
    · rintro l rfl hm
      rw [hstore, ← hget]
      exact stored_index_row _ _ _ _ _ _ { s.store with state := .running } hm
    · have hlostR : lost ↔ LostTo (unitSeqs out) R := hlostR.trans lostTo_unitSeqs.symm
      obtain ⟨hgone, hstays⟩ := hlost j
      rw [← hR] at hgone hstays
      rw [hlog, hlostR]
      refine ⟨fun h => ?_, ?_, ?_⟩
      · cases src with
        | none => exact hgone h
        | some l => rw [rowCounted_get, hgone h, rowStored_lostClip]
      · rintro h rfl
        exact hstays h
      · rintro h l new before rfl rfl rfl
        rw [rowCounted_get, hstays h, hroom]
        exact congrArg (fun y => rowStored l frame y _ R) (if_congr (hnew l) rfl rfl)
    · have hhold := congrArg (fun y => y.ins.holds.get 3) hstored
      rw [atStore_hold, ← hstore, unitWrites, storeCellWrites_at] at hhold
      rw [hhold]
      simp only [List.append_assoc]
      rfl
    · refine ⟨_, w, match src with
        | none => w
        | some l => rowResolved l (s.store.entryAt frame (storeCells s) (s.store.head + padOf s.store u.cells s))
            (s.store.holding src frame (padOf s.store u.cells s) u.cells out keep) w, fun b hb => ?_, fun hb => ?_, hw, ?_, ?_, ?_⟩
      · rw [resumeNoted, hb]
      · rw [resumeNoted, hb]
      · rintro rfl
        rfl
      · rintro l before rfl rfl
        dsimp only
        rw [rowResolved, hroom]
        exact if_congr (hnew l) rfl rfl
      · have hrecs : t.log.recs = _ := congrArg ClipLog.recs hlog
        rw [hrecs]
        refine (eq_of_atStore hstored).trans ?_
        cases src <;> rfl
    · have hopens : t.log.opens = w.log.opens := by rw [hlog, rowCounted_log]
      obtain ⟨hgone, hstays⟩ := hclear m
      rw [hopens]
      refine ⟨fun h => hgone ?_, fun h => hstays fun j hj hopened hsource => h (hclears.2 ?_)⟩
      · obtain ⟨j, R, rfl, hopened, hsource, hf⟩ := hclears.1 h
        exact ⟨j, lostTo_unitSeqs.2 ⟨.inl hopened, hf⟩, hopened, hsource⟩
      · exact ⟨j, _, rfl, hopened, hsource, (lostTo_unitSeqs.1 hj).2⟩
    · rw [hlog, rowCounted_log, hwlog]

end Sys2Proof.Machine
end

section
/-! SET_STORE: the store enabled, and the store turned OFF with its transfers, its units and their clips (R118, R119, R122,
R129, R170). -/

namespace Sys2Proof.Machine

open Sys2Proof.Safety

/-! ## Everything in the store goes (R119, R129; logs 46 and 50) -/

theorem loseAll_eq (s : State) : loseAll s = changedWhere (·.firstPending) logOnlyClip
    ((oldestFirst s.store.nextSeq s (recsWhere Clip.losable s)).foldl (fun y i => lostAt i y) s) := by
  have hlose (l : List (Fin 256)) : forEach l loseClip s = l.foldl (fun y i => lostAt i y) s :=
    List.foldl_ext _ _ _ fun y i _ => loseClip_eq i y
  rw [loseAll, hlose, pendingToLogOnly]
  exact (forEach_recsWhere _ (f := fun c => { c with firstPending := false, endPending := false, logOnly := true })
    (fun _ => rfl) _).trans (changedWhere_congr (fun R => Bool.and_true _) (fun _ _ => rfl) _)

theorem loseAll_lost (s : State) : StoreClipsLost s (loseAll s) :=
  ⟨_, oldestFirst_of losable_iff s, loseAll_eq s⟩

/-- A clip that goes with the store's units: OPEN, CLOSED or SENT with its first unit resolved. -/
def GoesWithUnits (R : Clip) : Prop :=
  R.first.isSome = true ∧ (R.state = .opened ∨ R.state = .closed ∨ R.state = .sent)

section
variable {s t : State} (h : StoreClipsLost s t)
include h

/-- What becomes of each record. -/
theorem storeClipsLost_get (i : Fin 256) :
    (GoesWithUnits (s.log.recs.get i) → t.log.recs.get i = lostClip (s.log.recs.get i))
      ∧ (¬GoesWithUnits (s.log.recs.get i) → t.log.recs.get i =
        if (s.log.recs.get i).firstPending = true then logOnlyClip (s.log.recs.get i) else s.log.recs.get i) := by
  obtain ⟨is, his, rfl⟩ := h
  rw [changedWhere_get, foldl_lostAt_get (nodup_of_oldestFirst his)]
  refine ⟨fun hgoes => ?_, fun hstays => ?_⟩
  · rw [if_pos ((his.1 i).2 hgoes)]
    rfl
  · rw [if_neg fun hmem => hstays ((his.1 i).1 hmem)]
    rfl

/-- What becomes of each open-clip pointer. -/
theorem storeClipsLost_opens (m : Fin 4) :
    ((∃ i, GoesWithUnits (s.log.recs.get i) ∧ (s.log.recs.get i).state = .opened ∧ (s.log.recs.get i).source = m) →
      t.log.opens.get m = none)
    ∧ ((∀ i, GoesWithUnits (s.log.recs.get i) → (s.log.recs.get i).state = .opened → (s.log.recs.get i).source ≠ m) →
      t.log.opens.get m = s.log.opens.get m) := by
  obtain ⟨is, his, rfl⟩ := h
  obtain ⟨hclear, hkeep⟩ := foldl_lostAt_opens (nodup_of_oldestFirst his) s m
  refine ⟨fun ⟨i, hgoes, hi⟩ => hclear ⟨i, (his.1 i).2 hgoes, hi⟩, fun hno => hkeep fun i hi => hno i ((his.1 i).1 hi)⟩

theorem storeClipsLost_log : t.log = { s.log with recs := t.log.recs, opens := t.log.opens } := by
  obtain ⟨is, -, rfl⟩ := h
  show ({ (is.foldl (fun y i => lostAt i y) s).log with recs := _ } : ClipLog) = _
  rw [foldl_lostAt_log]
  rfl

/-- Afterwards nothing waits for its first unit, and no clip with a first unit is OPEN, CLOSED or SENT. -/
theorem storeClipsLost_gone (i : Fin 256) :
    (t.log.recs.get i).firstPending = false ∧ ¬GoesWithUnits (t.log.recs.get i) := by
  obtain ⟨hgoes, hstays⟩ := storeClipsLost_get h i
  by_cases hi : GoesWithUnits (s.log.recs.get i)
  · rw [hgoes hi]
    exact ⟨rfl, fun ⟨_, hst⟩ => by rcases hst with hst | hst | hst <;> cases hst⟩
  · rw [hstays hi]
    split
    next => exact ⟨rfl, hi⟩
    next hp => exact ⟨Bool.not_eq_true _ ▸ hp, hi⟩

end

/-! ## Transfers ended with their clips LOST (R170) -/

/-- TRANSFER_ENDED is raised for an entry, and then the clip of its record is LOST. -/
def transferLost (code : Nat) (e : Send) (placed remaining : Nat) (i : Fin 256) (s : State) : State :=
  lostAt i (raise .transferEnded e.clip [b1 code, b1 e.path.val, b4 placed, b4 remaining] s)

section
variable {s : State} {e : Send} {i : Fin 256} (code placed remaining : Nat)

theorem endEntry_lost (r : EndReason) (h : findClip e.clip s = some i) :
    endEntry r true placed remaining e s = transferLost r.code e placed remaining i s := by
  have hfind : findClip e.clip (raiseEnded r e placed remaining s) = some i := by
    simpa [findClip] using h
  simp only [endEntry, if_true, hfind]
  exact loseClip_eq i _

theorem transferLost_log (s : State) : (transferLost code e placed remaining i s).log = (lostAt i s).log := by
  rw [transferLost, lostAt_log, lostAt_log]
  simp

theorem transferLost_names (h : findClip e.clip s = some i) :
    SameNames s (transferLost code e placed remaining i s) := by
  intro j
  rw [transferLost_log, lostAt_log, Table.get_modify]
  split
  next hij =>
    subst hij
    exact ⟨rfl, iff_of_false nofun (findClip_some h).1⟩
  next => exact ⟨rfl, Iff.rfl⟩

end

/-- The transfers `l` ended in queue order, each with its counts and its clip's record. -/
def transfersLost (code : Nat) (l : List Send) (placed remaining : Send → Nat) (idx : Send → Fin 256) (s : State) :
    State :=
  l.foldl (fun y x => transferLost code x (placed x) (remaining x) (idx x) y) s

theorem forEach_endEntry_lost {s : State} {l : List Send} {idx : Send → Fin 256} (r : EndReason) {f g : Send → Nat}
    (hfg : ∀ x ∈ l, f x = 0 ∧ g x = 0) (hf : ∀ x ∈ l, findClip x.clip s = some (idx x)) :
    forEach l (endEntry r true 0 0) s = transfersLost r.code l f g idx s := by
  induction l generalizing s with
  | nil => rfl
  | cons x l ih =>
    obtain ⟨hx, hl⟩ := List.forall_mem_cons.1 hf
    obtain ⟨⟨hfx, hgx⟩, hfg⟩ := List.forall_mem_cons.1 hfg
    have hnames := transferLost_names (s := s) r.code 0 0 hx
    rw [forEach_cons, endEntry_lost 0 0 r hx, ih hfg fun y hy => (findClip_congr hnames y.clip).trans (hl y hy)]
    show transfersLost _ _ _ _ _ _ = transfersLost _ _ _ _ _ (transferLost r.code x (f x) (g x) (idx x) s)
    rw [hfx, hgx]

theorem transfersLost_log (code : Nat) (l : List Send) (f g : Send → Nat) (idx : Send → Fin 256) {s t : State}
    (h : s.log = t.log) : (transfersLost code l f g idx s).log = ((l.map idx).foldl (fun y i => lostAt i y) t).log := by
  induction l generalizing s t with
  | nil => exact h
  | cons x l ih =>
    refine ih (s := transferLost code x (f x) (g x) (idx x) s) (t := lostAt (idx x) t) ?_
    rw [transferLost_log, lostAt_log, lostAt_log, h]

/-- All transfers ended at once: the engine is idle (log 27). -/
theorem endEntries_all {s : State} (r : EndReason) (hn : (s.xfer.queue.map (·.clip)).Nodup) {idx : Send → Fin 256}
    (hidx : ∀ x ∈ s.xfer.queue, findClip x.clip s = some (idx x)) :
    endEntries r true (fun _ => true) s = allEnded r.code idx s := by
  cases hq : s.xfer.queue with
  | nil =>
    rw [endEntries_nil hq]
    simp only [allEnded, hq]
  | cons e es =>
    rw [hq] at hn hidx
    obtain ⟨hfe, hfs⟩ := List.forall_mem_cons.1 hidx
    have hfe : findClip e.clip (letGoOf e s) = some (idx e) := hfe
    have hnames := transferLost_names (s := letGoOf e s) r.code s.xfer.placed.toNat s.xfer.remaining hfe
    have hzero : ∀ x ∈ es, (if x = e then s.xfer.placed.toNat else 0) = 0 ∧ (if x = e then s.xfer.remaining else 0) = 0 := by
      intro x hx
      have hne : x ≠ e := by
        rintro rfl
        exact (List.nodup_cons.1 hn).1 (List.mem_map_of_mem hx)
      exact ⟨if_neg hne, if_neg hne⟩
    have hall : es.filter (fun _ => true) = es := List.filter_true es
    have hnone : (e :: es).filter (fun _ => !true) = [] := List.filter_false _
    rw [endEntries_active hq rfl, hall, hnone, endEntry_lost _ _ r hfe, forEach_endEntry_lost r hzero fun x hx =>
      (findClip_congr hnames x.clip).trans (hfs x hx), nextActive_nil]
    simp only [allEnded, hq, List.foldl_cons, if_true]
    rfl

theorem allEnded_log (code : Nat) (idx : Send → Fin 256) {s t : State} (h : s.log = t.log) :
    (allEnded code idx s).log = ((s.xfer.queue.map idx).foldl (fun y i => lostAt i y) t).log := by
  cases hq : s.xfer.queue with
  | nil =>
    simp only [allEnded, hq]
    exact h
  | cons e es =>
    simp only [allEnded, hq]
    exact transfersLost_log code (e :: es) (fun x => if x = e then s.xfer.placed.toNat else 0)
      (fun x => if x = e then s.xfer.remaining else 0) idx (s := letGoOf e s) h

/-! ## The endings and the losses look neither at the store nor at its hold -/

theorem letGoOf_offStore (e : Send) : OffStore (letGoOf e) := by
  intro st h s
  have hholds : (s.ins.holds.set 3 h).set byTransfer [] = (s.ins.holds.set byTransfer []).set 3 h := by
    refine Table.ext_get fun b => ?_
    rw [Table.get_set, Table.get_set, Table.get_set, Table.get_set]
    by_cases hb : 3 = b
    · subst hb
      simp [byTransfer]
    · rw [if_neg hb, if_neg hb]
  simp only [letGoOf, atStore, hholds]
  rfl

theorem endEntry_offStore (r : EndReason) (placed remaining : Nat) (e : Send) :
    OffStore (endEntry r true placed remaining e) := by
  intro st h s
  have hraise : raiseEnded r e placed remaining (atStore st h s) = atStore st h (raiseEnded r e placed remaining s) :=
    raise_offStore _ _ _ st h s
  have hfind (t : State) : findClip e.clip (atStore st h t) = findClip e.clip t := rfl
  simp only [endEntry, if_true, hraise, hfind]
  split
  · rfl
  · rw [loseClip_eq, loseClip_eq, lostAt_offStore]

theorem endEntries_offStore (r : EndReason) : OffStore (endEntries r true fun _ => true) := by
  intro st h s
  cases hq : s.xfer.queue with
  | nil => rw [endEntries_nil hq, endEntries_nil (s := atStore st h s) hq]
  | cons e es =>
    have hnone : (e :: es).filter (fun _ => !true) = [] := List.filter_false _
    rw [endEntries_active hq rfl, endEntries_active (s := atStore st h s) hq rfl, hnone, letGoOf_offStore,
      endEntry_offStore, OffStore.forEach (endEntry_offStore r 0 0), nextActive_nil, nextActive_nil]
    rfl

theorem loseAll_ofStore (s : State) :
    (loseAll s).store = s.store ∧ (loseAll s).ins.holds.get 3 = s.ins.holds.get 3 := by
  have hchanged : OffStore fun y => forEach (recsWhere (fun c => c.firstPending && true) y) makeLogOnly y :=
    changeRecs_offStore _ _
  have hlose : OffStore fun y => forEach (oldestFirst s.store.nextSeq s (recsWhere Clip.losable s)) loseClip y :=
    OffStore.forEach (fun i => by rw [funext (loseClip_eq i)]; exact lostAt_offStore i) _
  exact ⟨(hchanged.store _).trans (hlose.store s), (hchanged.hold _).trans (hlose.hold s)⟩

/-! ## The store disabled (R119) -/

/-- The transfers and the clips as the disabling leaves them. -/
def clipsDropped (s : State) : State := loseAll (endEntries .storeOff true (fun _ => true) (dropHold byStore s))

/-- The store OFF with nothing retained or indexed. -/
def Store.turnedOff (st : Store) : Store := { st with state := .off, retained := [], index := Table.fill 4 [] }

theorem disableStore_eq (s : State) : disableStore s = atStore s.store.turnedOff
    [⟨.write (apBase .store s) (storeHeader s.store.turnedOff (storeCells s)), .nothing⟩] (clipsDropped s) := by
  obtain ⟨hstore, hhold⟩ := loseAll_ofStore (endEntries .storeOff true (fun _ => true) (dropHold byStore s))
  have hends := endEntries_offStore .storeOff
  have hdropped : atStore s.store [] (clipsDropped s) = clipsDropped s := by
    have hst : (clipsDropped s).store = s.store := hstore.trans (hends.store (dropHold byStore s))
    have hh : (clipsDropped s).ins.holds.get 3 = [] :=
      (hhold.trans (hends.hold (dropHold byStore s))).trans (Table.get_set_self ..)
    rw [← hst, ← hh, atStore_self]
  have haps : (clipsDropped s).aps = s.aps := by simp [clipsDropped]
  have hheader := storeHeaderWrite_atStore s.store.turnedOff [] haps
  rw [List.nil_append] at hheader
  have hoff : (clipsDropped s).modStore Store.turnedOff = atStore s.store.turnedOff [] (clipsDropped s) := by
    conv_lhs => rw [← hdropped]
    rfl
  rw [← hheader, ← hoff]
  rfl

/-- The clips of the queue's entries, in queue order, when the log and the queue agree (R138, R171). -/
theorem exists_queueRecords {s : State} (h : LogOk s) : ∃ idx : Send → Fin 256,
    (∀ x ∈ s.xfer.queue, findClip x.clip s = some (idx x))
      ∧ ∀ i, i ∈ s.xfer.queue.map idx ↔ (s.log.recs.get i).state = .sending := by
  obtain ⟨⟨-, -, -, hinj⟩, -, -, -, hsending, hqueued⟩ := h
  have hfind (i : Fin 256) (hi : (s.log.recs.get i).state = .sending) : findClip (s.log.recs.get i).num s = some i := by
    refine find?_finRange (by simp [hi]) fun j hj => ?_
    by_contra hother
    simp only [Bool.not_eq_false, Bool.and_eq_true, decide_eq_true_eq] at hother
    obtain ⟨hstate, hnum⟩ := hother
    exact hj.ne (hinj j i (by simpa using hstate) hnum)
  have hidx (x : Send) (hx : x ∈ s.xfer.queue) {i : Fin 256} (hi : (s.log.recs.get i).state = .sending)
      (hnum : (s.log.recs.get i).num = x.clip) : (findClip x.clip s).getD 0 = i := by
    rw [← hnum, hfind i hi]
    rfl
  refine ⟨fun x => (findClip x.clip s).getD 0, fun x hx => ?_, fun i => ?_⟩
  · obtain ⟨i, hi, hnum⟩ := hsending x hx
    dsimp only
    rw [← hnum, hfind i hi]
    rfl
  · rw [List.mem_map]
    constructor
    · rintro ⟨x, hx, rfl⟩
      obtain ⟨i, hi, hnum⟩ := hsending x hx
      rw [hidx x hx hi hnum]
      exact hi
    · intro hi
      obtain ⟨x, hx, hnum⟩ := hqueued i hi
      exact ⟨x, hx, hidx x hx hi hnum.symm⟩

theorem nodup_queueRecords {s : State} (h : LogOk s) {idx : Send → Fin 256}
    (hidx : ∀ x ∈ s.xfer.queue, findClip x.clip s = some (idx x)) : (s.xfer.queue.map idx).Nodup := by
  obtain ⟨-, -, hn, -⟩ := h
  exact nodup_records hn (List.Sublist.refl _) hidx

/-- With the log and the queue in agreement, the endings and the losses leave the log as `StoreDropped` says. -/
theorem storeDropped_of_lost {s t u : State} (h : LogOk s) {idx : Send → Fin 256}
    (hidx : ∀ x ∈ s.xfer.queue, findClip x.clip s = some (idx x))
    (hmem : ∀ i, i ∈ s.xfer.queue.map idx ↔ (s.log.recs.get i).state = .sending)
    (hended : u.log = (s.xfer.queue.map idx |>.foldl (fun y i => lostAt i y) s).log) (hlost : StoreClipsLost u t) :
    StoreDropped s t := by
  have hn := nodup_queueRecords h hidx
  have hget (i : Fin 256) := foldl_lostAt_get hn s i
  rw [← hended] at hget
  have hopens (m : Fin 4) : u.log.opens.get m = s.log.opens.get m := by
    rw [hended]
    refine (foldl_lostAt_opens hn s m).2 fun i hi ho => ?_
    rw [(hmem i).1 hi] at ho
    cases ho
  have hsent (i : Fin 256) (hi : (s.log.recs.get i).state = .sending) :
      u.log.recs.get i = lostClip (s.log.recs.get i) := (hget i).trans (if_pos ((hmem i).2 hi))
  have hkept (i : Fin 256) (hi : (s.log.recs.get i).state ≠ .sending) : u.log.recs.get i = s.log.recs.get i :=
    (hget i).trans (if_neg (mt (hmem i).1 hi))
  have hnot (R : Clip) : ¬GoesWithUnits (lostClip R) := fun ⟨_, hst⟩ => by rcases hst with hst | hst | hst <;> cases hst
  have hgoes (i : Fin 256) (hi : GoesWithUnits (u.log.recs.get i)) : u.log.recs.get i = s.log.recs.get i :=
    hkept i fun hs => hnot _ (hsent i hs ▸ hi)
  refine ⟨?_, ?_, fun m => ⟨?_, fun hno => ?_⟩⟩
  · rw [storeClipsLost_log hlost, hended, foldl_lostAt_log]
  · rintro i R rfl
    obtain ⟨hgone, hstay⟩ := storeClipsLost_get hlost i
    by_cases hs : (s.log.recs.get i).state = .sending
    · rw [hsent i hs] at hgone hstay
      have hlostClip : t.log.recs.get i = lostClip (s.log.recs.get i) := hstay (hnot _)
      exact ⟨fun _ => hlostClip, fun hno => absurd (.inl hs) hno, fun hno => absurd (.inl hs) hno⟩
    · rw [hkept i hs] at hgone hstay
      refine ⟨fun hl => hgone (hl.resolve_left hs), fun hno hp => ?_, fun hno hp => ?_⟩
      · rw [hstay fun hg => hno (.inr hg), if_pos hp]
      · rw [hstay fun hg => hno (.inr hg), if_neg (by simp [hp])]
  · rintro ⟨i, R, rfl, hl, ho, hm⟩
    have hs : (s.log.recs.get i).state ≠ .sending := by simp [ho]
    refine (storeClipsLost_opens hlost m).1 ⟨i, ?_⟩
    rw [hkept i hs]
    exact ⟨hl.resolve_left hs, ho, hm⟩
  · refine ((storeClipsLost_opens hlost m).2 fun i hg ho => ?_).trans (hopens m)
    have hsame := hgoes i hg
    rw [hsame] at hg ho ⊢
    exact hno i _ rfl (.inr hg) ho

/-! ## SET_STORE (R118) -/

section
variable {s : State} {c : Command}

theorem setStore_enable (hw : c.word 0 = 1) : setStore c s = if s.store.state = .off then
    if (ap .store s).isNone then (s, .refused .state 0) else (enableStore s, .done 0) else (s, .done 0) := by
  rw [setStore, hw]
  rfl

theorem setStore_disable (hw : c.word 0 = 0) : setStore c s =
    if s.store.state = .off then (s, .done 0) else (disableStore s, .done 0) := by
  rw [setStore, hw]
  rfl

end

theorem enableStore_eq {s : State} {a : Aperture} (ha : ap .store s = some a) {st : Store} (hst : st = { s.store with
    state := .running, head := 0, nextSeq := 0, retained := [], index := Table.fill 4 []
    gapRuns := Table.fill 5 0, openMark := Table.fill 4 false, epoch := s.store.epoch + 1 }) :
    enableStore s = { s with
      store := st
      ins := { s.ins with holds := s.ins.holds.modify 3 fun h =>
        h ++ [⟨.write a.base (storeHeader st (a.size / 64 - 1)), .nothing⟩] } } := by
  subst hst
  have hbase : apBase .store s = a.base := apBase_set ha
  have hcells : storeCells s = a.size / 64 - 1 := by
    rw [storeCells, apSize, ha]
    rfl
  rw [← hbase, ← hcells]
  rfl

/-- Settles O49. -/
theorem setStoreEnablesOrDisables : Obligations.SetStoreEnablesOrDisables := by
  intro s c hh hc
  have hexec : exec .setStore s = .next (answered c (setStore c s).2 (setStore c s).1) :=
    exec_atHead (exec_setStore (s := s)) hh hc
  rw [hexec]
  refine ⟨fun hw => ?_, fun hw hoff hap => ?_, fun hw hoff a st ha hst => ?_, ?_, fun hw hon => ?_⟩
  · rw [setStore, asFin_eq_none.2 hw]
    rfl
  · rw [setStore_enable hw, if_pos hoff, hap]
    rfl
  · rw [setStore_enable hw, if_pos hoff, ha, ← enableStore_eq ha hst]
    rfl
  · rintro (⟨hw, hon⟩ | ⟨hw, hoff⟩)
    · rw [setStore_enable hw, if_neg hon]
    · rw [setStore_disable hw, if_pos hoff]
  · rw [setStore_disable hw, if_neg hon]
    have hall := disableStore_eq s
    obtain ⟨-, -, -, -, haps, hclock, hlanes, hsel, hsnd, hpins, -⟩ := disableStore_frame s
    generalize disableStore s = t at *
    have hlost : StoreClipsLost (endEntries .storeOff true (fun _ => true) (dropHold byStore s)) (clipsDropped s) :=
      loseAll_lost _
    have hstore : t.store = s.store.turnedOff := by rw [hall, atStore_store]
    have hhold : t.ins.holds.get 3
        = [⟨.write (apBase .store s) (storeHeader s.store.turnedOff (storeCells s)), .nothing⟩] := by
      rw [hall, atStore_hold]
    have hlog : t.log = (clipsDropped s).log := by rw [hall, atStore_log]
    refine ⟨t, rfl, hstore, ?_, by rw [hhold, hstore], fun i => ?_, fun hok => ?_, fun idx hn hidx => ?_, hclock, hlanes,
      hsel, hsnd, haps, hpins⟩
    · refine List.eq_nil_iff_forall_not_mem.2 fun x hx => ?_
      have hxfer : t.xfer = (endEntries .storeOff true (fun _ => true) (dropHold byStore s)).xfer := by
        rw [hall]
        show (clipsDropped s).xfer = _
        simp [clipsDropped]
      exact Bool.noConfusion (mem_queue_endEntries (hxfer ▸ hx))
    · rw [hlog]
      obtain ⟨hpending, hgone⟩ := storeClipsLost_gone hlost i
      exact ⟨hpending, fun hf => ⟨fun h => hgone ⟨hf, .inl h⟩, fun h => hgone ⟨hf, .inr (.inl h)⟩,
        fun h => hgone ⟨hf, .inr (.inr h)⟩⟩⟩
    · obtain ⟨idx, hidx, hmem⟩ := exists_queueRecords hok
      have hended := endEntries_all (s := dropHold byStore s) .storeOff hok.2.2.1 hidx
      obtain ⟨h1, h2, h3⟩ := storeDropped_of_lost hok hidx hmem
        (by rw [hended]; exact allEnded_log _ idx rfl) hlost
      rw [← hlog] at h1 h2 h3
      exact ⟨h1, h2, h3⟩
    · refine ⟨clipsDropped s, ?_, eq_of_atStore hall⟩
      have hended := endEntries_all (s := dropHold byStore s) .storeOff hn hidx
      rw [hended] at hlost
      exact hlost

end Sys2Proof.Machine
end

section
/-! Marks: a clip closed, a record taken over and a clip opened in it, and CLIP_MARK (R126, R138 to R143, R149). -/

namespace Sys2Proof.Machine

open Sys2Proof.Safety

/-! ## A clip's tag (R149) -/

/-- The tag made once the change has been raised is that of the record as it stands then, at the time it stood. -/
theorem sendTag_raise (i : Fin 256) (event : TagEvent) (k : NoticeKind) (j : Nat) (d : List Item) {s w : State} {X : Clip}
    (hX : s.log.recs.get i = X) (hw : w = raise k j d s) : sendTag i event w = (effectiveRoute w).foldl (fun y q =>
      offerTag (.tag X.source s.clock.frame (timecode s) X.num event (tagBody X event)) q y) w := by
  have htag : tagOf i event w = .tag X.source s.clock.frame (timecode s) X.num event (tagBody X event) := by
    simp [hw, tagOf, timecode, hX]
  rw [sendTag, htag]
  rfl

/-- A clip's change raised, its tag sent and its record mirrored: of the log the record's revision alone has risen. -/
theorem mirror_sendTag_log (i : Fin 256) (event : TagEvent) (k : NoticeKind) (j : Nat) (d : List Item) (s : State) :
    (mirror i (sendTag i event (raise k j d s))).log
      = { s.log with recs := s.log.recs.modify i fun c => { c with rev := c.rev + 1 } } := by
  rw [mirror_log]
  simp

/-! ## A clip closed (R143) -/

/-- The record of a clip closed at an out-frame, before it is mirrored. -/
def Clip.closing (f : W32) (tc : Nat) (stamp : W32) (R : Clip) : Clip :=
  { R with state := .closed, out := some (f, tc), stamp := some stamp, endPending := !R.logOnly && R.last.isNone }

/-- The record of a clip that has been closed, and mirrored. -/
def Clip.closed (f : W32) (tc : Nat) (stamp : W32) (R : Clip) : Clip := { R.closing f tc stamp with rev := R.rev + 1 }

/-- The log as the clip of record `i` closes, before that is said anywhere. -/
def ClipLog.closing (i : Fin 256) (f : W32) (tc : Nat) (g : ClipLog) : ClipLog :=
  { g with
    recs := g.recs.set i ((g.recs.get i).closing f tc g.closeCount)
    closeCount := g.closeCount + 1, opens := g.opens.set (g.recs.get i).source none }

section
variable (i : Fin 256) (f : W32) (tc : Nat) (o : Origin) (s : State)

theorem closeClip_eq : closeClip i f tc o s = closedAs i f tc o s := by
  have hX : (s.modLog (ClipLog.closing i f tc)).log.recs.get i = (s.log.recs.get i).closing f tc s.log.closeCount :=
    Table.get_set_self ..
  show mirror i (sendTag i .closed (raise .clipClosed ((s.modLog (ClipLog.closing i f tc)).log.recs.get i).num
    [b1 (s.log.recs.get i).source.val, b4 f.toNat,
      b1 ((s.modLog (ClipLog.closing i f tc)).log.recs.get i).flags.toNat, o.item] (s.modLog (ClipLog.closing i f tc)))) = _
  rw [sendTag_raise i .closed _ _ _ hX rfl, hX]
  rfl

theorem closedAs_log : (closedAs i f tc o s).log = { s.log with
    recs := s.log.recs.set i ((s.log.recs.get i).closed f tc s.log.closeCount)
    opens := s.log.opens.set (s.log.recs.get i).source none
    closeCount := s.log.closeCount + 1 } := by
  rw [← closeClip_eq]
  refine (mirror_sendTag_log i .closed .clipClosed _ _ (s.modLog (ClipLog.closing i f tc))).trans ?_
  simp only [State.modLog, ClipLog.closing, revised_set]
  rfl

theorem closedAs_frame : (closedAs i f tc o s).clock = s.clock ∧ (closedAs i f tc o s).xfer = s.xfer := by
  rw [← closeClip_eq]
  simp

theorem closedAs_get_self :
    (closedAs i f tc o s).log.recs.get i = (s.log.recs.get i).closed f tc s.log.closeCount := by
  rw [closedAs_log]
  exact Table.get_set_self ..

theorem closedAs_get_ne {j : Fin 256} (h : i ≠ j) : (closedAs i f tc o s).log.recs.get j = s.log.recs.get j := by
  rw [closedAs_log]
  exact Table.get_set_ne _ _ h

theorem closedAs_opens (m : Fin 4) : (closedAs i f tc o s).log.opens.get m =
    if (s.log.recs.get i).source = m then none else s.log.opens.get m := by
  rw [closedAs_log]
  exact Table.get_set ..

theorem closedAs_num (j : Fin 256) : ((closedAs i f tc o s).log.recs.get j).num = (s.log.recs.get j).num := by
  by_cases h : i = j
  · rw [← h, closedAs_get_self]
    rfl
  · rw [closedAs_get_ne _ _ _ _ _ h]

end

section
variable {s : State} {i : Fin 256} (hi : (s.log.recs.get i).state = .opened) (f : W32) (tc : Nat) (o : Origin)
include hi

/-- In every state but OPEN and CLOSED there are the same clips as before. -/
theorem closedAs_state_iff {st : ClipState} (ho : st ≠ .opened) (hc : st ≠ .closed) (j : Fin 256) :
    ((closedAs i f tc o s).log.recs.get j).state = st ↔ (s.log.recs.get j).state = st := by
  by_cases h : i = j
  · rw [← h, closedAs_get_self, hi]
    exact iff_of_false (Ne.symm hc) (Ne.symm ho)
  · rw [closedAs_get_ne _ _ _ _ _ h]

theorem closedAs_numbersOk (h : NumbersOk s) : NumbersOk (closedAs i f tc o s) := by
  obtain ⟨hclips, hlow, hhigh, hinj⟩ := h
  have hfree := closedAs_state_iff hi f tc o (st := .free) nofun nofun
  have hnum := closedAs_num i f tc o s
  refine ⟨fun j => ?_, ?_, ?_, fun j k hj hjk => hinj j k (mt (hfree j).2 hj) (by rwa [hnum, hnum] at hjk)⟩
  · obtain ⟨hfree0, hle, hprior⟩ := hclips j
    refine ⟨(hfree j).trans (by rw [hnum]; exact hfree0), by rwa [hnum], ?_⟩
    by_cases hij : i = j
    · subst hij
      rw [closedAs_get_self]
      exact hprior
    · rwa [closedAs_get_ne _ _ _ _ _ hij]
  · rw [closedAs_log]
    exact hlow
  · rw [closedAs_log]
    exact hhigh

theorem closedAs_pointersOk (hn : NumbersOk s) (h : PointersOk s) : PointersOk (closedAs i f tc o s) := by
  obtain ⟨-, -, -, hinj⟩ := hn
  intro m n
  have hne {j : Fin 256} (hj : ((closedAs i f tc o s).log.recs.get j).state = .opened) : i ≠ j := by
    rintro rfl
    rw [closedAs_get_self] at hj
    cases hj
  rw [closedAs_opens]
  split
  next hm =>
    refine iff_of_false nofun fun ⟨j, hj, hjm, _⟩ => ?_
    have hij := hne hj
    rw [closedAs_get_ne _ _ _ _ _ hij] at hj hjm
    have hsame := ((h m _).2 ⟨i, hi, hm, rfl⟩).symm.trans ((h m _).2 ⟨j, hj, hjm, rfl⟩)
    exact hij (hinj i j (by rw [hi]; decide) (Option.some.inj hsame))
  next hm =>
    rw [h]
    refine exists_congr fun j => ?_
    by_cases hij : i = j
    · subst hij
      exact iff_of_false (fun ⟨_, hjm, _⟩ => hm hjm) fun ⟨hj, _⟩ => hne hj rfl
    · rw [closedAs_get_ne _ _ _ _ _ hij]

/-- Closing an OPEN clip keeps R138, R139 and the first half of R171. -/
theorem closedAs_logOk (h : LogOk s) : LogOk (closedAs i f tc o s) := by
  obtain ⟨hn, hp, hnodup, hlen, hsending, hqueued⟩ := h
  obtain ⟨-, hxfer⟩ := closedAs_frame i f tc o s
  have hsend := closedAs_state_iff hi f tc o (st := .sending) nofun nofun
  refine ⟨closedAs_numbersOk hi f tc o hn, closedAs_pointersOk hi f tc o hn hp, by rwa [hxfer], by rwa [hxfer],
    fun e he => ?_, fun j hj => ?_⟩
  · obtain ⟨j, hj, hjn⟩ := hsending e (hxfer ▸ he)
    exact ⟨j, (hsend j).2 hj, (closedAs_num i f tc o s j).trans hjn⟩
  · rw [hxfer, closedAs_num]
    exact hqueued j ((hsend j).1 hj)

end

/-! ## The record that a new clip takes (R142) -/

/-- One step of the search for the earliest in-frame. -/
def earlierOf (s : State) (best : Option (Fin 256)) (i : Fin 256) : Option (Fin 256) :=
  match best with
  | none => some i
  | some b => if earlier (s.log.recs.get i).inFrame (s.log.recs.get b).inFrame then some i else best

theorem earliest_eq (s : State) (l : List (Fin 256)) : earliest s l = l.foldl (earlierOf s) none := by
  refine List.foldl_ext _ _ _ fun best i _ => ?_
  cases best <;> rfl

section
variable {s : State} {i : Fin 256} {l : List (Fin 256)}

theorem foldl_earlierOf_keeps (h : ∀ j ∈ l, earlier (s.log.recs.get j).inFrame (s.log.recs.get i).inFrame = false) :
    l.foldl (earlierOf s) (some i) = some i := by
  induction l with
  | nil => rfl
  | cons j l ih =>
    obtain ⟨hj, hl⟩ := List.forall_mem_cons.1 h
    rw [List.foldl_cons, earlierOf, hj, if_neg nofun, ih hl]

theorem mem_of_foldl_earlierOf {best : Option (Fin 256)} (h : l.foldl (earlierOf s) best = some i) :
    best = some i ∨ i ∈ l := by
  induction l generalizing best with
  | nil => exact .inl h
  | cons j l ih =>
    refine (ih h).elim (fun hstep => ?_) fun hmem => .inr (List.mem_cons_of_mem _ hmem)
    unfold earlierOf at hstep
    split at hstep
    · exact .inr (Option.some.inj hstep ▸ List.mem_cons_self)
    · split at hstep
      · exact .inr (Option.some.inj hstep ▸ List.mem_cons_self)
      · exact .inl hstep

theorem earliest_recsWhere {st : ClipState} (h : EarliestIn st i s) :
    earliest s (recsWhere (fun c => decide (c.state = st)) s) = some i := by
  obtain ⟨hi, hmin⟩ := h
  have hidx : (recsWhere (fun c => decide (c.state = st)) s).Pairwise (· < ·) :=
    List.Pairwise.filter _ (List.pairwise_lt_finRange 256)
  have hstate : ∀ j ∈ recsWhere (fun c => decide (c.state = st)) s, (s.log.recs.get j).state = st := fun j hj =>
    of_decide_eq_true ((mem_recsWhere ..).1 hj)
  have hmem : i ∈ recsWhere (fun c => decide (c.state = st)) s := (mem_recsWhere ..).2 (decide_eq_true hi)
  obtain ⟨pre, post, hsplit⟩ := List.append_of_mem hmem
  rw [earliest_eq, hsplit, List.foldl_append, List.foldl_cons]
  rw [hsplit] at hidx hstate
  obtain ⟨-, hright, hbefore⟩ := List.pairwise_append.1 hidx
  have hstep : earlierOf s (pre.foldl (earlierOf s) none) i = some i := by
    cases hbest : pre.foldl (earlierOf s) none with
    | none => rfl
    | some b =>
      have hb : b ∈ pre := (mem_of_foldl_earlierOf hbest).resolve_left nofun
      have hlt : b < i := hbefore b hb i List.mem_cons_self
      obtain ⟨-, hbeats⟩ := hmin b hlt.ne (hstate b (List.mem_append_left _ hb))
      exact if_pos (hbeats hlt)
  rw [hstep]
  refine foldl_earlierOf_keeps fun j hj => ?_
  have hlt : i < j := (List.pairwise_cons.1 hright).1 j hj
  exact (hmin j hlt.ne' (hstate j (List.mem_append_right _ (List.mem_cons_of_mem _ hj)))).1

theorem find?_free_none (h : ∀ j, (s.log.recs.get j).state ≠ .free) :
    allRecs.find? (fun i => decide ((s.log.recs.get i).state = .free)) = none := by
  simpa using fun j _ => h j

theorem recsWhere_nil {p : Clip → Bool} (h : ∀ j, p (s.log.recs.get j) = false) : recsWhere p s = [] := by
  simp [recsWhere, h]

theorem takeRecord_some (h : TakesRecord i s) : takeRecord s = some i := by
  unfold takeRecord
  rcases h with ⟨hfree, hlow⟩ | ⟨hfree, hsent⟩ | ⟨hnone, hlost⟩
  · have hfind : allRecs.find? (fun i => decide ((s.log.recs.get i).state = .free)) = some i :=
      find?_finRange (decide_eq_true hfree) fun j hj => decide_eq_false (hlow j hj)
    rw [hfind]
  · rw [find?_free_none hfree, earliest_recsWhere hsent]
  · rw [find?_free_none fun j => (hnone j).1, recsWhere_nil fun j => decide_eq_false (hnone j).2, earliest_recsWhere hlost]
    rfl

theorem takeRecord_none (h : ∀ j, (s.log.recs.get j).state ≠ .free ∧ (s.log.recs.get j).state ≠ .sent
    ∧ (s.log.recs.get j).state ≠ .lost) : takeRecord s = none := by
  unfold takeRecord
  rw [find?_free_none fun j => (h j).1, recsWhere_nil fun j => decide_eq_false (h j).2.1,
    recsWhere_nil fun j => decide_eq_false (h j).2.2]
  rfl

end

/-! ## The number of a new clip (R138) -/

/-- The number `d` after `n`, passing from 65 535 to 1. -/
def numberAfter (n d : Nat) : Nat := (n - 1 + d) % 65535 + 1

theorem nextNumber_eq {n : Nat} (h : n ≤ 65535) : nextNumber n = n % 65535 + 1 := by
  unfold nextNumber
  split <;> omega

theorem numberAfter_next {n : Nat} (h1 : 1 ≤ n) (h : n ≤ 65535) (d : Nat) :
    numberAfter (nextNumber n) d = numberAfter n (d + 1) := by
  rw [nextNumber_eq h, numberAfter, numberAfter]
  omega

theorem numberAfter_le (n d : Nat) : 1 ≤ numberAfter n d ∧ numberAfter n d ≤ 65535 := by
  unfold numberAfter
  omega

/-- The search ends at the first number that nobody holds, or when its tries are used up. -/
theorem freeNumber_eq (s : State) (k : Nat) {n : Nat} (h1 : 1 ≤ n) (h : n ≤ 65535) : ∃ d, d ≤ k
    ∧ freeNumber s k n = numberAfter n d ∧ (∀ e, e < d → (findClip (numberAfter n e) s).isSome = true)
    ∧ (d < k → findClip (numberAfter n d) s = none) := by
  have hself : numberAfter n 0 = n := by
    unfold numberAfter
    omega
  induction k generalizing n with
  | zero => exact ⟨0, Nat.le_refl 0, hself.symm, nofun, nofun⟩
  | succ k ih =>
    rw [freeNumber]
    split
    next hheld =>
      have hnext : 1 ≤ nextNumber n ∧ nextNumber n ≤ 65535 := by
        rw [nextNumber_eq h]
        omega
      obtain ⟨d, hd, hnum, hbefore, hfree⟩ := ih hnext.1 hnext.2 (by unfold numberAfter; omega)
      simp only [numberAfter_next h1 h] at hnum hbefore hfree
      refine ⟨d + 1, Nat.succ_le_succ hd, hnum, fun e he => ?_, fun hlt => hfree (Nat.lt_of_succ_lt_succ hlt)⟩
      cases e with
      | zero => rw [hself]; exact hheld
      | succ e => exact hbefore e (Nat.lt_of_succ_lt_succ he)
    next hfree =>
      refine ⟨0, Nat.zero_le _, hself.symm, nofun, fun _ => ?_⟩
      rw [hself]
      simpa using hfree

/-- 257 numbers in a row cannot all be held by the 256 records. -/
theorem exists_unheld (s : State) (n : Nat) : ∃ e, e < 257 ∧ findClip (numberAfter n e) s = none := by
  by_contra hall
  push Not at hall
  have hheld (e : Fin 257) : ∃ i : Fin 256, (s.log.recs.get i).num = numberAfter n e.val := by
    obtain ⟨i, hi⟩ := Option.ne_none_iff_exists'.1 (hall e.val e.isLt)
    exact ⟨i, (findClip_some hi).2⟩
  choose holder hholder using hheld
  have hinj : Function.Injective holder := fun a b hab => by
    have hnum : numberAfter n a.val = numberAfter n b.val := by rw [← hholder a, ← hholder b, hab]
    unfold numberAfter at hnum
    refine Fin.ext ?_
    have := a.isLt
    have := b.isLt
    omega
  simpa using Fintype.card_le_of_injective holder hinj

theorem findClip_none {s : State} {n : Nat} (h : findClip n s = none) {j : Fin 256}
    (hj : (s.log.recs.get j).state ≠ .free) : (s.log.recs.get j).num ≠ n := by
  intro hn
  have := List.find?_eq_none.1 h j (List.mem_finRange j)
  simp [hj, hn] at this

/-- The first number from the next one on that no other record holds than the one taken over. -/
theorem freeNumber_nextFree {s : State} (h : NumbersOk s) (i : Fin 256) (rev : BitVec 8) :
    NextFree i (freeNumber (s.modRec i fun _ => Clip.free rev) 257 s.log.nextNum) s
      ∧ 1 ≤ freeNumber (s.modRec i fun _ => Clip.free rev) 257 s.log.nextNum
      ∧ freeNumber (s.modRec i fun _ => Clip.free rev) 257 s.log.nextNum ≤ 65535 := by
  obtain ⟨-, h1, hle, -⟩ := h
  obtain ⟨d, hd, hnum, hbefore, hfree⟩ := freeNumber_eq (s.modRec i fun _ => Clip.free rev) 257 h1 hle
  have hget (j : Fin 256) : (s.modRec i fun _ => Clip.free rev).log.recs.get j
      = if i = j then Clip.free rev else s.log.recs.get j := by
    exact Table.get_modify ..
  have hlt : d < 257 := by
    obtain ⟨e, he, hnone⟩ := exists_unheld (s.modRec i fun _ => Clip.free rev) s.log.nextNum
    by_contra hge
    have := hbefore e (by omega)
    rw [hnone] at this
    cases this
  rw [hnum]
  refine ⟨⟨d, rfl, fun j hj hjs => ?_, fun e he => ?_⟩, numberAfter_le _ _⟩
  · have hsame := (hget j).trans (if_neg (Ne.symm hj))
    have hne := findClip_none (hfree hlt) (j := j) (by rwa [hsame])
    rwa [hsame] at hne
  · obtain ⟨j, hj⟩ := Option.isSome_iff_exists.1 (hbefore e he)
    obtain ⟨hjs, hjn⟩ := findClip_some hj
    have hij : i ≠ j := by
      rintro rfl
      rw [hget, if_pos rfl] at hjs
      exact hjs rfl
    rw [(hget j).trans (if_neg hij)] at hjs hjn
    exact ⟨j, Ne.symm hij, hjs, hjn⟩

/-! ## The range of a new clip (R126) -/

/-- A new clip with the range it opens with. -/
def rangeOpened (s : State) (X : Clip) : Clip :=
  let index := s.store.index.get X.source
  if (s.lanes.get X.source).recording = false ∨ s.store.state ≠ .running then { X with logOnly := true }
  else
    match index.find? fun e => atOrBefore X.inFrame e.frame with
    | some e =>
      { X with
        first := some (e.seq, e.cell)
        prerollShort := earlier X.inFrame e.frame && !index.any fun o => earlier o.frame X.inFrame }
    | none => { X with firstPending := true }

theorem rangeOpened_congr {s t : State} (hlanes : t.lanes = s.lanes) (hstore : t.store = s.store) :
    rangeOpened t = rangeOpened s := by
  funext X
  rw [rangeOpened, rangeOpened, hlanes, hstore]

theorem resolveOpen_eq (i : Fin 256) (s : State) : resolveOpen i s = s.modRec i (rangeOpened s) := by
  have hmod (f : Clip → Clip) (h : f (s.log.recs.get i) = rangeOpened s (s.log.recs.get i)) :
      s.modRec i f = s.modRec i (rangeOpened s) := by
    show { s with log := { s.log with recs := s.log.recs.set i (f (s.log.recs.get i)) } } = _
    rw [h]
    rfl
  unfold resolveOpen
  dsimp only
  split
  next hoff => exact hmod _ (if_pos hoff).symm
  next hon =>
    split
    next e he =>
      refine hmod _ ?_
      rw [rangeOpened, if_neg hon, he]
    next hnone =>
      refine hmod _ ?_
      rw [rangeOpened, if_neg hon, hnone]

theorem recording_iff (L : Lane) : L.recording = true ↔ L.intake ≠ .disabled ∧ L.record = true := by
  rw [Lane.recording, Bool.and_eq_true, Lane.enabled_iff]

/-- A new clip that has nothing of its range yet opens with the range of R126. -/
theorem rangeOpened_range {s : State} {n : Fin 4} {X : Clip} (hn : X.source = n) (hfirst : X.first = none)
    (hpending : X.firstPending = false) (hshort : X.prerollShort = false) (honly : X.logOnly = false) :
    OpensWithRange n (rangeOpened s X) s := by
  subst hn
  have hrec : ((s.lanes.get X.source).recording = false ∨ s.store.state ≠ .running) ↔
      ¬((s.lanes.get X.source).intake ≠ .disabled ∧ (s.lanes.get X.source).record = true ∧ s.store.state = .running) := by
    rw [← and_assoc, ← recording_iff, not_and_or, Bool.not_eq_true]
  refine ⟨fun hoff => ?_, fun hon => ?_⟩
  · rw [rangeOpened, if_pos (hrec.2 hoff)]
    exact ⟨rfl, hfirst, hpending, hshort⟩
  · have hneg := mt hrec.1 (not_not.2 hon)
    have hframe : (rangeOpened s X).inFrame = X.inFrame := by
      rw [rangeOpened, if_neg hneg]
      split <;> rfl
    rw [hframe, rangeOpened, if_neg hneg]
    refine ⟨?_, fun hnone => ?_, fun pre e post hindex hpre he => ?_⟩
    · split <;> exact honly
    · rw [List.find?_eq_none.2 fun e he => by simp [hnone e he]]
      exact ⟨hfirst, rfl, hshort⟩
    · have hfind : (s.store.index.get X.source).find? (fun e => atOrBefore X.inFrame e.frame) = some e := by
        rw [hindex, List.find?_append, List.find?_eq_none.2 fun x hx => by simp [hpre x hx], Option.none_or]
        exact List.find?_cons_of_pos he
      rw [hfind]
      refine ⟨rfl, hpending, ?_⟩
      simp only [earlier, Bool.and_eq_true, decide_eq_true_eq, he, true_and, Bool.not_eq_true', List.any_eq_false,
        not_and, ne_comm (a := X.inFrame)]
      refine and_congr_right fun _ => forall₂_congr fun x _ => ?_
      cases atOrBefore x.frame X.inFrame <;> simp

/-! ## A clip opened (R141) -/

/-- A record taken over for a new clip, its range not resolved yet. -/
def Clip.opening (num : Nat) (n : Fin 4) (f : W32) (tc : Nat) (R : Clip) : Clip :=
  { Clip.free R.rev with num := num, state := .opened, source := n, inFrame := f, inTc := tc }

/-- The number a clip opened in record `i` takes. -/
def openingNumber (i : Fin 256) (s : State) : Nat :=
  freeNumber (s.modRec i fun _ => Clip.free (s.log.recs.get i).rev) 257 s.log.nextNum

/-- The record of the new clip, its range resolved. -/
def openingClip (i : Fin 256) (n : Fin 4) (f : W32) (tc : Nat) (s : State) : Clip :=
  rangeOpened s ((s.log.recs.get i).opening (openingNumber i s) n f tc)

theorem openingNumber_nextFree {s : State} (h : NumbersOk s) (i : Fin 256) :
    NextFree i (openingNumber i s) s ∧ 1 ≤ openingNumber i s ∧ openingNumber i s ≤ 65535 :=
  freeNumber_nextFree h i _

theorem openingClip_eq (i : Fin 256) (n : Fin 4) (f : W32) (tc : Nat) (s : State) : openingClip i n f tc s =
    { (s.log.recs.get i).opening (openingNumber i s) n f tc with
      first := (openingClip i n f tc s).first, prerollShort := (openingClip i n f tc s).prerollShort
      firstPending := (openingClip i n f tc s).firstPending, logOnly := (openingClip i n f tc s).logOnly } := by
  unfold openingClip rangeOpened
  dsimp only
  split
  · rfl
  · split <;> rfl

theorem openingClip_num (i : Fin 256) (n : Fin 4) (f : W32) (tc : Nat) (s : State) :
    (openingClip i n f tc s).num = openingNumber i s := by
  rw [openingClip_eq]
  rfl

/-- The log as a clip opens in record `i`, before that is said anywhere. -/
def ClipLog.opening (i : Fin 256) (n : Fin 4) (X : Clip) (g : ClipLog) : ClipLog :=
  { g with recs := g.recs.set i X, nextNum := X.num % 65535 + 1, opens := g.opens.set n (some X.num) }

/-- The log with record `i` taken over for a clip of the number `num`, its range not resolved and its pointer not set. -/
def ClipLog.takenOver (i : Fin 256) (num : Nat) (n : Fin 4) (f : W32) (tc : Nat) (rev : BitVec 8) (g : ClipLog) : ClipLog :=
  { g with
    recs := (g.recs.modify i fun _ => Clip.free rev).modify i fun c =>
      { c with num := num, state := .opened, source := n, inFrame := f, inTc := tc }
    nextNum := nextNumber num }

theorem takenOver_recs (i : Fin 256) (num : Nat) (n : Fin 4) (f : W32) (tc : Nat) (g : ClipLog) (F : Clip → Clip) :
    (g.takenOver i num n f tc (g.recs.get i).rev).recs.modify i F = g.recs.set i (F ((g.recs.get i).opening num n f tc)) := by
  refine Table.ext_get fun j => ?_
  unfold ClipLog.takenOver
  rw [Table.get_set]
  split
  next hj =>
    subst hj
    rw [Table.get_modify_self, Table.get_modify_self, Table.get_modify_self]
    rfl
  next hj => rw [Table.get_modify_ne _ _ hj, Table.get_modify_ne _ _ hj, Table.get_modify_ne _ _ hj]

theorem openedByMarkIn_takenOver (i : Fin 256) (n : Fin 4) (f : W32) (tc : Nat) (s : State) : openedByMarkIn i n f tc s =
    (resolveOpen i (s.modLog (ClipLog.takenOver i (openingNumber i s) n f tc (s.log.recs.get i).rev))).modLog fun g =>
      { g with opens := g.opens.set n (some (openingNumber i s)) } := rfl

theorem openedByMarkIn_eq {s : State} (h : NumbersOk s) (i : Fin 256) (n : Fin 4) (f : W32) (tc : Nat) :
    openedByMarkIn i n f tc s = s.modLog (ClipLog.opening i n (openingClip i n f tc s)) := by
  obtain ⟨-, -, hle⟩ := openingNumber_nextFree h i
  have hrecs := takenOver_recs i (openingNumber i s) n f tc s.log (rangeOpened s)
  have hrange (g : ClipLog → ClipLog) : rangeOpened (s.modLog g) = rangeOpened s := rangeOpened_congr rfl rfl
  rw [openedByMarkIn_takenOver, resolveOpen_eq, hrange]
  unfold ClipLog.opening
  rw [openingClip_num, ← nextNumber_eq hle, openingClip]
  generalize openingNumber i s = num at *
  show { s with log := { s.log with
    recs := (s.log.takenOver i num n f tc (s.log.recs.get i).rev).recs.modify i (rangeOpened s)
    nextNum := nextNumber num, opens := s.log.opens.set n (some num) } } = _
  rw [hrecs]
  rfl

/-! ## The marks (R140 to R143) -/

section
variable {s : State} {n : Fin 4} (g : W32) (tc p : Nat) (o : Origin)

theorem markOut_orphan (h : openClip n s = none) :
    markOut n g tc o s = (raise .orphanOut 0 [b1 n.val, b4 g.toNat, o.item] s, .orphanOut) := by
  rw [markOut, h]

theorem markOut_open {i : Fin 256} (h : openClip n s = some i) : markOut n g tc o s =
    (if earlier g (s.log.recs.get i).inFrame = true then
      closedAs i (s.log.recs.get i).inFrame (s.log.recs.get i).inTc o s
    else closedAs i g tc o s, .done (s.log.recs.get i).num) := by
  rw [markOut, h]
  simp only [closeClip_eq]

theorem markIn_full (h : openClip n s = none) (ht : takeRecord s = none) : markIn n g tc p o s =
    (raise .logFull 0 [b1 n.val, b4 (g - BitVec.ofNat 32 p).toNat, o.item] s, .logFull) := by
  simp only [markIn, h, ht]

theorem markIn_taken (h : openClip n s = none) {i : Fin 256} (ht : takeRecord s = some i) {f : W32}
    (hf : f = g - BitVec.ofNat 32 p) {u : State} (hu : u = openedByMarkIn i n f (subMod tc p (dayFrames s)) s) :
    markIn n g tc p o s = (mirror i (sendTag i .opened (raise .clipOpened (openingNumber i s) [b1 n.val, b4 f.toNat,
      b1 i.val, b2 (s.log.recs.get i).num, b1 (u.log.recs.get i).flags.toNat, o.item] u)), .done (openingNumber i s)) := by
  subst hf hu
  simp only [markIn, h, ht]
  rfl

theorem markIn_chained {i : Fin 256} (h : openClip n s = some i) {f : W32} (hf : f = g - BitVec.ofNat 32 p) {u : State}
    (hu : u = if earlier (f - 1) (s.log.recs.get i).inFrame = true then
        closedAs i (s.log.recs.get i).inFrame (s.log.recs.get i).inTc o s
      else closedAs i (f - 1) (subMod (subMod tc p (dayFrames s)) 1 (dayFrames s)) o s)
    (hopen : openClip n u = none) (hclock : u.clock = s.clock) : markIn n g tc p o s = markIn n g tc p o u := by
  have hday : dayFrames u = dayFrames s := by rw [dayFrames, dayFrames, hclock]
  have hthen : (if earlier (g - BitVec.ofNat 32 p - 1) (s.log.recs.get i).inFrame = true then
        closeClip i (s.log.recs.get i).inFrame (s.log.recs.get i).inTc o s
      else closeClip i (g - BitVec.ofNat 32 p - 1) (subMod (subMod tc p (dayFrames s)) 1 (dayFrames s)) o s) = u := by
    rw [hu, hf]
    simp only [closeClip_eq]
  simp only [markIn, h, hopen, hday, hthen]

end

section
variable {s : State} (hok : LogOk s) {n : Fin 4}
include hok

theorem openClip_isNone_iff : (openClip n s).isNone = true ↔ s.log.opens.get n = none := by
  obtain ⟨hn, hp, -⟩ := hok
  cases hptr : s.log.opens.get n with
  | none => simp [openClip_none hptr]
  | some m =>
    obtain ⟨i, hi, rfl, -⟩ := (hp n m).1 hptr
    simp [openClip_opened hn hp hi]

theorem markArrival_toggle (k : W16) (g : W32) (tc p : Nat) (o : Origin) : markArrival .toggle n k g tc p o s =
    if s.log.opens.get n = none then markArrival .markIn n k g tc p o s else markArrival .markOut n k g tc p o s :=
  if_congr (openClip_isNone_iff hok) rfl rfl

section
variable {i : Fin 256} (hi : (s.log.recs.get i).state = .opened) (hsrc : (s.log.recs.get i).source = n)
include hi hsrc

/-- What stands when the OPEN clip of the input has been closed. -/
theorem closedAs_ready (f : W32) (tc : Nat) (o : Origin) : (closedAs i f tc o s).log.opens.get n = none
    ∧ LogOk (closedAs i f tc o s) ∧ (closedAs i f tc o s).clock = s.clock :=
  ⟨(closedAs_opens ..).trans (if_pos hsrc), closedAs_logOk hi f tc o hok, (closedAs_frame i f tc o s).1⟩

theorem openClip_source : openClip n s = some i := by
  obtain ⟨hn, hp, -⟩ := hok
  rw [← hsrc, openClip_opened hn hp hi]

end

/-- IN with no OPEN clip opens one in the record taken over (R141, R142). -/
theorem markIn_opens (hnone : s.log.opens.get n = none) {i : Fin 256} (ht : TakesRecord i s) (g : W32) (tc p : Nat)
    (o : Origin) {f : W32} (hf : f = g - BitVec.ofNat 32 p) {ftc : Nat} (hftc : ftc = subMod tc p (dayFrames s)) {X : Clip}
    (hX : X = openingClip i n f ftc s) {w : State} (hw : w = raise .clipOpened X.num
      [b1 n.val, b4 f.toNat, b1 i.val, b2 (s.log.recs.get i).num, b1 X.flags.toNat, o.item]
      (s.modLog (ClipLog.opening i n X))) :
    markIn n g tc p o s = (mirror i (sendTag i .opened w), .done X.num)
      ∧ sendTag i .opened w = (effectiveRoute w).foldl (fun y q =>
        offerTag (.tag n s.clock.frame (timecode s) X.num .opened (tagBody X .opened)) q y) w := by
  have hrec : (s.modLog (ClipLog.opening i n X)).log.recs.get i = X := Table.get_set_self ..
  have hnum : X.num = openingNumber i s := by rw [hX, openingClip_num]
  have hsrc : X.source = n := by rw [hX, openingClip_eq]; rfl
  refine ⟨?_, ?_⟩
  · rw [markIn_taken g tc p o (openClip_none hnone) (takeRecord_some ht) hf rfl, ← hftc, openedByMarkIn_eq hok.1, ← hX, hrec,
      ← hnum, hw]
  · rw [sendTag_raise i .opened _ _ _ hrec hw, hsrc]
    rfl

end

/-- The log once the new clip has been raised, tagged and mirrored. -/
theorem openedClip_log (i : Fin 256) (n : Fin 4) (X : Clip) (k : NoticeKind) (j : Nat) (d : List Item) (s : State) :
    (mirror i (sendTag i .opened (raise k j d (s.modLog (ClipLog.opening i n X))))).log = { s.log with
      recs := s.log.recs.set i { X with rev := X.rev + 1 }, nextNum := X.num % 65535 + 1
      opens := s.log.opens.set n (some X.num) } := by
  rw [mirror_sendTag_log]
  simp only [State.modLog, ClipLog.opening, revised_set]

/-! ## CLIP_MARK (R140) -/

section
variable {s : State} {c : Command}

theorem markActionOf_eq_none {v : Nat} (h : 3 < v) : markActionOf v = none := by
  unfold markActionOf
  split <;> simp_all

theorem markActionOf_isSome {v : Nat} (h : v ≤ 3) : ∃ a, markActionOf v = some a := by
  interval_cases v <;> exact ⟨_, rfl⟩

/-- CLIP_MARK with its action and its input in range. -/
theorem clipMark_named {m : MarkAction} (hm : markActionOf (c.word 0) = some m) {n : Fin 4} (hn : c.word 1 = n.val)
    (hlabel : ¬(m = .label ∧ c.low16 2 = 0)) {r : State × MarkOutcome} (hr : r = markArrival m n (BitVec.ofNat 16 (c.low16 2))
      s.clock.frame (timecode s) (min (c.word 3) 250) .command s) :
    clipMark c s = (r.1, markResult (decide (250 < c.word 3)) r.2) := by
  simp only [clipMark, hm, hn, asFin_val, if_neg hlabel, hr]

/-- CLIP_MARK with an action that takes no label. -/
theorem clipMark_unlabelled {m : MarkAction} (hm : markActionOf (c.word 0) = some m) (hlabel : m ≠ .label) {n : Fin 4}
    (hn : c.word 1 = n.val) {t : State} {x : MarkOutcome} (hr : markArrival m n (BitVec.ofNat 16 (c.low16 2)) s.clock.frame
      (timecode s) (min (c.word 3) 250) .command s = (t, x)) :
    clipMark c s = (t, markResult (decide (250 < c.word 3)) x) :=
  clipMark_named hm hn (fun h => hlabel h.1) hr.symm

theorem markResult_done (h : c.word 3 ≤ 250) (x : Nat) : markResult (decide (250 < c.word 3)) (.done x) = .done x := by
  rw [decide_eq_false (not_lt.2 h)]
  rfl

theorem exec_clipMark_head (hh : AtHead c s) (hc : c.code = 19) :
    exec .clipMark s = .next (answered c (clipMark c s).2 (clipMark c s).1) :=
  exec_atHead (exec_clipMark (s := s)) hh hc

end

section
variable {s : State} {c : Command} (hok : LogOk s) {n : Fin 4} (hn : c.word 1 = n.val)
include hok hn

/-- IN as a command, with no OPEN clip and a FREE record. -/
theorem clipMark_in (h0 : c.word 0 = 0) (h3 : c.word 3 ≤ 250) (hnone : s.log.opens.get n = none) {i : Fin 256}
    (hfree : (s.log.recs.get i).state = .free) (hlow : ∀ j, j < i → (s.log.recs.get j).state ≠ .free) :
    ∃ t R, clipMark c s = (t, .done R.num) ∧ R = t.log.recs.get i ∧ R.state = .opened
      ∧ R.source = n ∧ R.inFrame = s.clock.frame - BitVec.ofNat 32 (c.word 3)
      ∧ R.inTc = subMod (timecode s) (c.word 3) (dayFrames s) ∧ R.out = none ∧ R.labels = []
      ∧ R.rev = (s.log.recs.get i).rev + 1 ∧ 1 ≤ R.num ∧ R.num ≤ 65535
      ∧ t.log.opens = s.log.opens.set n (some R.num)
      ∧ ∀ j, j ≠ i → t.log.recs.get j = s.log.recs.get j ∧ (t.log.recs.get j).num ≠ R.num := by
  obtain ⟨X, hX⟩ : ∃ X, X = openingClip i n (s.clock.frame - BitVec.ofNat 32 (c.word 3))
    (subMod (timecode s) (c.word 3) (dayFrames s)) s := ⟨_, rfl⟩
  obtain ⟨hin, -⟩ := markIn_opens hok hnone (.inl ⟨hfree, hlow⟩) s.clock.frame (timecode s) (c.word 3) .command rfl rfl hX rfl
  have hlog := openedClip_log i n X .clipOpened X.num [b1 n.val, b4 (s.clock.frame - BitVec.ofNat 32 (c.word 3)).toNat,
    b1 i.val, b2 (s.log.recs.get i).num, b1 X.flags.toNat, Origin.command.item] s
  have hmark := clipMark_unlabelled (m := .markIn) (by rw [h0]; rfl) nofun hn ((congrArg (fun p => markArrival .markIn n
    (BitVec.ofNat 16 (c.low16 2)) s.clock.frame (timecode s) p .command s) (Nat.min_eq_left h3)).trans hin)
  rw [markResult_done h3] at hmark
  generalize mirror i _ = t at hmark hlog
  have hfields := openingClip_eq i n (s.clock.frame - BitVec.ofNat 32 (c.word 3))
    (subMod (timecode s) (c.word 3) (dayFrames s)) s
  rw [← hX] at hfields
  obtain ⟨⟨-, -, hheld, -⟩, hlow1, hhigh⟩ := openingNumber_nextFree hok.1 i
  have hnum : X.num = openingNumber i s := congrArg Clip.num hfields
  rw [← hnum] at hheld hlow1 hhigh
  refine ⟨t, { X with rev := X.rev + 1 }, hmark, ?_, congrArg Clip.state hfields, congrArg Clip.source hfields,
    congrArg Clip.inFrame hfields, congrArg Clip.inTc hfields, congrArg Clip.out hfields, congrArg Clip.labels hfields,
    congrArg (·.rev + 1) hfields, hlow1, hhigh, by rw [hlog], fun j hj => ?_⟩
  · rw [hlog]
    exact (Table.get_set_self ..).symm
  · have hsame : t.log.recs.get j = s.log.recs.get j := by
      rw [hlog]
      exact Table.get_set_ne _ _ hj.symm
    refine ⟨hsame, ?_⟩
    rw [hsame]
    by_cases hjs : (s.log.recs.get j).state = .free
    · obtain ⟨hclips, -⟩ := hok.1
      obtain ⟨hzero, -⟩ := hclips j
      rw [hzero.1 hjs]
      exact Nat.ne_of_lt hlow1
    · exact hheld j hj hjs

/-- OUT as a command, with an OPEN clip that does not start later than now. -/
theorem clipMark_out (h0 : c.word 0 = 1) (h3 : c.word 3 ≤ 250) {i : Fin 256} (hopen : (s.log.recs.get i).state = .opened)
    (hsrc : (s.log.recs.get i).source = n) (hle : atOrBefore (s.log.recs.get i).inFrame s.clock.frame = true) :
    ∃ t, clipMark c s = (t, .done (s.log.recs.get i).num)
      ∧ t.log.recs.get i = (s.log.recs.get i).closed s.clock.frame (timecode s) s.log.closeCount
      ∧ t.log.opens = s.log.opens.set n none ∧ t.log.closeCount = s.log.closeCount + 1
      ∧ ∀ j, j ≠ i → t.log.recs.get j = s.log.recs.get j := by
  have hlate : ¬earlier s.clock.frame (s.log.recs.get i).inFrame = true := by
    simp only [earlier, Bool.and_eq_true, decide_eq_true_eq, not_and, not_not]
    exact fun h => atOrBefore_antisymm h hle
  have hout := markOut_open s.clock.frame (timecode s) .command (openClip_source hok hopen hsrc)
  rw [if_neg hlate] at hout
  rw [clipMark_unlabelled (m := .markOut) (by rw [h0]; rfl) nofun hn hout, markResult_done h3]
  refine ⟨_, rfl, closedAs_get_self .., ?_, ?_, fun j hj => closedAs_get_ne _ _ _ _ _ hj.symm⟩
  · rw [closedAs_log, hsrc]
  · rw [closedAs_log]

end

/-- Settles O53. -/
theorem clipMarkOpensAndCloses : Obligations.ClipMarkOpensAndCloses := by
  refine ⟨fun s c hh hc hok => ?_, fun s c hh hc => ?_, fun s n k g tc p o f ftc hok hf hftc => ?_⟩
  · rw [exec_clipMark_head hh hc]
    refine ⟨fun h0 => ?_, fun h0 h1 => ?_, fun n hn => ⟨fun h0 h3 hnone i hfree hlow => ?_,
      fun h0 h3 i R hR hopen hsrc hle => ?_, fun h0 hnone => ?_⟩⟩
    · rw [clipMark, markActionOf_eq_none h0]
      rfl
    · obtain ⟨a, ha⟩ := markActionOf_isSome h0
      rw [clipMark, ha, asFin_eq_none.2 h1]
      rfl
    · obtain ⟨t, R, hmark, hopened⟩ := clipMark_in hok hn h0 h3 hnone hfree hlow
      rw [hmark]
      exact ⟨t, R, rfl, hopened⟩
    · subst hR
      obtain ⟨t, hmark, hclosed⟩ := clipMark_out hok hn h0 h3 hopen hsrc hle
      rw [hmark]
      exact ⟨t, rfl, hclosed⟩
    · have hout := markOut_orphan s.clock.frame (timecode s) .command (openClip_none hnone)
      rw [clipMark_unlabelled (m := .markOut) (by rw [h0]; rfl) nofun hn hout]
      exact ⟨_, rfl, by simp⟩
  · rw [exec_clipMark_head hh hc]
    refine ⟨fun h0 h1 h2 => ?_, fun n m r hn hm hr => ?_⟩
    · obtain ⟨a, ha⟩ : ∃ a, asFin 4 (c.word 1) = some a := ⟨_, asFin_lt (Nat.lt_succ_of_le h1)⟩
      simp only [clipMark, h0, markActionOf, ha, h2, and_self, if_true]
      rfl
    · have hnamed : markActionOf (c.word 0) = some m ∧ ¬(m = .label ∧ c.low16 2 = 0) := by
        rcases hm with ⟨h0, rfl⟩ | ⟨h0, rfl⟩ | ⟨h0, rfl⟩ | ⟨h0, rfl, hcode⟩ <;> rw [h0]
        · exact ⟨rfl, nofun⟩
        · exact ⟨rfl, nofun⟩
        · exact ⟨rfl, nofun⟩
        · exact ⟨rfl, fun h => hcode h.2⟩
      rw [clipMark_named hnamed.1 hn hnamed.2 hr]
      cases r.2 with
      | done x => by_cases h : 250 < c.word 3 <;> simp [markResult, h]
      | _ => rfl
  · refine ⟨markArrival_toggle hok k g tc p o, fun hnone => markOut_orphan g tc o (openClip_none hnone),
      fun i R hR hopen hsrc => ?_, fun hnone hfull => ?_, fun hnone i R hR ht => ?_⟩
    · subst hR
      refine ⟨markOut_open g tc o (openClip_source hok hopen hsrc), fun u hu => ?_⟩
      have hready : u.log.opens.get n = none ∧ LogOk u ∧ u.clock = s.clock := by
        rw [hu]
        split <;> exact closedAs_ready hok hopen hsrc ..
      obtain ⟨hnone, hok', hclock⟩ := hready
      subst hftc
      exact ⟨markIn_chained g tc p o (openClip_source hok hopen hsrc) hf hu (openClip_none hnone) hclock, hnone, hok', hclock⟩
    · subst hf
      exact markIn_full g tc p o (openClip_none hnone) (takeRecord_none fun j => hfull j _ rfl)
    · subst hR
      obtain ⟨hin, htag⟩ := markIn_opens hok hnone ht g tc p o hf hftc rfl rfl
      obtain ⟨hnext, -⟩ := openingNumber_nextFree hok.1 i
      refine ⟨openingClip i n f ftc s, _, ?_, ?_, rangeOpened_range rfl rfl rfl rfl rfl, rfl, hin.trans (by rw [htag]; rfl)⟩
      · rw [openingClip_num]
        exact openingClip_eq ..
      · rw [openingClip_num]
        exact hnext

end Sys2Proof.Machine
end

section
/-! What keeps the clip log and the send queue in agreement: a record moved from one state to another, and what changes
neither the numbers, the states nor the pointers (R138, R139, R171). -/

namespace Sys2Proof.Machine

open Sys2Proof.Safety

/-! ## The log and the numbers SENDING -/

/-- The clip numbers of some entries of the send queue. -/
def clipsOf (q : List Send) : Set Nat := {n | n ∈ q.map (·.clip)}

/-- R138 and R139, with the clips SENDING those of the numbers `N`: what stands of `LogOk` while the queue
is being changed. -/
def LogSending (N : Set Nat) (s : State) : Prop :=
  NumbersOk s ∧ PointersOk s ∧ ∀ n, n ∈ N ↔ ∃ i, (s.log.recs.get i).state = .sending ∧ (s.log.recs.get i).num = n

theorem logOk_iff {s : State} : LogOk s ↔
    LogSending (clipsOf s.xfer.queue) s ∧ (s.xfer.queue.map (·.clip)).Nodup ∧ s.xfer.queue.length ≤ 8 := by
  have hmem (n : Nat) : n ∈ clipsOf s.xfer.queue ↔ ∃ e ∈ s.xfer.queue, e.clip = n := List.mem_map
  constructor
  · rintro ⟨hn, hp, hnodup, hlen, hsending, hqueued⟩
    refine ⟨⟨hn, hp, fun n => (hmem n).trans ⟨?_, ?_⟩⟩, hnodup, hlen⟩
    · rintro ⟨e, he, rfl⟩
      exact hsending e he
    · rintro ⟨i, hi, rfl⟩
      exact hqueued i hi
  · rintro ⟨⟨hn, hp, hiff⟩, hnodup, hlen⟩
    exact ⟨hn, hp, hnodup, hlen, fun e he => (hiff _).1 ((hmem _).2 ⟨e, he, rfl⟩),
      fun i hi => (hmem _).1 ((hiff _).2 ⟨i, hi, rfl⟩)⟩

/-- A record that is not FREE before and after, and keeps its number, is again as R136 allows. -/
theorem clipOk_moved {R X : Clip} (hR : clipOk R) (hfree : R.state ≠ .free) (hnum : X.num = R.num)
    (hst : X.state ≠ .free)
    (hprior : X.prior = none ∨ X.prior = some .closed ∨ X.prior = some .sent) : clipOk X := by
  obtain ⟨hzero, hle, -⟩ := hR
  refine ⟨iff_of_false hst fun h0 => hfree (hzero.2 (hnum ▸ h0)), hnum ▸ hle, hprior⟩

theorem num_ne_zero {R : Clip} (hR : clipOk R) (hfree : R.state ≠ .free) : R.num ≠ 0 := by
  obtain ⟨hzero, -⟩ := hR
  exact fun h0 => hfree (hzero.2 h0)

/-! ## One record replaced -/

section
variable {s t : State} {i : Fin 256} {X : Clip} (hrecs : t.log.recs = s.log.recs.set i X)
include hrecs

theorem get_replaced (j : Fin 256) : t.log.recs.get j = if i = j then X else s.log.recs.get j := by
  rw [hrecs, Table.get_set]

theorem numbersOk_replaced (h : NumbersOk s) (hnext : 1 ≤ t.log.nextNum ∧ t.log.nextNum ≤ 65535) (hX : clipOk X)
    (hnum : X.state ≠ .free → ∀ j, j ≠ i → (s.log.recs.get j).state ≠ .free → (s.log.recs.get j).num ≠ X.num) :
    NumbersOk t := by
  obtain ⟨hclips, -, -, hinj⟩ := h
  have hget := get_replaced hrecs
  refine ⟨fun j => ?_, hnext.1, hnext.2, fun j k hj hjk => ?_⟩
  · rw [hget]
    split
    · exact hX
    · exact hclips j
  · rw [hget] at hj
    rw [hget, hget] at hjk
    by_cases hij : i = j <;> by_cases hik : i = k
    · exact hij.symm.trans hik
    · rw [if_pos hij] at hj hjk
      rw [if_neg hik] at hjk
      refine absurd hjk.symm (hnum hj k (Ne.symm hik) fun hfree => ?_)
      obtain ⟨hzero, -⟩ := hclips k
      exact num_ne_zero hX hj (hjk.trans (hzero.1 hfree))
    · rw [if_neg hij] at hj hjk
      rw [if_pos hik] at hjk
      have hfree : X.state ≠ .free := fun hfree => by
        obtain ⟨hzero, -⟩ := hX
        exact num_ne_zero (hclips j) hj (hjk.trans (hzero.1 hfree))
      exact absurd hjk (hnum hfree j (Ne.symm hij) hj)
    · rw [if_neg hij] at hj hjk
      rw [if_neg hik] at hjk
      exact hinj j k hj hjk

/-- The record's old pointer is clear, and its new one set. -/
theorem pointersOk_replaced (hn : NumbersOk s) (h : PointersOk s)
    (hopens : ∀ m, t.log.opens.get m = if X.state = .opened ∧ X.source = m then some X.num
      else if (s.log.recs.get i).state = .opened ∧ (s.log.recs.get i).source = m then none else s.log.opens.get m)
    (hfresh : X.state = .opened → ∀ j, (s.log.recs.get j).state = .opened → (s.log.recs.get j).source ≠ X.source) :
    PointersOk t := by
  obtain ⟨-, -, -, hinj⟩ := hn
  have hget := get_replaced hrecs
  have hsame {j : Fin 256} (hij : ¬i = j) : t.log.recs.get j = s.log.recs.get j := (hget j).trans (if_neg hij)
  intro m n
  rw [hopens]
  split
  next hX =>
    obtain ⟨hXo, rfl⟩ := hX
    constructor
    · rintro ⟨⟩
      exact ⟨i, by rw [hget, if_pos rfl]; exact ⟨hXo, rfl, rfl⟩⟩
    · rintro ⟨j, hj, hjs, hjn⟩
      by_cases hij : i = j
      · rw [hget, if_pos hij] at hjn
        rw [hjn]
      · rw [hsame hij] at hj hjs
        exact absurd hjs (hfresh hXo j hj)
  next hX =>
    have hother {j : Fin 256} (hj : (t.log.recs.get j).state = .opened ∧ (t.log.recs.get j).source = m) : ¬i = j := by
      intro hij
      rw [hget, if_pos hij] at hj
      exact hX hj
    split
    next hR =>
      obtain ⟨hRo, hRm⟩ := hR
      refine iff_of_false nofun fun ⟨j, hj, hjm, _⟩ => ?_
      have hij := hother ⟨hj, hjm⟩
      rw [hsame hij] at hj hjm
      have hnum := ((h m _).2 ⟨i, hRo, hRm, rfl⟩).symm.trans ((h m _).2 ⟨j, hj, hjm, rfl⟩)
      exact hij (hinj i j (by rw [hRo]; decide) (Option.some.inj hnum))
    next hR =>
      rw [h]
      refine exists_congr fun j => ?_
      by_cases hij : i = j
      · subst hij
        exact iff_of_false (fun ⟨hj, hjm, _⟩ => hR ⟨hj, hjm⟩) fun ⟨hj, hjm, _⟩ => hother ⟨hj, hjm⟩ rfl
      · rw [hsame hij]

/-- The numbers SENDING, but for the record's own. -/
theorem sending_replaced {N : Set Nat} (hn : NumbersOk s)
    (hN : ∀ n, n ∈ N ↔ ∃ i, (s.log.recs.get i).state = .sending ∧ (s.log.recs.get i).num = n) (n : Nat) :
    (∃ j, (t.log.recs.get j).state = .sending ∧ (t.log.recs.get j).num = n) ↔
      (n ∈ N ∧ n ≠ (s.log.recs.get i).num) ∨ (X.state = .sending ∧ X.num = n) := by
  obtain ⟨-, -, -, hinj⟩ := hn
  have hget := get_replaced hrecs
  constructor
  · rintro ⟨j, hj, rfl⟩
    by_cases hij : i = j
    · rw [hget, if_pos hij] at hj ⊢
      exact .inr ⟨hj, rfl⟩
    · rw [hget, if_neg hij] at hj ⊢
      exact .inl ⟨(hN _).2 ⟨j, hj, rfl⟩, fun hsame => hij (hinj j i (by rw [hj]; decide) hsame).symm⟩
  · rintro (⟨hmem, hne⟩ | hX)
    · obtain ⟨j, hj, rfl⟩ := (hN n).1 hmem
      have hij : ¬i = j := fun hij => hne (by rw [hij])
      exact ⟨j, by rw [hget, if_neg hij]; exact ⟨hj, rfl⟩⟩
    · exact ⟨i, by rw [hget, if_pos rfl]; exact hX⟩

end

section
variable {N M : Set Nat} {s t : State} {i : Fin 256} {X : Clip}

/-- A clip leaves its state for another than OPEN, its pointer clear if it was OPEN; its number stays, or the record is
FREE. -/
theorem LogSending.moved (h : LogSending N s) (hlog : t.log = { s.log with
      recs := s.log.recs.set i X
      opens := if (s.log.recs.get i).state = .opened then s.log.opens.set (s.log.recs.get i).source none
        else s.log.opens })
    (hX : clipOk X) (hopen : X.state ≠ .opened)
    (hnum : X.state ≠ .free → (s.log.recs.get i).state ≠ .free ∧ X.num = (s.log.recs.get i).num)
    (hM : ∀ n, n ∈ M ↔ (n ∈ N ∧ n ≠ (s.log.recs.get i).num) ∨ (X.state = .sending ∧ X.num = n)) : LogSending M t := by
  obtain ⟨hn, hp, hN⟩ := h
  have hrecs : t.log.recs = s.log.recs.set i X := by rw [hlog]
  refine ⟨numbersOk_replaced hrecs hn ?_ hX fun hfree j hj hjs => ?_, pointersOk_replaced hrecs hn hp (fun m => ?_)
    fun hXo => absurd hXo hopen, fun n => (hM n).trans (sending_replaced hrecs hn hN n).symm⟩
  · obtain ⟨-, hlow, hhigh, -⟩ := hn
    rw [hlog]
    exact ⟨hlow, hhigh⟩
  · obtain ⟨-, -, -, hinj⟩ := hn
    obtain ⟨-, hsame⟩ := hnum hfree
    rw [hsame]
    exact fun hjn => hj (hinj j i hjs hjn)
  · rw [if_neg (c := X.state = .opened ∧ _) fun hXo => hopen hXo.1]
    by_cases hR : (s.log.recs.get i).state = .opened
    · have hopens : t.log.opens = s.log.opens.set (s.log.recs.get i).source none := by rw [hlog, if_pos hR]
      rw [hopens, Table.get_set]
      simp only [hR, true_and]
    · have hopens : t.log.opens = s.log.opens := by rw [hlog, if_neg hR]
      rw [hopens, if_neg fun hRo => hR hRo.1]

/-- A record that is neither OPEN nor SENDING is taken over for a clip of an input that has none (R138, R139, R141). -/
theorem LogSending.opened (h : LogSending N s) (hlog : t.log = { s.log with
      recs := s.log.recs.set i X, nextNum := X.num % 65535 + 1, opens := s.log.opens.set X.source (some X.num) })
    (hR : (s.log.recs.get i).state ≠ .opened ∧ (s.log.recs.get i).state ≠ .sending) (hX : clipOk X)
    (hXo : X.state = .opened) (hnone : s.log.opens.get X.source = none)
    (hnum : ∀ j, j ≠ i → (s.log.recs.get j).state ≠ .free → (s.log.recs.get j).num ≠ X.num) : LogSending N t := by
  obtain ⟨hn, hp, hN⟩ := h
  have hrecs : t.log.recs = s.log.recs.set i X := by rw [hlog]
  refine ⟨numbersOk_replaced hrecs hn ?_ hX fun _ => hnum, pointersOk_replaced hrecs hn hp (fun m => ?_)
    (fun _ j hj hjs => ?_), fun n => ?_⟩
  · rw [hlog]
    dsimp only
    omega
  · rw [hlog, Table.get_set, if_neg (c := (s.log.recs.get i).state = .opened ∧ _) fun h => hR.1 h.1]
    simp only [hXo, true_and]
  · have hptr := (hp _ _).2 ⟨j, hj, hjs, rfl⟩
    rw [hnone] at hptr
    cases hptr
  · rw [sending_replaced hrecs hn hN]
    obtain ⟨-, -, -, hinj⟩ := hn
    constructor
    · refine fun hmem => .inl ⟨hmem, fun hRn => ?_⟩
      obtain ⟨j, hj, hjn⟩ := (hN n).1 hmem
      have hij := hinj j i (by rw [hj]; decide) (hjn.trans hRn)
      exact hR.2 (hij ▸ hj)
    · rintro (⟨hmem, -⟩ | ⟨hXs, -⟩)
      · exact hmem
      · rw [hXo] at hXs
        cases hXs

/-- The one record that holds the number of a SENDING clip. -/
theorem LogSending.findClip_sending (h : LogSending N s) {n : Nat} (hn : n ∈ N) :
    ∃ i, findClip n s = some i ∧ (s.log.recs.get i).state = .sending ∧ (s.log.recs.get i).num = n := by
  obtain ⟨⟨-, -, -, hinj⟩, -, hN⟩ := h
  obtain ⟨i, hi, rfl⟩ := (hN n).1 hn
  cases hf : findClip (s.log.recs.get i).num s with
  | none => exact absurd rfl (findClip_none hf (j := i) (by rw [hi]; decide))
  | some j =>
    obtain ⟨hj, hjn⟩ := findClip_some hf
    obtain rfl := hinj j i hj hjn
    exact ⟨j, rfl, hi, rfl⟩

end

/-! ## Changes that the numbers, the states and the pointers stand through -/

/-- Two records with the same number, states and source. -/
def SameMarks (R X : Clip) : Prop :=
  X.num = R.num ∧ X.state = R.state ∧ X.prior = R.prior ∧ X.source = R.source

theorem SameMarks.trans {R X Y : Clip} (h : SameMarks R X) (h' : SameMarks X Y) : SameMarks R Y := by
  obtain ⟨hnum, hstate, hprior, hsource⟩ := h
  obtain ⟨hnum', hstate', hprior', hsource'⟩ := h'
  exact ⟨hnum'.trans hnum, hstate'.trans hstate, hprior'.trans hprior, hsource'.trans hsource⟩

/-- From `s` to `t` the log keeps its pointers and its next number, and each record its number, states and source. -/
def SameClips (s t : State) : Prop :=
  t.log.nextNum = s.log.nextNum ∧ t.log.opens = s.log.opens
    ∧ ∀ i, SameMarks (s.log.recs.get i) (t.log.recs.get i)

section
variable {s t u : State}

theorem SameClips.of_log (h : t.log = s.log) : SameClips s t := by
  rw [SameClips, h]
  exact ⟨rfl, rfl, fun _ => ⟨rfl, rfl, rfl, rfl⟩⟩

theorem SameClips.trans (h : SameClips s t) (h' : SameClips t u) : SameClips s u := by
  obtain ⟨hnext, hopens, hrecs⟩ := h
  obtain ⟨hnext', hopens', hrecs'⟩ := h'
  exact ⟨hnext'.trans hnext, hopens'.trans hopens, fun i => (hrecs i).trans (hrecs' i)⟩

theorem LogSending.congr {N : Set Nat} (h : SameClips s t) (hs : LogSending N s) : LogSending N t := by
  obtain ⟨hnext, hopens, hrecs⟩ := h
  choose hnum hstate hprior hsource using hrecs
  simp only [LogSending, NumbersOk, PointersOk, clipOk, hnext, hopens, hnum, hstate, hprior, hsource]
  exact hs

theorem changeRec_log (i : Fin 256) (f : Clip → Clip) (s : State) : (changeRec i f s).log =
    { s.log with recs := s.log.recs.set i { f (s.log.recs.get i) with rev := (f (s.log.recs.get i)).rev + 1 } } := by
  rw [changeRec_eq i (g := fun R => { f R with rev := (f R).rev + 1 }) fun _ => rfl]
  rfl

theorem changeRec_sameClips (i : Fin 256) {f : Clip → Clip} (h : ∀ R, SameMarks R (f R)) :
    SameClips s (changeRec i f s) := by
  rw [SameClips, changeRec_log]
  refine ⟨rfl, rfl, fun j => ?_⟩
  rw [Table.get_set]
  split
  next hij =>
    subst hij
    exact h _
  next => exact ⟨rfl, rfl, rfl, rfl⟩

/-! ## What keeps the log and the queue in agreement -/

/-- From `s` to `t` the agreement of the log and the send queue is kept. -/
structure LogKept (s t : State) : Prop where
  keeps : LogOk s → LogOk t

theorem LogKept.refl (s : State) : LogKept s s := ⟨id⟩

theorem LogKept.trans (h : LogKept s t) (h' : LogKept t u) : LogKept s u := ⟨h'.keeps ∘ h.keeps⟩

theorem LogKept.of_same (h : SameClips s t) (hq : t.xfer.queue = s.xfer.queue) : LogKept s t := by
  refine ⟨fun hs => ?_⟩
  rw [logOk_iff] at hs ⊢
  rw [hq]
  exact ⟨hs.1.congr h, hs.2⟩

theorem LogKept.of_blocks (hl : t.log = s.log) (hx : t.xfer = s.xfer) : LogKept s t :=
  .of_same (.of_log hl) (by rw [hx])

/-- What comes first leaves the log and the engine. -/
theorem LogKept.from_blocks (h : LogKept t u) (hl : t.log = s.log) (hx : t.xfer = s.xfer) : LogKept s u :=
  (LogKept.of_blocks hl hx).trans h

/-- What comes after leaves the log and the engine. -/
theorem LogKept.to_blocks (h : LogKept s t) (hl : u.log = t.log) (hx : u.xfer = t.xfer) : LogKept s u :=
  h.trans (.of_blocks hl hx)

theorem forEach_logKept {α : Type} {f : α → State → State} (h : ∀ a t, LogKept t (f a t)) (l : List α) :
    LogKept s (forEach l f s) :=
  forEach_inv (.refl s) fun a _ t ht => ht.trans (h a t)

end

end Sys2Proof.Machine
end

section
/-! What the blocks' work does to the clip log: changes of records that leave its numbers, states and pointers, clips
made LOST, and marks (R122 to R129, R138 to R147). -/

namespace Sys2Proof.Machine

open Sys2Proof.Safety

section
variable {s : State}

/-! ## Records changed in their place (R122 to R129, R137, R144 to R147) -/

theorem changeRec_logKept (i : Fin 256) {f : Clip → Clip} (h : ∀ R, SameMarks R (f R)) : LogKept s (changeRec i f s) :=
  .of_same (changeRec_sameClips i h) (by simp)

theorem changeRecs_logKept (l : List (Fin 256)) {f : Clip → Clip} (h : ∀ R, SameMarks R (f R)) :
    LogKept s (forEach l (changeRec · f) s) :=
  forEach_logKept (fun i _ => changeRec_logKept i h) l

theorem raise_logKept {t : State} (k : NoticeKind) (j : Nat) (d : List Item) (h : LogKept s t) :
    LogKept s (raise k j d t) := h.to_blocks (by simp) (by simp)

theorem sendTag_logKept {t : State} (i : Fin 256) (e : TagEvent) (h : LogKept s t) : LogKept s (sendTag i e t) :=
  h.to_blocks (by simp) (by simp)

theorem makeLogOnly_logKept (i : Fin 256) : LogKept s (makeLogOnly i s) :=
  changeRec_logKept i fun _ => ⟨rfl, rfl, rfl, rfl⟩

theorem pendingToLogOnly_logKept (p : Clip → Bool) : LogKept s (pendingToLogOnly p s) :=
  forEach_logKept (fun i _ => makeLogOnly_logKept i) _

theorem resolveEnd_logKept (i : Fin 256) : LogKept s (resolveEnd i s) :=
  changeRec_logKept i fun _ => ⟨rfl, rfl, rfl, rfl⟩

theorem stopRecording_logKept (l : Fin 4) : LogKept s (stopRecording l s) :=
  (forEach_logKept (fun i _ => resolveEnd_logKept i) _).trans (pendingToLogOnly_logKept _)

theorem resolveAtFrameStart_logKept (l : Fin 4) (n : W32) : LogKept s (resolveAtFrameStart l n s) := by
  refine forEach_logKept (fun i t => ?_) _
  split
  · exact resolveEnd_logKept i
  · exact makeLogOnly_logKept i

theorem resolveFirst_logKept (l : Fin 4) (e : IndexEntry) (before : List IndexEntry) :
    LogKept s (resolveFirst l e before s) :=
  changeRecs_logKept _ fun _ => ⟨rfl, rfl, rfl, rfl⟩

theorem markGaps_logKept (src : Option (Fin 4)) (frame : W32) : LogKept s (markGaps src frame s) :=
  changeRecs_logKept _ fun _ => ⟨rfl, rfl, rfl, rfl⟩

theorem reportDamage_logKept (l : Fin 4) : LogKept s (reportDamage l s) := by
  unfold reportDamage
  split
  · exact .refl s
  · exact changeRec_logKept _ fun _ => ⟨rfl, rfl, rfl, rfl⟩

theorem addTallies_logKept : LogKept s (addTallies s) :=
  changeRecs_logKept _ fun _ => ⟨rfl, rfl, rfl, rfl⟩

/-- The tally of a row is not mirrored (R147). -/
theorem tallyRows_logKept (l : Fin 4) (frame : W32) : LogKept s (tallyRows l frame s) := by
  refine .of_same ⟨rfl, rfl, fun i => ?_⟩ rfl
  show SameMarks _ ((s.log.recs.map _).get i)
  rw [Table.get_map]
  split <;> exact ⟨rfl, rfl, rfl, rfl⟩

/-! ## Clips made LOST (R122) -/

/-- A clip that is made LOST takes its number from the SENDING ones. -/
theorem LogSending.lost {N M : Set Nat} (h : LogSending N s) {i : Fin 256} (hi : (s.log.recs.get i).state ≠ .free)
    (hM : ∀ n, n ∈ M ↔ n ∈ N ∧ n ≠ (s.log.recs.get i).num) : LogSending M (loseClip i s) := by
  obtain ⟨⟨hclips, -⟩, -⟩ := id h
  rw [loseClip_eq]
  refine h.moved (X := lostClip (s.log.recs.get i)) (lostAt_log i s)
    (clipOk_moved (hclips i) hi rfl nofun (.inl rfl)) nofun (fun _ => ⟨hi, rfl⟩) fun n => ?_
  rw [hM]
  exact ⟨.inl, fun h => h.resolve_right fun hX => nomatch hX.1⟩

/-- Losing clips that are neither FREE nor SENDING. -/
theorem forEach_loseClip_logKept {l : List (Fin 256)} (hl : l.Nodup)
    (h : ∀ i ∈ l, (s.log.recs.get i).state ≠ .free ∧ (s.log.recs.get i).state ≠ .sending) :
    LogKept s (forEach l loseClip s) := by
  induction l generalizing s with
  | nil => exact .refl s
  | cons i l ih =>
    obtain ⟨hil, hl⟩ := List.nodup_cons.1 hl
    obtain ⟨⟨hfree, hsend⟩, hrest⟩ := List.forall_mem_cons.1 h
    have hone : LogKept s (loseClip i s) := by
      refine ⟨fun hs => ?_⟩
      obtain ⟨hlog, hqueue⟩ := logOk_iff.1 hs
      obtain ⟨⟨-, -, -, hinj⟩, -, hN⟩ := id hlog
      have hxfer : (loseClip i s).xfer = s.xfer := by simp
      rw [logOk_iff, hxfer]
      refine ⟨hlog.lost hfree fun n => (and_iff_left_of_imp fun hn hni => ?_).symm, hqueue⟩
      obtain ⟨j, hj, hjn⟩ := (hN n).1 hn
      exact hsend (hinj j i (by rw [hj]; decide) (hjn.trans hni) ▸ hj)
    refine hone.trans (ih hl fun j hj => ?_)
    have hsame : (loseClip i s).log.recs.get j = s.log.recs.get j := by
      rw [loseClip_eq, lostAt_log]
      exact Table.get_modify_ne _ _ fun hij => hil (hij ▸ hj)
    rw [hsame]
    exact hrest j hj

/-- The clips of a leaving unit, or of the whole store, are OPEN, CLOSED or SENT, and none is named twice. -/
theorem loseOldest_logKept (seq : W32) {p : Clip → Bool} (hp : ∀ R, p R = true → R.losable = true) :
    LogKept s (forEach (oldestFirst seq s (recsWhere p s)) loseClip s) := by
  have hof := oldestFirst_of (seq := seq) (fun R => Iff.rfl (a := p R = true)) s
  refine forEach_loseClip_logKept (nodup_of_oldestFirst hof) fun i hi => ?_
  obtain ⟨-, hst⟩ := (losable_iff _).1 (hp _ ((hof.1 i).1 hi))
  rcases hst with hst | hst | hst <;> rw [hst] <;> exact ⟨nofun, nofun⟩

theorem loseUpTo_logKept (seq : W32) : LogKept s (loseUpTo seq s) :=
  loseOldest_logKept seq fun _ h => (Bool.and_eq_true_iff.1 h).1

theorem loseAll_logKept : LogKept s (loseAll s) :=
  (loseOldest_logKept _ fun _ h => h).trans (pendingToLogOnly_logKept _)

/-! ## Offers to the store (R120 to R125) -/

theorem unitLeaves_logKept (u : StoredUnit) : LogKept s (unitLeaves u s) :=
  (loseUpTo_logKept u.seq).from_blocks rfl rfl

theorem indexStep_logKept (l : Fin 4) (frame seq : W32) (cell : Nat) : LogKept s (indexStep l frame seq cell s) := by
  rw [indexStep_eq]
  split
  · exact (resolveFirst_logKept _ _ _).from_blocks rfl rfl
  · exact .of_blocks rfl rfl

theorem storeUnit_logKept (src : Option (Fin 4)) (frame : W32) (u : MUnit) (out keep : List Retained) :
    LogKept s (storeUnit src frame u out keep s) := by
  have hleft : LogKept s (unitsLeft out keep s) :=
    (forEach_logKept (fun v _ => unitLeaves_logKept v) _).from_blocks rfl rfl
  have hjoined : LogKept s (unitJoined src frame u out keep s) :=
    hleft.to_blocks (by simp [unitJoined]) (by simp [unitJoined])
  have hnoted (q : W32) (c : Nat) (t : State) : LogKept t (rowNoted src frame q c t) := by
    cases src with
    | none => exact .refl t
    | some l => exact (indexStep_logKept ..).trans (tallyRows_logKept l frame)
  rw [storeUnit_eq]
  exact (hjoined.trans (hnoted _ _ _)).to_blocks rfl rfl

theorem refuseOffer_logKept (src : Option (Fin 4)) (frame : W32) (i : Fin 256) :
    LogKept s (refuseOffer src frame i s) := by
  have hgaps (f : Store → Store) : LogKept s (markGaps src frame (s.modStore f)) :=
    (markGaps_logKept src frame).from_blocks rfl rfl
  unfold refuseOffer
  dsimp only
  split
  · exact raise_logKept _ _ _ ((hgaps _).to_blocks rfl rfl)
  · exact (hgaps _).to_blocks rfl rfl

theorem offerStore_logKept (src : Option (Fin 4)) (frame : W32) (u : MUnit) : LogKept s (offerStore src frame u s) := by
  unfold offerStore
  dsimp only
  split
  · exact refuseOffer_logKept ..
  · exact (storeUnit_logKept ..).from_blocks (by simp) (by simp)

theorem storeFrameStart_logKept (l : Fin 4) (n : W32) : LogKept s (storeFrameStart l n s) :=
  (resolveAtFrameStart_logKept l n).from_blocks rfl rfl

/-! ## Picture and sound (R35 to R40, R48, R89 to R92) -/

theorem offerLives_logKept (ps : List (Fin 2)) (src : Fin 5) (u : MUnit) (s : State) :
    LogKept s (ps.foldl (fun y p => offerLive src u p y) s) :=
  forEach_logKept (fun p t => .of_blocks (by simp) (by simp)) ps

theorem offerRow_logKept (l : Fin 4) (u : MUnit) : LogKept s (offerRow l u s) := by
  generalize hx : (if (s.lanes.get l).record = true ∧ s.store.state ≠ .off then
      offerStore (some l) (s.lanes.get l).frameNo u s else s) = x
  have hstore : LogKept s x := by
    rw [← hx]
    split
    · exact offerStore_logKept _ _ _
    · exact .refl s
  rw [offerRow_eq hx.symm]
  split
  · exact hstore.trans (offerLives_logKept _ _ _ x)
  · exact hstore

theorem rowComplete_logKept (l : Fin 4) (j : Nat) (row : List Byte) : LogKept s (rowComplete l j row s) := by
  rw [rowComplete_eq rfl rfl]
  exact (offerRow_logKept l _).from_blocks (by simp [chargedRow]) (by simp [chargedRow])

theorem feedRows_logKept (l : Fin 4) (k : Nat) (d : List Byte) (s : State) : LogKept s (feedRows l k d s) := by
  induction k generalizing d s with
  | zero => exact .refl s
  | succ k ih =>
    unfold feedRows
    split
    next g slot expected j part _ _ =>
      have hrow (row : List Byte) (f : Lane → Lane) : LogKept s ((rowComplete l j row s).modLane l f) :=
        (rowComplete_logKept l j row).to_blocks rfl rfl
      dsimp only
      split
      · exact .of_blocks rfl rfl
      · split
        · exact hrow _ _
        · exact (hrow _ _).trans (ih _ _)
    next => exact .refl s

theorem frameStart_logKept (l : Fin 4) (slot off : Nat) (d : List Byte) (s : State) :
    LogKept s (frameStart l slot off d s) := by
  have hannounced : LogKept s (frameStarted l slot off s) :=
    (storeFrameStart_logKept l s.clock.frame).from_blocks (by simp [inFrameFrom]) (by simp [inFrameFrom])
  exact hannounced.trans (feedRows_logKept l _ d _)

theorem abandon_logKept (l : Fin 4) (r : SkewReason) (expected off j : Nat) :
    LogKept s (abandon l r expected off j s) := by
  have hdamage (f : Lane → Lane) : LogKept s (reportDamage l (s.modLane l f)) :=
    (reportDamage_logKept l).from_blocks rfl rfl
  exact raise_logKept _ _ _ (hdamage _)

theorem takePicture_logKept (l : Fin 4) (off : Nat) (d : List Byte) (s : State) :
    LogKept s (takePicture l off d s) := by
  unfold takePicture
  dsimp only
  split
  · exact .refl s
  · exact .refl s
  · split
    · exact .of_blocks (by simp) (by simp)
    · split
      · exact frameStart_logKept ..
      · exact .of_blocks rfl rfl
  · split
    · exact abandon_logKept ..
    · split
      · exact feedRows_logKept ..
      · split
        · exact (abandon_logKept ..).trans (frameStart_logKept ..)
        · exact abandon_logKept ..

theorem closeUnit_logKept (a : Accumulator) (restart : Bool) : LogKept s (closeUnit a restart s) := by
  rw [closeUnit_eq rfl rfl]
  refine LogKept.trans ?_ (offerLives_logKept _ _ _ _)
  split
  · exact .of_blocks rfl rfl
  · exact (offerStore_logKept none a.frame a.toUnit).from_blocks rfl rfl

theorem mixerTick_logKept (pos : Nat) (opening : Bool) : LogKept s (mixerTick pos opening s) := by
  have hmixed : LogKept s (mixedAt pos opening s) :=
    .of_blocks (by simp [mixedAt_eq, mixedBefore, inputsSettled_eq, apply_ite])
      (by simp [mixedAt_eq, mixedBefore, inputsSettled_eq, apply_ite])
  rw [mixerTick_eq]
  refine hmixed.trans ?_
  generalize mixedAt pos opening s = v
  unfold accumulate
  split
  · exact .of_blocks rfl rfl
  · dsimp only
    split
    · exact closeUnit_logKept _ _
    · exact .of_blocks rfl rfl

/-! ## Acceptance (R1, R10) -/

theorem handWrite_logKept (f : Fn) (off : Nat) (i : Fin 16) (d : List Byte) : LogKept s (handWrite f off i d s) := by
  cases f with
  | picture l => exact takePicture_logKept l off d s
  | notices =>
    simp only [handWrite]
    split
    · exact .of_blocks (by simp) (by simp)
    · exact .refl s
  | _ => exact .of_blocks (by simp [handWrite]) (by simp [handWrite])

theorem takePiece_logKept (p : Piece) (s : State) : LogKept s (takePiece p s) := by
  unfold takePiece
  split
  · split
    · exact .refl s
    · exact .of_blocks rfl rfl
  · dsimp only
    split
    · exact (handWrite_logKept _ _ _ _).from_blocks rfl rfl
    · exact .of_blocks rfl rfl

theorem acceptHeld_logKept (s : State) : LogKept s (acceptHeld s) := by
  refine acceptHeld_inv (.refl s) fun r rest t ht => ht.trans ?_
  have haccept (u : State) : LogKept u (acceptRequest r u) :=
    LogKept.from_blocks (forEach_logKept takePiece_logKept _) (by simp) (by simp)
  exact (haccept _).from_blocks rfl rfl

/-! ## Marks (R140 to R144) -/

theorem takeRecord_state {i : Fin 256} (h : takeRecord s = some i) :
    (s.log.recs.get i).state = .free ∨ (s.log.recs.get i).state = .sent ∨ (s.log.recs.get i).state = .lost := by
  have hearliest {st : ClipState} {j : Fin 256}
      (hj : earliest s (recsWhere (fun c => decide (c.state = st)) s) = some j) :
      (s.log.recs.get j).state = st := by
    rw [earliest_eq] at hj
    exact of_decide_eq_true (mem_recsWhere.1 ((mem_of_foldl_earlierOf hj).resolve_left nofun))
  unfold takeRecord at h
  split at h
  next j hj =>
    obtain rfl := Option.some.inj h
    exact .inl (by simpa using List.find?_some hj)
  next =>
    split at h
    next j hj =>
      obtain rfl := Option.some.inj h
      exact .inr (.inl (hearliest hj))
    next => exact .inr (.inr (hearliest h))

/-- IN for an input with no OPEN clip: the record taken over is not SENDING, and its new number is nobody's (R138, R141,
R142). -/
theorem markIn_logOk_of_none (hs : LogOk s) {n : Fin 4} (hnone : s.log.opens.get n = none) (g : W32) (tc p : Nat)
    (o : Origin) : LogOk (markIn n g tc p o s).1 := by
  cases ht : takeRecord s with
  | none =>
    rw [markIn_full g tc p o (openClip_none hnone) ht]
    exact (LogKept.of_blocks (by simp) (by simp)).keeps hs
  | some i =>
    have hstate := takeRecord_state ht
    obtain ⟨⟨-, -, hheld, -⟩, hlow, hhigh⟩ := openingNumber_nextFree hs.1 i
    rw [markIn_taken g tc p o (openClip_none hnone) ht rfl rfl, openedByMarkIn_eq hs.1]
    generalize hX : openingClip i n (g - BitVec.ofNat 32 p) (subMod tc p (dayFrames s)) s = X
    have hfields := openingClip_eq i n (g - BitVec.ofNat 32 p) (subMod tc p (dayFrames s)) s
    rw [hX] at hfields
    have hnum : X.num = openingNumber i s := congrArg Clip.num hfields
    have hopened : X.state = .opened := congrArg Clip.state hfields
    have hsrc : X.source = n := congrArg Clip.source hfields
    have hprior : X.prior = none := congrArg Clip.prior hfields
    rw [logOk_iff] at hs ⊢
    refine ⟨?_, by simpa using hs.2⟩
    simp only [mirror_frame, sendTag_frame, raise_frame, State.modLog_xfer]
    refine hs.1.opened (i := i) (X := { X with rev := X.rev + 1 }) ?_ ?_ ⟨?_, ?_, .inl hprior⟩ hopened
      (by rw [hsrc]; exact hnone) fun j hj hjs => by rw [hnum]; exact hheld j hj hjs
    · rw [openedClip_log, hsrc]
    · rcases hstate with h | h | h <;> rw [h] <;> exact ⟨nofun, nofun⟩
    · refine iff_of_false (by rw [hopened]; nofun) ?_
      rw [hnum]
      omega
    · rw [hnum]
      exact hhigh

/-- The OPEN clip that an input's pointer names (R139). -/
theorem exists_opened (hs : LogOk s) {n : Fin 4} (h : s.log.opens.get n ≠ none) :
    ∃ i, (s.log.recs.get i).state = .opened ∧ (s.log.recs.get i).source = n := by
  obtain ⟨m, hm⟩ := Option.ne_none_iff_exists'.1 h
  obtain ⟨-, hptr, -⟩ := hs
  obtain ⟨i, hi, hsrc, -⟩ := (hptr n m).1 hm
  exact ⟨i, hi, hsrc⟩

theorem markIn_logKept (n : Fin 4) (g : W32) (tc p : Nat) (o : Origin) : LogKept s (markIn n g tc p o s).1 := by
  refine ⟨fun hs => ?_⟩
  by_cases hnone : s.log.opens.get n = none
  · exact markIn_logOk_of_none hs hnone g tc p o
  · obtain ⟨i, hi, hsrc⟩ := exists_opened hs hnone
    generalize hu : (if earlier (g - BitVec.ofNat 32 p - 1) (s.log.recs.get i).inFrame = true then
        closedAs i (s.log.recs.get i).inFrame (s.log.recs.get i).inTc o s
      else closedAs i (g - BitVec.ofNat 32 p - 1) (subMod (subMod tc p (dayFrames s)) 1 (dayFrames s)) o s) = u
    obtain ⟨hnone', hs', hclock⟩ : u.log.opens.get n = none ∧ LogOk u ∧ u.clock = s.clock := by
      rw [← hu]
      split <;> exact closedAs_ready hs hi hsrc ..
    rw [markIn_chained g tc p o (openClip_source hs hi hsrc) rfl hu.symm (openClip_none hnone') hclock]
    exact markIn_logOk_of_none hs' hnone' g tc p o

theorem markOut_logKept (n : Fin 4) (g : W32) (tc : Nat) (o : Origin) : LogKept s (markOut n g tc o s).1 := by
  refine ⟨fun hs => ?_⟩
  by_cases hnone : s.log.opens.get n = none
  · rw [markOut_orphan g tc o (openClip_none hnone)]
    exact (LogKept.of_blocks (by simp) (by simp)).keeps hs
  · obtain ⟨i, hi, hsrc⟩ := exists_opened hs hnone
    rw [markOut_open g tc o (openClip_source hs hi hsrc)]
    dsimp only
    split <;> exact closedAs_logOk hi _ _ _ hs

theorem addLabel_logKept (i : Fin 256) (k : W16) : LogKept s (addLabel i k s).1 := by
  unfold addLabel
  dsimp only
  split
  · exact .refl s
  · split
    · exact changeRec_logKept i fun _ => ⟨rfl, rfl, rfl, rfl⟩
    · exact sendTag_logKept _ _ (changeRec_logKept i fun _ => ⟨rfl, rfl, rfl, rfl⟩)

theorem markArrival_logKept (a : MarkAction) (n : Fin 4) (k : W16) (g : W32) (tc p : Nat) (o : Origin) :
    LogKept s (markArrival a n k g tc p o s).1 := by
  cases a with
  | markIn => exact markIn_logKept ..
  | markOut => exact markOut_logKept ..
  | toggle =>
    simp only [markArrival]
    split
    · exact markIn_logKept ..
    · exact markOut_logKept ..
  | label =>
    simp only [markArrival, markLabel]
    split
    · exact .of_blocks (by simp) (by simp)
    · exact addLabel_logKept ..

end

end Sys2Proof.Machine
end

section
/-! Every step keeps the clip log and the send queue in agreement: the transfer engine, the acts of a tick and the
host's commands (R138, R139, R165 to R171). -/

namespace Sys2Proof.Machine

open Sys2Proof.Safety

section
variable {s : State}

/-! ## An entry of the send queue ends (R168 to R170) -/

/-- A SENDING clip, found by its number, goes into another state with its number kept. -/
theorem LogSending.ended {N : Set Nat} (h : LogSending N s) {n : Nat} {i : Fin 256}
    (hi : (s.log.recs.get i).state = .sending)
    (hn : (s.log.recs.get i).num = n) {f : Clip → Clip} (hnum : ∀ R, (f R).num = R.num)
    (hst : ∀ R, (R.prior = none ∨ R.prior = some .closed ∨ R.prior = some .sent) →
      (f R).state = .closed ∨ (f R).state = .sent) (hprior : ∀ R, (f R).prior = none) :
    LogSending (N \ {n}) (changeRec i f s) := by
  obtain ⟨⟨hclips, -⟩, -⟩ := id h
  obtain ⟨-, -, hold⟩ := hclips i
  have hfree : (s.log.recs.get i).state ≠ .free := by rw [hi]; decide
  have hnot : (f (s.log.recs.get i)).state ≠ .free ∧ (f (s.log.recs.get i)).state ≠ .opened
      ∧ (f (s.log.recs.get i)).state ≠ .sending := by
    rcases hst _ hold with hs | hs <;> rw [hs] <;> exact ⟨nofun, nofun, nofun⟩
  obtain ⟨hnotFree, hnotOpen, hnotSending⟩ := hnot
  refine h.moved (X := { f (s.log.recs.get i) with rev := (f (s.log.recs.get i)).rev + 1 }) ?_
    (clipOk_moved (hclips i) hfree (hnum _) hnotFree (.inl (hprior _))) hnotOpen (fun _ => ⟨hfree, hnum _⟩) fun m => ?_
  · rw [changeRec_log, if_neg (by rw [hi]; decide)]
  · rw [hn]
    exact (or_iff_left fun hX => hnotSending hX.1).symm

theorem restorePrior_logSending {N : Set Nat} (h : LogSending N s) {n : Nat} (hn : n ∈ N) :
    LogSending (N \ {n}) (restorePrior n s) := by
  obtain ⟨i, hf, hi, hnum⟩ := h.findClip_sending hn
  rw [restorePrior, hf]
  refine h.ended hi hnum (fun _ => rfl) (fun R hR => ?_) fun _ => rfl
  rcases hR with hR | hR | hR
  · exact .inl (by rw [hR]; rfl)
  · exact .inl (by rw [hR]; rfl)
  · exact .inr (by rw [hR]; rfl)

theorem endEntry_logSending {N : Set Nat} (h : LogSending N s) (r : EndReason) (lost : Bool) (placed remaining : Nat)
    {e : Send} (he : e.clip ∈ N) : LogSending (N \ {e.clip}) (endEntry r lost placed remaining e s) := by
  cases lost with
  | false => exact (restorePrior_logSending h he).congr (.of_log (by simp [endEntry]))
  | true =>
    have hraised : LogSending N (raiseEnded r e placed remaining s) := h.congr (.of_log (by simp))
    obtain ⟨i, hf, hi, hnum⟩ := hraised.findClip_sending he
    simp only [endEntry, if_true, hf]
    exact hraised.lost (by rw [hi]; decide) fun n => by rw [hnum]; rfl

theorem sdiff_clipsOf_cons (N : Set Nat) (e : Send) (l : List Send) :
    N \ clipsOf (e :: l) = (N \ {e.clip}) \ clipsOf l := by
  ext n
  simp [clipsOf, and_assoc]

theorem ne_of_not_mem_clips {e x : Send} {l : List Send} (h : e.clip ∉ l.map (·.clip)) (hx : x ∈ l) : x.clip ≠ e.clip :=
  fun hxe => h (hxe ▸ List.mem_map_of_mem (f := (·.clip)) hx)

/-- Several entries end, one after another. -/
theorem forEach_endEntry_logSending {N : Set Nat} {l : List Send} (h : LogSending N s) (r : EndReason) (lost : Bool)
    (hl : ∀ e ∈ l, e.clip ∈ N) (hn : (l.map (·.clip)).Nodup) :
    LogSending (N \ clipsOf l) (forEach l (endEntry r lost 0 0) s) := by
  induction l generalizing N s with
  | nil => simpa [clipsOf] using h
  | cons e l ih =>
    obtain ⟨he, hl⟩ := List.forall_mem_cons.1 hl
    obtain ⟨hel, hn⟩ := List.nodup_cons.1 hn
    rw [forEach_cons, sdiff_clipsOf_cons]
    exact ih (endEntry_logSending h r lost 0 0 he) (fun x hx => ⟨hl x hx, ne_of_not_mem_clips hel hx⟩) hn

/-! ## The engine goes on (R166 to R168) -/

theorem skipUnits_queue (k : Nat) (s : State) : (skipUnits k s).xfer.queue = s.xfer.queue := by
  induction k generalizing s with
  | zero => rfl
  | succ k ih =>
    unfold skipUnits
    split
    · rfl
    · exact ih _

theorem activate_queue (s : State) : (activate s).xfer.queue = s.xfer.queue := by
  unfold activate
  split
  next h => rw [h]; rfl
  next => rfl

/-- The engine's own bookkeeping leaves the log, and the queue. -/
theorem LogKept.of_queue {t : State} (hl : t.log = s.log) (hq : t.xfer.queue = s.xfer.queue) : LogKept s t :=
  .of_same (.of_log hl) hq

/-- The clips of a queue without one of its entries. -/
theorem clipsOf_tail {e : Send} {rest : List Send} (h : ((e :: rest).map (·.clip)).Nodup) :
    clipsOf (e :: rest) \ {e.clip} = clipsOf rest := by
  rw [List.map_cons, List.nodup_cons] at h
  ext n
  simp only [clipsOf, List.map_cons, Set.mem_sdiff, Set.mem_ofPred_eq, List.mem_cons, Set.mem_singleton_iff]
  constructor
  · rintro ⟨rfl | hn, hne⟩
    · exact absurd rfl hne
    · exact hn
  · exact fun hn => ⟨.inr hn, fun hne => h.1 (hne ▸ hn)⟩

theorem head_mem_clipsOf (e : Send) (rest : List Send) : e.clip ∈ clipsOf (e :: rest) := List.mem_cons_self

/-- The agreement with the head entry gone, once its clip is no longer SENDING. -/
theorem logOk_of_tail {t : State} {e : Send} {rest : List Send} (hs : LogOk s) (hq : s.xfer.queue = e :: rest)
    (ht : LogSending (clipsOf s.xfer.queue \ {e.clip}) t) (htq : t.xfer.queue = rest) : LogOk t := by
  rw [logOk_iff, hq] at hs
  obtain ⟨-, hn, hlen⟩ := hs
  rw [hq, clipsOf_tail hn] at ht
  rw [logOk_iff, htq]
  exact ⟨ht, (List.nodup_cons.1 hn).2, (Nat.le_succ _).trans hlen⟩

theorem complete_logKept : LogKept s (complete s) := by
  refine ⟨fun hs => ?_⟩
  cases hq : s.xfer.queue with
  | nil =>
    rw [complete, hq]
    exact hs
  | cons e rest =>
    have hsend := (logOk_iff.1 hs).1
    obtain ⟨i, hf, hi, hnum⟩ := hsend.findClip_sending (hq ▸ head_mem_clipsOf e rest)
    have hended := hsend.ended (f := fun c => { c with state := .sent, prior := none, sends := c.sends + 1 }) hi hnum
      (fun _ => rfl) (fun _ _ => .inr rfl) fun _ => rfl
    refine logOk_of_tail hs hq (hended.congr (.of_log ?_)) ?_ <;> simp [complete, hq, hf]

theorem deal_logKept (k : Nat) : LogKept s (deal k s) := by
  induction k generalizing s with
  | zero => exact .refl s
  | succ k ih =>
    have hskip : LogKept s (skipUnits s.xfer.remaining s) := .of_queue (by simp) (skipUnits_queue _ s)
    unfold deal
    dsimp only
    split
    · exact .refl s
    · split
      · exact ((hskip.trans complete_logKept).trans (.of_queue (by simp) (activate_queue _))).trans ih
      · exact hskip

theorem startHead_logKept : LogKept s (startHead s) :=
  (LogKept.of_queue (by simp) (activate_queue s)).trans (deal_logKept _)

theorem modXfer_logKept {f : Transfer → Transfer} (h : ∀ x, (f x).queue = x.queue) : LogKept s (s.modXfer f) :=
  .of_queue rfl (h _)

theorem advanceCursor_logKept : LogKept s (advanceCursor s) :=
  (modXfer_logKept (f := Transfer.advanced) fun _ => rfl).trans (deal_logKept _)

theorem toldPlaced_logKept : LogKept s (toldPlaced s) :=
  (modXfer_logKept (f := fun x => { x with placed := x.placed + 1 }) fun _ => rfl).trans advanceCursor_logKept

theorem offerToPath_logKept (p : Fin 2) (u : MUnit) : LogKept s (offerToPath p u s) := by
  have hoffer : LogKept s (offerReplay p u s) := .of_blocks (by simp) (by simp)
  unfold offerToPath
  dsimp only
  split
  · exact hoffer.trans toldPlaced_logKept
  · exact hoffer.trans (modXfer_logKept fun _ => rfl)
  · refine (hoffer.trans (modXfer_logKept fun _ => ?_)).trans advanceCursor_logKept
    rfl

theorem reexamine_logKept (p : Fin 2) : LogKept s (reexamine p s) := by
  unfold reexamine
  split
  · exact .refl s
  · split
    · exact (LogKept.of_blocks (by simp) (by simp)).trans toldPlaced_logKept
    · exact .refl s
    · exact .refl s

theorem letGo_queue (s : State) : (letGo s).xfer.queue = s.xfer.queue := by
  unfold letGo
  dsimp only
  split
  · simp
  · split <;> simp

/-- The entries that end take their clips with them, and those that stay keep theirs (R170). -/
theorem clipsOf_filter {q : List Send} (h : (q.map (·.clip)).Nodup) (which : Send → Bool) :
    clipsOf q \ clipsOf (q.filter which) = clipsOf (q.filter fun f => !which f) := by
  ext n
  simp only [clipsOf, Set.mem_sdiff, Set.mem_ofPred_eq, List.mem_map, List.mem_filter, Bool.not_eq_true']
  constructor
  · rintro ⟨⟨e, he, rfl⟩, hnot⟩
    exact ⟨e, ⟨he, Bool.eq_false_iff.2 fun hw => hnot ⟨e, ⟨he, hw⟩, rfl⟩⟩, rfl⟩
  · rintro ⟨e, ⟨he, hw⟩, rfl⟩
    refine ⟨⟨e, he, rfl⟩, ?_⟩
    rintro ⟨x, ⟨hx, hxw⟩, hxe⟩
    rw [List.inj_on_of_nodup_map h hx he hxe, hw] at hxw
    cases hxw

theorem logOk_of_filter {t : State} (hs : LogOk s) (which : Send → Bool)
    (ht : LogSending (clipsOf s.xfer.queue \ clipsOf (s.xfer.queue.filter which)) t)
    (htq : t.xfer.queue = s.xfer.queue.filter fun f => !which f) : LogOk t := by
  rw [logOk_iff] at hs
  obtain ⟨-, hn, hlen⟩ := hs
  rw [clipsOf_filter hn] at ht
  rw [logOk_iff, htq]
  exact ⟨ht, hn.sublist (List.filter_sublist.map _), (List.length_filter_le ..).trans hlen⟩

theorem endEntries_logKept (r : EndReason) (lost : Bool) (which : Send → Bool) :
    LogKept s (endEntries r lost which s) := by
  refine ⟨fun hs => ?_⟩
  cases hq : s.xfer.queue with
  | nil =>
    rw [endEntries_nil hq]
    exact hs
  | cons e es =>
    obtain ⟨hsend, hn, -⟩ := logOk_iff.1 hs
    rw [hq, List.map_cons, List.nodup_cons] at hn
    obtain ⟨hfresh, hes⟩ := hn
    have hsub : ((es.filter which).map (·.clip)).Nodup := hes.sublist (List.filter_sublist.map _)
    have hmem (x : Send) (hx : x ∈ es.filter which) : x.clip ∈ clipsOf s.xfer.queue := by
      rw [hq]
      exact List.mem_cons_of_mem _ (List.mem_map_of_mem (List.mem_of_mem_filter hx))
    cases hw : which e with
    | false =>
      have hall := forEach_endEntry_logSending hsend r lost hmem hsub
      rw [endEntries_queued hq hw]
      refine logOk_of_filter hs which ?_ (by rw [hq]; rfl)
      rw [hq, List.filter_cons_of_neg (by simp [hw]), ← hq]
      exact hall.congr (.of_log rfl)
    | true =>
      have hfirst := endEntry_logSending (s := letGoOf e s) (hsend.congr (.of_log rfl)) r lost s.xfer.placed.toNat
        s.xfer.remaining (hq ▸ head_mem_clipsOf e es)
      have hall := forEach_endEntry_logSending hfirst r lost (l := es.filter which)
        (fun x hx => ⟨hmem x hx, ne_of_not_mem_clips hfresh (List.mem_of_mem_filter hx)⟩) hsub
      rw [endEntries_active hq hw]
      refine startHead_logKept.keeps (logOk_of_filter hs which ?_ (by rw [hq]))
      rw [hq, List.filter_cons_of_pos hw, sdiff_clipsOf_cons, ← hq]
      exact hall.congr (.of_log rfl)

end

end Sys2Proof.Machine
end

section
/-! Every step keeps clip numbers distinct, the open-clip pointers exact and the send queue matched to the SENDING clips
(R138, R139, R171). -/

namespace Sys2Proof.Machine

open Sys2Proof.Safety

section
variable {s : State}

/-! ## Consumption, joining and service (R11, R12, R107 to R109, R167) -/

theorem handConsumerRead_logKept (p : Fin 2) (off n : Nat) : LogKept s (handConsumerRead p off n s) := by
  by_cases hoff : (s.home.paths.get p).state = .off
  · rw [handConsumerRead_off hoff]
    exact .refl s
  · have hearly : LogKept s (countEarly p off n s) := by
      unfold countEarly
      split
      · exact .of_blocks rfl rfl
      · exact .refl s
    rw [handConsumerRead_on hoff]
    refine hearly.trans ?_
    generalize countEarly p off n s = v
    unfold consumeUnits
    split
    · exact .refl v
    · refine LogKept.from_blocks ?_ rfl rfl
      unfold afterConsumption
      dsimp only
      split
      · exact (reexamine_logKept p).from_blocks (by simp) (by simp)
      · exact (reexamine_logKept p).from_blocks (by simp) (by simp)

theorem handRead_logKept (f : Fn) (off n : Nat) (i : Fin 16) : LogKept s (handRead f off n i s) := by
  cases f with
  | path p =>
    simp only [handRead]
    split
    · exact handConsumerRead_logKept p off n
    · exact .refl s
  | notices =>
    simp only [handRead]
    split
    · exact .of_blocks (by simp) (by simp)
    · exact .refl s
  | _ => exact .refl s

theorem settleWrites_logKept (s : State) : LogKept s (settleWrites s) := .of_blocks (by simp) (by simp)

theorem serveRead_logKept : LogKept s (serveRead s) := by
  by_cases h : ∃ p n rest, s.port.granted = .piece p :: rest ∧ p.op = .read n
  · obtain ⟨p, n, rest, hg, hp⟩ := h
    have hpiece (f : Port → Port) : LogKept s (handPiece p n (s.modPort f)) := by
      unfold handPiece
      split
      · exact .of_blocks rfl rfl
      · exact (handRead_logKept ..).from_blocks rfl rfl
    rw [serveRead_eq hg hp]
    exact (hpiece _).trans (settleWrites_logKept _)
  · rw [serveRead_none fun p n rest hg hp => h ⟨p, n, rest, hg, hp⟩]
    exact .refl s

theorem storeReadData_logKept (tag : Nat) (d : List Byte) : LogKept s (storeReadData tag d s) := by
  unfold storeReadData
  split
  · have hread : LogKept s (s.modXfer fun x => { x with buffer := x.buffer ++ [d] }) := modXfer_logKept fun _ => rfl
    split
    · dsimp only
      split
      · exact hread
      · exact hread.trans (offerToPath_logKept _ _)
    · exact .refl s
  · exact .refl s

theorem serveStoreRead_logKept : LogKept s (serveStoreRead s) := by
  unfold serveStoreRead
  split
  · have hport (f : Port → Port) (t : Nat) (d : List Byte) : LogKept s (storeReadData t d (s.modPort f)) :=
      (storeReadData_logKept t d).from_blocks rfl rfl
    exact (hport _ _ _).trans (settleWrites_logKept _)
  · exact .refl s

theorem issueReads_logKept : LogKept s (issueReads s) := by
  unfold issueReads
  split
  · split
    · exact (LogKept.of_blocks (by simp) (by simp)).trans (modXfer_logKept fun _ => rfl)
    · exact .refl s
  · exact .refl s

/-! ## Pins, cues and ticks (R16, R133 to R135, R147, R154, R155) -/

theorem samplePin_logKept (p : Fin 12) : LogKept s (samplePin p s) := by
  unfold samplePin
  dsimp only
  split
  · exact .refl s
  · split
    · exact .of_blocks rfl rfl
    · exact (markArrival_logKept ..).from_blocks rfl rfl

theorem applyAct_logKept (id : Nat) (a : CueAct) : LogKept s (applyAct id a s).1 := by
  cases a with
  | clipIn i => exact markArrival_logKept ..
  | clipOut i => exact markArrival_logKept ..
  | label i k => exact markArrival_logKept ..
  | none => exact .refl s
  | lines m d => exact .of_blocks (by simp [applyAct]) (by simp [applyAct])
  | switch l =>
    simp only [applyAct]
    split <;> exact .of_blocks rfl rfl
  | fade k x y =>
    simp only [applyAct]
    split <;> exact .of_blocks rfl rfl

theorem applySlots_logKept (e : Cue) : LogKept s (applySlots e s).1 := by
  have hslot (i : Fin 4) (r : State × List Nat) : LogKept r.1 (applySlot e i r).1 := by
    unfold applySlot
    dsimp only
    split
    · exact applyAct_logKept _ _
    · exact raise_logKept _ _ _ (applyAct_logKept _ _)
  suffices ∀ (l : List (Fin 4)) (r : State × List Nat), LogKept r.1 (l.foldl (fun r i => applySlot e i r) r).1 from
    this _ (s, [])
  intro l
  induction l with
  | nil => exact fun r => .refl r.1
  | cons i l ih => exact fun r => (hslot i r).trans (ih _)

theorem fireHead_logKept : LogKept s (fireHead s) := by
  unfold fireHead
  split
  · exact .refl s
  · exact raise_logKept _ _ _ ((applySlots_logKept _).to_blocks rfl rfl)

theorem fireDue_logKept (k : Nat) : LogKept s (fireDue k s) := by
  induction k generalizing s with
  | zero => exact .refl s
  | succ k ih =>
    unfold fireDue
    split
    · exact fireHead_logKept.trans ih
    · exact .refl s

theorem rebase_logKept (s : State) : LogKept s (rebase s) := .of_blocks (by simp) (by simp)

theorem runAct_logKept (o : Opening) (a : TickAct) (s : State) : LogKept s (runAct o a s) := by
  cases a with
  | mixer =>
    simp only [runAct]
    exact mixerTick_logKept _ _
  | tallies => exact addTallies_logKept
  | pin p => exact samplePin_logKept p
  | cueNext =>
    simp only [runAct, fireNext]
    split
    · exact fireHead_logKept
    · exact .refl s
  | cues =>
    simp only [runAct]
    split
    · exact (fireDue_logKept _).trans (rebase_logKept _)
    · exact fireDue_logKept _
  | midnight =>
    simp only [runAct]
    split
    · exact raise_logKept _ _ _ (.refl s)
    · exact .refl s
  | _ => exact .of_blocks (by simp [runAct]) (by simp [runAct])

theorem tick_logKept (i : TickIn) : LogKept s (tick i s) := by
  have hacts : LogKept s (forEach (schedule (decide (s.clock.pos = 0)) i.order) (runAct (openingOf s))
      (openFrame (s.setLevels i.levels))) :=
    (forEach_logKept (runAct_logKept _) _).from_blocks (by simp) (by simp)
  exact hacts.to_blocks rfl rfl

theorem tickWhen_logKept (b : Bool) (i : TickIn) : LogKept s (tickWhen b i s) := by
  cases b with
  | false => exact .refl s
  | true => exact tick_logKept i

/-! ## Settings (R60, R61, R87, R98, R99, R118, R119) -/

theorem dropFromSelector_logKept (l : Fin 4) (s : State) : LogKept s (dropFromSelector l s) :=
  .of_blocks (by simp) (by simp)

theorem setLane_logKept (c : Command) : LogKept s (setLane c s).1 := by
  have hstopped (l : Fin 4) (f : Lane → Lane) : LogKept s (stopRecording l (s.modLane l f)) :=
    (stopRecording_logKept l).from_blocks rfl rfl
  have hwrite (l : Fin 4) (enable : Bool) (x : LaneSettings) : LogKept s (writeLane l enable x s) := by
    unfold writeLane
    dsimp only
    split
    · split <;> exact .of_blocks rfl rfl
    · split
      · split
        · exact hstopped _ _
        · exact .of_blocks rfl rfl
      · refine LogKept.trans ?_ (dropFromSelector_logKept l _)
        split
        · exact hstopped _ _
        · exact .of_blocks rfl rfl
  simp only [setLane, refuse]
  split
  · exact .refl s
  · exact .refl s
  · exact .refl s
  · split
    · exact .refl s
    · split
      · exact .refl s
      · exact hwrite _ _ _

theorem setBus_logKept (c : Command) : LogKept s (setBus c s).1 := by
  have hwrite (b : Fin 8) (x y z : Bool) : LogKept s (writeBus b x y z s) := by
    unfold writeBus
    dsimp only
    split
    · exact .of_blocks rfl rfl
    · split
      · exact .of_blocks rfl rfl
      · exact (closeUnit_logKept _ _).from_blocks rfl rfl
  simp only [setBus, refuse]
  split
  · exact .refl s
  · exact .refl s
  · exact .refl s
  · exact .refl s
  · exact hwrite _ _ _ _

theorem ringHeaderWrite_logKept (p : Fin 2) (v : Nat) (eff : JoinEffect) (s : State) :
    LogKept s (ringHeaderWrite p v eff s) := .of_blocks rfl rfl

theorem setPath_logKept (c : Command) : LogKept s (setPath c s).1 := by
  have hdisable (p : Fin 2) : LogKept s (disablePath p s) :=
    ((endEntries_logKept _ _ _).from_blocks (s := s) (t := pathDropped p s) rfl rfl).trans
      (ringHeaderWrite_logKept p 0 .nothing _)
  have hwrite (p : Fin 2) (enable : Bool) (x : PathSettings) : LogKept s (writePath p enable x s) := by
    unfold writePath
    split
    · split
      · exact .of_blocks (by simp) (by simp)
      · exact .of_blocks rfl rfl
    · split
      · exact (reexamine_logKept p).from_blocks rfl rfl
      · exact hdisable p
  simp only [setPath, refuse]
  split
  · exact .refl s
  · exact .refl s
  · exact .refl s
  · split
    · exact .refl s
    · exact hwrite _ _ _

theorem setStore_logKept (c : Command) : LogKept s (setStore c s).1 := by
  have hdisable : LogKept s (disableStore s) :=
    (((endEntries_logKept _ _ _).from_blocks (s := s) (t := dropHold byStore s) rfl rfl).trans loseAll_logKept).trans
      (.of_blocks rfl rfl)
  unfold setStore
  split
  · exact .refl s
  · split
    · split
      · split
        · exact .refl s
        · exact .of_blocks (by simp) (by simp)
      · exact .refl s
    · split
      · exact .refl s
      · exact hdisable

/-! ## Clips and transfers (R140, R145, R146, R165, R169, R182) -/

theorem clipMark_logKept (c : Command) : LogKept s (clipMark c s).1 := by
  simp only [clipMark, refuse]
  split
  · exact .refl s
  · exact .refl s
  · split
    · exact .refl s
    · exact markArrival_logKept ..

theorem clipLabel_logKept (c : Command) : LogKept s (clipLabel c s).1 := by
  have hremove (i : Fin 256) (k : W16) : LogKept s (removeLabel i k s).1 := by
    unfold removeLabel
    split
    · exact sendTag_logKept _ _ (changeRec_logKept i fun _ => ⟨rfl, rfl, rfl, rfl⟩)
    · exact .refl s
  simp only [clipLabel, refuse]
  split
  · exact .refl s
  · split
    · exact .refl s
    · split
      · exact .refl s
      · split
        · exact addLabel_logKept ..
        · exact hremove _ _

/-- A record that is not SENDING becomes FREE, and its open-clip pointer goes with it (R146). -/
theorem freeRecord_log (i : Fin 256) (s : State) : (freeRecord i s).log = { s.log with
    recs := s.log.recs.set i (Clip.free ((s.log.recs.get i).rev + 1))
    opens := if (s.log.recs.get i).state = .opened then s.log.opens.set (s.log.recs.get i).source none
      else s.log.opens } := by
  unfold freeRecord
  dsimp only
  rw [changeRec_log]
  split <;> rfl

theorem freeRecord_logKept {i : Fin 256} (hi : (s.log.recs.get i).state ≠ .sending) : LogKept s (freeRecord i s) := by
  refine ⟨fun hs => ?_⟩
  obtain ⟨⟨-, -, -, hinj⟩, -⟩ := id hs
  rw [logOk_iff] at hs ⊢
  obtain ⟨hsend, hqueue⟩ := hs
  have hxfer : (freeRecord i s).xfer = s.xfer := by simp
  rw [hxfer]
  refine ⟨hsend.moved (freeRecord_log i s) ⟨iff_of_true rfl rfl, Nat.zero_le _, .inl rfl⟩ nofun (fun h => absurd rfl h)
    fun n => ?_, hqueue⟩
  obtain ⟨-, -, hN⟩ := hsend
  constructor
  · refine fun hn => .inl ⟨hn, fun hni => ?_⟩
    obtain ⟨j, hj, hjn⟩ := (hN n).1 hn
    exact hi (hinj j i (by rw [hj]; decide) (hjn.trans hni) ▸ hj)
  · rintro (⟨hn, -⟩ | ⟨hX, -⟩)
    · exact hn
    · cases hX

theorem clipDelete_logKept (c : Command) : LogKept s (clipDelete c s).1 := by
  simp only [clipDelete, refuse]
  split
  · exact .refl s
  · split
    · exact .refl s
    next hi => exact freeRecord_logKept hi

/-- A CLOSED or SENT clip with room in the queue becomes SENDING, and its entry stands last (R165). -/
theorem queueSend_logKept {i : Fin 256} (hi : (s.log.recs.get i).state = .closed ∨ (s.log.recs.get i).state = .sent)
    (hroom : s.xfer.queue.length < 8) (p : Fin 2) : LogKept s (queueSend i ⟨(s.log.recs.get i).num, p⟩ s) := by
  have hqueued : LogKept s ((changeRec i (fun c => { c with prior := some c.state, state := .sending }) s).modXfer
      fun x => { x with queue := x.queue ++ [⟨(s.log.recs.get i).num, p⟩] }) := by
    refine ⟨fun hs => ?_⟩
    obtain ⟨⟨hclips, -, -, hinj⟩, -⟩ := id hs
    obtain ⟨hsend, hnodup, -⟩ := logOk_iff.1 hs
    have hfree : (s.log.recs.get i).state ≠ .free := by rcases hi with hi | hi <;> rw [hi] <;> decide
    have hopen : (s.log.recs.get i).state ≠ .opened := by rcases hi with hi | hi <;> rw [hi] <;> decide
    have hfresh : (s.log.recs.get i).num ∉ clipsOf s.xfer.queue := by
      intro hmem
      obtain ⟨-, -, hN⟩ := hsend
      obtain ⟨j, hj, hjn⟩ := (hN _).1 hmem
      obtain rfl := hinj j i (by rw [hj]; decide) hjn
      rcases hi with hi | hi <;> rw [hj] at hi <;> cases hi
    have hxfer : (changeRec i (fun c => { c with prior := some c.state, state := .sending }) s).xfer = s.xfer := by simp
    rw [logOk_iff]
    simp only [State.modXfer_xfer, hxfer]
    refine ⟨hsend.moved (X := { s.log.recs.get i with
        prior := some (s.log.recs.get i).state, state := .sending, rev := (s.log.recs.get i).rev + 1 })
      ?_ (clipOk_moved (hclips i) hfree rfl nofun (.inr (by simpa using hi))) nofun (fun _ => ⟨hfree, rfl⟩)
      fun n => ?_, ?_, ?_⟩
    · rw [State.modXfer_log, changeRec_log, if_neg hopen]
    · simp only [clipsOf, List.map_append, List.map_cons, List.map_nil, Set.mem_ofPred_eq, List.mem_append,
        List.mem_singleton, true_and]
      constructor
      · rintro (hn | rfl)
        · exact .inl ⟨hn, fun hni => hfresh (hni ▸ hn)⟩
        · exact .inr rfl
      · rintro (⟨hn, -⟩ | rfl)
        · exact .inl hn
        · exact .inr rfl
    · rw [List.map_append]
      exact hnodup.append (List.nodup_singleton _) (List.disjoint_singleton.2 hfresh)
    · rw [List.length_append]
      exact hroom
  unfold queueSend
  dsimp only
  split
  · exact hqueued.trans startHead_logKept
  · exact hqueued

theorem sendClip_logKept (c : Command) : LogKept s (sendClip c s).1 := by
  simp only [sendClip, refuse]
  split
  · exact .refl s
  · exact .refl s
  next p i _ _ =>
    split
    · exact .refl s
    split
    · exact .refl s
    next hst =>
      split
      · exact .refl s
      split
      · exact .refl s
      split
      · exact .refl s
      next hroom =>
        refine queueSend_logKept ?_ (not_le.1 hroom) p
        by_contra hno
        exact hst (not_or.1 hno)

/-- A queued transfer, not active, leaves the queue, and its clip has its prior state again (R169). -/
theorem abortQueued_logOk (hs : LogOk s) {n : Nat} (hn : n ∈ clipsOf s.xfer.queue) : LogOk (abortQueued n s) := by
  have hsend := (logOk_iff.1 hs).1
  have hended : LogSending (clipsOf s.xfer.queue \ {n}) (abortQueued n s) :=
    restorePrior_logSending (s := s.modXfer fun x => { x with queue := x.queue.filter fun e => e.clip ≠ n })
      (hsend.congr (.of_log rfl)) hn
  refine logOk_of_filter hs (fun e => decide (e.clip = n)) ?_ ?_
  · have hset : clipsOf s.xfer.queue \ clipsOf (s.xfer.queue.filter fun e => decide (e.clip = n))
        = clipsOf s.xfer.queue \ {n} := by
      ext m
      simp only [clipsOf, Set.mem_sdiff, Set.mem_ofPred_eq, List.mem_map, List.mem_filter, decide_eq_true_eq,
        Set.mem_singleton_iff]
      refine and_congr_right fun ⟨e, he, hem⟩ => not_congr ⟨?_, ?_⟩
      · rintro ⟨x, ⟨-, rfl⟩, rfl⟩
        rfl
      · rintro rfl
        exact ⟨e, ⟨he, hem⟩, hem⟩
    rw [hset]
    exact hended
  · simp [abortQueued]

/-- The active transfer ends, its clip has its prior state again, and the next entry becomes active (R169). -/
theorem abortActive_logOk (hs : LogOk s) {e : Send} {rest : List Send} (hq : s.xfer.queue = e :: rest) :
    LogOk (abortActive e s) := by
  have hsend := (logOk_iff.1 hs).1
  have hlet : LogSending (clipsOf s.xfer.queue) (letGo s) := hsend.congr (.of_log (by simp))
  have hended := restorePrior_logSending hlet (hq ▸ head_mem_clipsOf e rest)
  refine startHead_logKept.keeps (logOk_of_tail hs hq (hended.congr (.of_log ?_)) ?_)
  · simp
  · simp [letGo_queue, hq]

theorem abortSend_logKept (c : Command) : LogKept s (abortSend c s).1 := by
  refine ⟨fun hs => ?_⟩
  simp only [abortSend, refuse]
  split
  · exact hs
  next i hf =>
    split
    · exact hs
    next hi =>
      obtain ⟨-, hnum⟩ := findClip_some hf
      obtain ⟨⟨-, -, hN⟩, -⟩ := logOk_iff.1 hs
      have hmem : c.word 0 ∈ clipsOf s.xfer.queue := (hN _).2 ⟨i, by simpa using hi, hnum⟩
      split
      · exact abortQueued_logOk hs hmem
      next e rest hq =>
        split
        · exact abortActive_logOk hs hq
        · exact abortQueued_logOk hs hmem

theorem forceCue_logKept (c : Command) : LogKept s (forceCue c s).1 := by
  simp only [forceCue, refuse]
  split
  · exact .refl s
  · exact raise_logKept _ _ _ ((applySlots_logKept _).to_blocks rfl rfl)

theorem clearMedia_logKept (c : Command) : LogKept s (clearMedia c s).1 := by
  have hstore (t : State) : LogKept t (clearStore t) := by
    unfold clearStore
    split
    · exact .refl t
    · exact (loseAll_logKept.from_blocks (s := t) (t := dropHold byStore t) rfl rfl).trans
        (.of_blocks (by simp) (by simp))
  have hended : LogKept s (clearStore (endEntries .cleared true (fun _ => true) s)) :=
    (endEntries_logKept _ _ _).trans (hstore _)
  exact hended.to_blocks (by simp [clearMedia]) (by simp [clearMedia])

/-! ## Every step -/

theorem carryOut_logKept {p : Nat → Bool} {f : Command → State → State × Result} (h : ∀ c, LogKept s (f c s).1) :
    LogKept s (carryOut p f s) :=
  carryOut_keeps (.refl s) h fun _ _ _ ht => ht.to_blocks rfl rfl

theorem powerOnReset_logOk {b : Bool} {t : State} (ht : exec (.powerOnReset b) s = .next t) : LogOk t := by
  have hreset : LogOk (({ State.reset with pending := s.pending, dram := s.dram, epIn := s.epIn } : State).modCtl
      fun c => { c with cfgsel := b }) := reset_logOk
  cases ht
  cases b with
  | true => exact hreset
  | false => exact (LogKept.of_blocks (by simp) (by simp)).keeps hreset

theorem exec_logKept {c : Instr} {t : State} (ht : exec c s = .next t) : LogKept s t := by
  cases c with
  | powerOnReset b => exact ⟨fun _ => powerOnReset_logOk ht⟩
  | linkReset =>
    rw [exec_linkReset_eq] at ht
    cases ht
    exact .of_blocks (by simp [linkResetBlocks]) (by simp [linkResetBlocks])
  | configEntryRead e b =>
    cases hl : s.ctl.loader with
    | reading i last =>
      rw [exec_configEntryRead_reading e b hl] at ht
      cases ht
      exact (acceptHeld_logKept _).from_blocks (by simp) (by simp)
    | ended =>
      rw [exec_configEntryRead_ended e b hl] at ht
      cases ht
      exact .refl s
  | requestAccept r =>
    rw [exec_requestAccept_next ht]
    exact (acceptHeld_logKept _).from_blocks rfl rfl
  | downstreamGrant | linkUp =>
    cases ht
    exact (acceptHeld_logKept _).from_blocks (by simp) (by simp)
  | readServed => cases ht; exact serveRead_logKept
  | storeReadServed => cases ht; exact serveStoreRead_logKept
  | transferReadIssue => cases ht; exact issueReads_logKept
  | sampleTick i => cases ht; exact tickWhen_logKept true i
  | frameTick | frameCountWrap | midnight | refLost | soundSilent | soundUnitClose | markConfirm | stall | cueFiring =>
    cases ht
    exact tickWhen_logKept _ _
  | setAperture | clearAperture =>
    cases ht
    exact (acceptHeld_logKept _).from_blocks (by simp) (by simp)
  | setLane => cases ht; exact carryOut_logKept setLane_logKept
  | setBus => cases ht; exact carryOut_logKept setBus_logKept
  | setPath => cases ht; exact carryOut_logKept setPath_logKept
  | setStore => cases ht; exact carryOut_logKept setStore_logKept
  | forceCue => cases ht; exact carryOut_logKept forceCue_logKept
  | clipMark => cases ht; exact carryOut_logKept clipMark_logKept
  | clipLabel => cases ht; exact carryOut_logKept clipLabel_logKept
  | clipDelete => cases ht; exact carryOut_logKept clipDelete_logKept
  | sendClip => cases ht; exact carryOut_logKept sendClip_logKept
  | abortSend => cases ht; exact carryOut_logKept abortSend_logKept
  | clearMedia => cases ht; exact carryOut_logKept clearMedia_logKept
  | _ => cases ht; exact .of_blocks (by simp) (by simp)

end

/-- Settles O12: every change of a record is one that numbers, states and pointers stand through, or one clip's move
from one state to another with its pointer and its entry in the send queue. -/
theorem clipLogStaysConsistent : Obligations.ClipLogStaysConsistent :=
  keptByStep_of_exec (fun _ _ h => h) fun _ _ _ hs ht => (exec_logKept ht).keeps hs

end Sys2Proof.Machine
end

section
/-! SET_PIN, SET_LINE_LEVELS and the level a pin drives (R132, R159 to R161). -/

namespace Sys2Proof.Machine

open Sys2Proof.Safety

/-! ## A command's answer -/

/-- The command at the head is answered with what it gives. -/
theorem exec_answers {i : Instr} {n : Nat} {f : Command → State → State × Result} {s : State} {c : Command}
    {r : State × Result} (hexec : exec i s = .next (carryOut (codeIs n) f s)) (hh : AtHead c s) (hc : c.code = n)
    (h : f c s = r) : exec i s = .next (answered c r.2 r.1) := h ▸ exec_atHead hexec hh hc

/-! ## Sets of bits -/

theorem testBit_foldl_bits (l : List Nat) (a k : Nat) :
    (l.foldl (fun acc i => acc ||| 1 <<< i) a).testBit k = (a.testBit k || decide (k ∈ l)) := by
  induction l generalizing a with
  | nil => simp
  | cons i l ih =>
    have hbit : (1 <<< i).testBit k = decide (k = i) := by
      rw [Nat.one_shiftLeft, Nat.testBit_two_pow, decide_eq_decide, eq_comm]
    simp [ih, hbit, Bool.or_assoc]

/-- The bits of a set are its members. -/
theorem testBit_setBits (l : List Nat) (k : Nat) : (setBits l).testBit k = true ↔ k ∈ l := by
  simp [setBits, testBit_foldl_bits]

/-! ## The numbers of edges and line modes -/

theorem edgeOf_eq_none {v : Nat} (h : 2 < v) : edgeOf v = none := by
  unfold edgeOf
  split <;> simp_all

theorem edgeOf_isSome {v : Nat} (h : v ≤ 2) : ∃ e, edgeOf v = some e := by
  interval_cases v <;> exact ⟨_, rfl⟩

theorem lineModeOf_eq_none {v : Nat} (h : 2 < v) : lineModeOf v = none := by
  unfold lineModeOf
  split <;> simp_all

/-- LABEL is the action of the number 3. -/
theorem markActionOf_label {v : Nat} {a : MarkAction} (h : markActionOf v = some a) : a = .label ↔ v = 3 := by
  unfold markActionOf at h
  split at h <;> cases h <;> simp_all

/-! ## SET_PIN (R132, R159) -/

section
variable {c : Command} {p : Fin 12} (lv : BitVec 12) (s : State)

theorem setPin_badPin (h : 11 < c.word 0) : setPin lv c s = (s, .refused .badField 1) := by
  rw [setPin, asFin_eq_none.2 h]
  rfl

theorem setPin_badFunction (h0 : c.word 0 = p.val) (h : 2 < c.word 1) : setPin lv c s = (s, .refused .badField 2) := by
  simp only [setPin, h0, asFin_val]
  split
  · omega
  · omega
  · omega
  · rfl

theorem setPin_unused (h0 : c.word 0 = p.val) (h : c.word 1 = 0) : setPin lv c s =
    ({ s with pins := s.pins.set p { s.pins.get p with fn := .unused, cand := none } }, .done 0) := by
  simp only [setPin, h0, asFin_val, h]
  rfl

theorem setPin_mark (h0 : c.word 0 = p.val) (h : c.word 1 = 1) :
    setPin lv c s = setPinMark p (lv.getLsbD p.val) c s := by
  simp only [setPin, h0, asFin_val, h]

theorem setPin_line (h0 : c.word 0 = p.val) (h : c.word 1 = 2) : setPin lv c s = setPinLine p c s := by
  simp only [setPin, h0, asFin_val, h]

/-- SET_PIN naming MARK with its parameters in range. -/
theorem setPinMark_named (p : Fin 12) (b : Bool) {e : Edge} {a : MarkAction} {i : Fin 4}
    (he : edgeOf (c.word 2) = some e)
    (ha : markActionOf (c.word 4) = some a) (hi : c.word 5 = i.val) (hlabel : a = .label → c.low16 6 ≠ 0) :
    setPinMark p b c s = ({ s with pins := s.pins.set p { s.pins.get p with
      fn := .mark, edge := e, filter := c.word 3 % 256, action := a, input := i, label := BitVec.ofNat 16 (c.low16 6)
      preroll := min (c.word 7) 250, cand := none, confirmed := b, last := b } },
      if 250 < c.word 7 then .doneClamped 0 else .done 0) := by
  simp only [setPinMark, he, ha, hi, asFin_val, if_neg fun h : a = .label ∧ c.low16 6 = 0 => hlabel h.1 h.2]
  rfl

/-- SET_PIN naming MARK: the first parameter that is out of range (R132). -/
theorem setPinMark_bad (p : Fin 12) (b : Bool) {k : Nat} (hk : k = if 2 < c.word 2 then 3 else if 3 < c.word 4 then 4
      else if 3 < c.word 5 then 5 else if c.word 4 = 3 ∧ c.low16 6 = 0 then 6 else 0) (h0 : k ≠ 0) :
    setPinMark p b c s = (s, .refused .badField k) := by
  subst hk
  by_cases h2 : 2 < c.word 2
  · simp only [setPinMark, edgeOf_eq_none h2, if_pos h2]
    rfl
  obtain ⟨e, he⟩ := edgeOf_isSome (not_lt.1 h2)
  by_cases h4 : 3 < c.word 4
  · simp only [setPinMark, he, markActionOf_eq_none h4, if_neg h2, if_pos h4]
    rfl
  obtain ⟨a, ha⟩ := markActionOf_isSome (not_lt.1 h4)
  by_cases h5 : 3 < c.word 5
  · simp only [setPinMark, he, ha, asFin_eq_none.2 h5, if_neg h2, if_neg h4, if_pos h5]
    rfl
  simp only [if_neg h2, if_neg h4, if_neg h5] at h0 ⊢
  have h6 : c.word 4 = 3 ∧ c.low16 6 = 0 := by
    by_contra hno
    exact h0 (if_neg hno)
  simp only [setPinMark, he, ha, asFin_lt (Nat.lt_succ_of_le (not_lt.1 h5)), markActionOf_label ha, if_pos h6]
  rfl

theorem setPinLine_badMode (p : Fin 12) (h : 2 < c.word 8) : setPinLine p c s = (s, .refused .badField 7) := by
  rw [setPinLine, lineModeOf_eq_none h]
  rfl

theorem setPinLine_badTally (p : Fin 12) (h8 : c.word 8 = 1) (h : 3 < c.word 9) :
    setPinLine p c s = (s, .refused .badField 8) := by
  rw [setPinLine, h8, asFin_eq_none.2 h]
  rfl

/-- SET_PIN naming LINE with its mode in range: the tally input named, or the one held (log 37). -/
theorem setPinLine_named {m : LineMode} {i : Fin 4} (hm : lineModeOf (c.word 8) = some m)
    (hi : c.word 9 = i.val ∨ (3 < c.word 9 ∧ m ≠ .tally ∧ i = (s.pins.get p).tally)) :
    setPinLine p c s = ({ s with pins := s.pins.set p { s.pins.get p with
      fn := .line, mode := m, tally := i, period := max 2 (min (c.word 10) 250)
      onCount := min (c.word 11) (max 2 (min (c.word 10) 250)), cand := none } },
      if c.word 10 < 2 ∨ 250 < c.word 10 ∨ max 2 (min (c.word 10) 250) < c.word 11 then .doneClamped 0
      else .done 0) := by
  have hchanged : (clampNat (c.word 10) 2 250 ≠ c.word 10 ∨ min (c.word 11) (clampNat (c.word 10) 2 250) ≠ c.word 11)
      ↔ (c.word 10 < 2 ∨ 250 < c.word 10 ∨ max 2 (min (c.word 10) 250) < c.word 11) := by
    unfold clampNat
    omega
  rcases hi with hi | ⟨hi, hno, rfl⟩
  · simp only [setPinLine, hm, hi, asFin_val, Option.isNone_some, Bool.false_eq_true, and_false, if_false, hchanged]
    rfl
  · simp only [setPinLine, hm, asFin_eq_none.2 hi, hno, false_and, if_false, hchanged]
    rfl

end

/-! ## SET_LINE_LEVELS (R161) -/

theorem levelWrite_eq (m d : BitVec 12) (s : State) : levelWrite m d s =
    { s with pins := Table.ofFn fun p => (s.pins.get p).writeLevel m d p } := by
  have hfold (l : List (Fin 12)) (u : State) : forEach l (levelWriteAt m d) u =
      { u with pins := l.foldl (fun t p => t.modify p (Pin.writeLevel m d p)) u.pins } := by
    induction l generalizing u with
    | nil => rfl
    | cons p l ih => exact ih _
  rw [levelWrite, hfold, Table.foldl_modify_finRange]

theorem levelWrite_get (m d : BitVec 12) (s : State) (p : Fin 12) : (levelWrite m d s).pins.get p =
    if m.getLsbD p.val = true ∧ (s.pins.get p).fn = .line then { s.pins.get p with level := d.getLsbD p.val }
    else s.pins.get p := by
  rw [levelWrite_eq]
  exact Table.get_ofFn _ p

theorem getLsbD_word (v : Nat) (p : Fin 12) : (BitVec.ofNat 12 v).getLsbD p.val = v.testBit p.val := by
  rw [BitVec.getLsbD_ofNat, decide_eq_true p.isLt, Bool.true_and]

/-- The pins a level write reaches, as a set of bits. -/
theorem testBit_levelPins (m : BitVec 12) (s : State) (p : Fin 12) :
    (setBits ((levelPins m s).map (·.val))).testBit p.val = true ↔
      m.getLsbD p.val = true ∧ (s.pins.get p).fn = .line := by
  rw [testBit_setBits]
  simp [levelPins, Fin.val_inj]

section
variable {c : Command} (s : State)

theorem setLineLevels_badMask (h : 4096 ≤ c.word 0) : setLineLevels c s = (s, .refused .badField 1) := if_pos h

theorem setLineLevels_badData (h0 : c.word 0 < 4096) (h : 4096 ≤ c.word 1) :
    setLineLevels c s = (s, .refused .badField 2) := (if_neg (not_le.2 h0)).trans (if_pos h)

theorem setLineLevels_named (h0 : c.word 0 < 4096) (h1 : c.word 1 < 4096) : setLineLevels c s =
    (levelWrite (BitVec.ofNat 12 (c.word 0)) (BitVec.ofNat 12 (c.word 1)) s,
      .done (setBits ((levelPins (BitVec.ofNat 12 (c.word 0)) s).map (·.val)))) :=
  (if_neg (not_le.2 h0)).trans (if_neg (not_le.2 h1))

end

/-! ## Output lines (R160) -/

theorem drivenLevel_none {p : Fin 12} {s : State} (h : s.ctl.loader ≠ .ended ∨ (s.pins.get p).fn ≠ .line) :
    drivenLevel p s = none := by
  unfold drivenLevel
  dsimp only
  split
  · rfl
  next hloader =>
    split
    · rfl
    · rfl
    next hline => exact absurd hline (h.resolve_left hloader)

/-- After the load a LINE pin drives by its mode. -/
theorem drivenLevel_line {p : Fin 12} {s : State} (hload : s.ctl.loader = .ended) (h : (s.pins.get p).fn = .line) :
    ((s.pins.get p).mode = .level → drivenLevel p s = some (s.pins.get p).level)
    ∧ ((s.pins.get p).mode = .tally → drivenLevel p s = some (decide (s.sel.programme = some (s.pins.get p).tally)))
    ∧ ((s.pins.get p).mode = .blink → drivenLevel p s =
        some (decide (s.clock.frame.toNat % (s.pins.get p).period < (s.pins.get p).onCount))) := by
  refine ⟨fun hm => ?_, fun hm => ?_, fun hm => ?_⟩ <;> simp [drivenLevel, hload, h, hm]

/-- Settles O50. -/
theorem pinsAreSetAndLinesDriven : Obligations.PinsAreSetAndLinesDriven := by
  refine ⟨fun s c lv hh hc => ?_, fun s c hh hc => ?_, fun s p P hP => ?_⟩
  · have hset {r : State × Result} := exec_answers (r := r) (exec_setPin lv (s := s)) hh hc
    refine ⟨fun h => hset (setPin_badPin lv s h), fun p hp P hP => ?_⟩
    subst hP
    refine ⟨fun h => hset (setPin_badFunction lv s hp h), fun h => hset (setPin_unused lv s hp h),
      fun h e a i he ha hi hlabel => ?_, fun h k hk h0 => ?_, fun h hm => ?_, fun h hm ht => ?_, fun h m i hm hi => ?_⟩
    · exact hset ((setPin_mark lv s hp h).trans (setPinMark_named s p _ he ha hi hlabel))
    · exact hset ((setPin_mark lv s hp h).trans (setPinMark_bad s p _ hk h0))
    · exact hset ((setPin_line lv s hp h).trans (setPinLine_badMode s p hm))
    · exact hset ((setPin_line lv s hp h).trans (setPinLine_badTally s p hm ht))
    · exact hset ((setPin_line lv s hp h).trans (setPinLine_named s hm hi))
  · have hset {r : State × Result} := exec_answers (r := r) (exec_setLineLevels (s := s)) hh hc
    refine ⟨fun h => hset (setLineLevels_badMask s h), fun h0 h => hset (setLineLevels_badData s h0 h), fun h0 h1 =>
      ⟨_, _, hset (setLineLevels_named s h0 h1), ?_, fun p => ?_, fun p => ?_⟩⟩
    · simp only [levelWrite_eq]
    · rw [levelWrite_get, getLsbD_word, getLsbD_word]
    · rw [testBit_levelPins, getLsbD_word]
  · subst hP
    exact ⟨drivenLevel_none, drivenLevel_line⟩

end Sys2Proof.Machine
end

section
/-! LABEL arrivals, CLIP_LABEL and CLIP_DELETE (R144 to R146, R148, R149). -/

namespace Sys2Proof.Machine

open Sys2Proof.Safety

/-! ## The mirror of one record (R148) -/

section
variable (i : Fin 256) (s : State)

theorem mirror_eq : mirror i s = changedAt [i] (fun R => { R with rev := R.rev + 1 }) s := by
  have hsame : s.modRec i id = s := by
    rw [State.modRec, State.modLog, Table.modify_id (f := id) s.log.recs i rfl]
  calc mirror i s = changeRec i id s := by rw [changeRec, hsame]
    _ = changedAt [i] (fun R => { R with rev := R.rev + 1 }) s := changeRec_eq i (fun _ => rfl) s

/-- A mirror changes the log and what waits to be written. -/
theorem mirror_state : mirror i s = { s with
    log := { s.log with recs := s.log.recs.set i { s.log.recs.get i with rev := (s.log.recs.get i).rev + 1 } }
    ins := (mirror i s).ins } := by
  rw [mirror_eq]
  rfl

/-- Without LOG nothing is written. -/
theorem changedAt_ins_unset (g : Clip → Clip) (h : ap .log s = none) : (changedAt [i] g s).ins = s.ins := by
  simp only [changedAt, mirrorEntries, h, Option.map_none, Option.getD_none]
  rw [Table.modify_id _ _ (List.append_nil _)]

/-- With LOG the record's bytes join the control block's hold. -/
theorem changedAt_ins_set (g : Clip → Clip) {a : Aperture} (h : ap .log s = some a) : (changedAt [i] g s).ins =
    { s.ins with holds := s.ins.holds.modify 0 fun l =>
      l ++ [⟨.write (a.base + 64 * i.val) (clipRecord (g (s.log.recs.get i))), .nothing⟩] } := by
  simp only [changedAt, mirrorEntries, h]
  rfl

/-- The record that stands when a mirror has been made. -/
theorem mirror_set_log (X : Clip) : (mirror i { s with log := { s.log with recs := s.log.recs.set i X } }).log =
    { s.log with recs := s.log.recs.set i { X with rev := X.rev + 1 } } := by
  rw [mirror_log]
  simp only [revised_set]

end

/-! ## Labels (R144, R145) -/

section
variable {i : Fin 256} {k : W16} {s : State} {R X : Clip} {w : State}

/-- The LABEL tag of a record whose labels have changed, and which has been mirrored. -/
theorem sendTag_mirrored (hX : X.source = R.source ∧ X.num = R.num)
    (hw : w = mirror i { s with log := { s.log with recs := s.log.recs.set i X } }) : sendTag i .label w =
      (effectiveRoute w).foldl (fun y q =>
        offerTag (.tag R.source s.clock.frame (timecode s) R.num .label (tagBody X .label)) q y) w := by
  obtain ⟨hsrc, hnum⟩ := hX
  have hrec : w.log.recs.get i = { X with rev := X.rev + 1 } := by rw [hw, mirror_set_log, Table.get_set, if_pos rfl]
  have htag : tagOf i .label w = .tag X.source s.clock.frame (timecode s) X.num .label (tagBody X .label) := by
    have hclock : w.clock = s.clock := by simp [hw]
    simp only [tagOf, timecode, hrec, hclock]
    rfl
  rw [sendTag, htag, hsrc, hnum]
  rfl

theorem addLabel_present (hR : R = s.log.recs.get i) (hk : k ∈ R.labels) : addLabel i k s = (s, .present R.num) := by
  subst hR
  exact if_pos hk

/-- With six labels held, the code counts as dropped (R145). -/
theorem addLabel_dropped (hR : R = s.log.recs.get i) (hk : k ∉ R.labels) (hfull : 6 ≤ R.labels.length)
    (hX : X = { R with labelsDropped := min (R.labelsDropped + 1) 65535 }) :
    addLabel i k s = (mirror i { s with log := { s.log with recs := s.log.recs.set i X } }, .labelDropped R.num) := by
  subst hR hX
  exact (if_neg hk).trans (if_pos hfull)

theorem addLabel_joined (hR : R = s.log.recs.get i) (hk : k ∉ R.labels) (hroom : R.labels.length < 6)
    (hX : X = { R with labels := R.labels ++ [k] })
    (hw : w = mirror i { s with log := { s.log with recs := s.log.recs.set i X } }) :
    addLabel i k s = (sendTag i .label w, .done R.num) := by
  subst hR hX hw
  exact (if_neg hk).trans (if_neg (not_le.2 hroom))

theorem removeLabel_absent (hR : R = s.log.recs.get i) (hk : k ∉ R.labels) :
    removeLabel i k s = (s, .refused .notFound 2) := by
  subst hR
  exact if_neg hk

theorem removeLabel_left (hR : R = s.log.recs.get i) (hk : k ∈ R.labels)
    (hX : X = { R with labels := R.labels.filter fun x => decide (x ≠ k) })
    (hw : w = mirror i { s with log := { s.log with recs := s.log.recs.set i X } }) :
    removeLabel i k s = (sendTag i .label w, .done 0) := by
  subst hR hX hw
  exact if_pos hk

end

/-! ## The target of a LABEL arrival (R144) -/

/-- One step of the search for the latest close stamp. -/
def laterOf (s : State) (best : Option (Fin 256)) (i : Fin 256) : Option (Fin 256) :=
  match best with
  | none => some i
  | some b =>
    match (s.log.recs.get b).stamp, (s.log.recs.get i).stamp with
    | some x, some y => if earlier x y then some i else best
    | none, _ => some i
    | some _, none => best

theorem latestStamp_eq (s : State) (l : List (Fin 256)) : latestStamp s l = l.foldl (laterOf s) none := by
  refine List.foldl_ext _ _ _ fun best i _ => ?_
  cases best <;> rfl

/-- Whether a record is a closed clip of an input: CLOSED, SENDING or SENT. -/
def closedOf (n : Fin 4) (c : Clip) : Bool :=
  decide (c.source = n) && (decide (c.state = .closed) || decide (c.state = .sending) || decide (c.state = .sent))

theorem closedOf_iff {n : Fin 4} {c : Clip} : closedOf n c = true ↔
    c.source = n ∧ (c.state = .closed ∨ c.state = .sending ∨ c.state = .sent) := by
  simp [closedOf, or_assoc]

section
variable {s : State} {n : Fin 4} {i : Fin 256}

theorem labelTarget_open (h : openClip n s = some i) : labelTarget n s = some i := by rw [labelTarget, h]

theorem labelTarget_closed (h : s.log.opens.get n = none) :
    labelTarget n s = latestStamp s (recsWhere (closedOf n) s) := by
  rw [labelTarget, openClip_none h]
  rfl

theorem laterOf_stamped {b : Fin 256} {x y : W32} (hb : (s.log.recs.get b).stamp = some x)
    (hi : (s.log.recs.get i).stamp = some y) : laterOf s (some b) i = if earlier x y then some i else some b := by
  simp only [laterOf, hb, hi]

theorem mem_of_foldl_laterOf {l : List (Fin 256)} {best : Option (Fin 256)} (h : l.foldl (laterOf s) best = some i) :
    best = some i ∨ i ∈ l := by
  induction l generalizing best with
  | nil => exact .inl h
  | cons j l ih =>
    refine (ih h).elim (fun hstep => ?_) fun hmem => .inr (List.mem_cons_of_mem _ hmem)
    have hstep : best = some i ∨ j = i := by
      unfold laterOf at hstep
      split at hstep
      · exact .inr (Option.some.inj hstep)
      · split at hstep
        · split at hstep
          · exact .inr (Option.some.inj hstep)
          · exact .inl hstep
        · exact .inr (Option.some.inj hstep)
        · exact .inl hstep
    exact hstep.imp_right fun (hji : j = i) => hji ▸ List.mem_cons_self

/-- The record whose close stamp is the latest of some records, and the first of those equal to it, is found. -/
theorem latestStamp_recsWhere {p : Clip → Bool} {y : W32} (hi : p (s.log.recs.get i) = true)
    (hy : (s.log.recs.get i).stamp = some y)
    (hmax : ∀ j, j ≠ i → p (s.log.recs.get j) = true →
      ∃ z, (s.log.recs.get j).stamp = some z ∧ earlier y z = false ∧ (j < i → earlier z y = true)) :
    latestStamp s (recsWhere p s) = some i := by
  have hidx : (recsWhere p s).Pairwise (· < ·) := List.Pairwise.filter _ (List.pairwise_lt_finRange 256)
  have hp : ∀ j ∈ recsWhere p s, p (s.log.recs.get j) = true := fun j hj => (mem_recsWhere ..).1 hj
  obtain ⟨pre, post, hsplit⟩ := List.append_of_mem ((mem_recsWhere ..).2 hi)
  rw [latestStamp_eq, hsplit, List.foldl_append, List.foldl_cons]
  rw [hsplit] at hidx hp
  obtain ⟨-, hright, hbefore⟩ := List.pairwise_append.1 hidx
  have hstep : laterOf s (pre.foldl (laterOf s) none) i = some i := by
    cases hbest : pre.foldl (laterOf s) none with
    | none => rfl
    | some b =>
      have hb : b ∈ pre := (mem_of_foldl_laterOf hbest).resolve_left nofun
      have hlt : b < i := hbefore b hb i List.mem_cons_self
      obtain ⟨z, hz, -, hbeaten⟩ := hmax b hlt.ne (hp b (List.mem_append_left _ hb))
      rw [laterOf_stamped hz hy, if_pos (hbeaten hlt)]
  have hkeeps (l : List (Fin 256)) (hl : ∀ j ∈ l, laterOf s (some i) j = some i) :
      l.foldl (laterOf s) (some i) = some i := by
    induction l with
    | nil => rfl
    | cons j l ih =>
      obtain ⟨hj, hl⟩ := List.forall_mem_cons.1 hl
      rw [List.foldl_cons, hj, ih hl]
  rw [hstep]
  refine hkeeps post fun j hj => ?_
  have hlt : i < j := (List.pairwise_cons.1 hright).1 j hj
  obtain ⟨z, hz, hkept, -⟩ := hmax j hlt.ne' (hp j (List.mem_append_right _ (List.mem_cons_of_mem _ hj)))
  rw [laterOf_stamped hy hz, hkept, if_neg nofun]

theorem markLabel_orphan (hopen : s.log.opens.get n = none) (hnone : ∀ j, closedOf n (s.log.recs.get j) = false)
    (k : W16) (o : Origin) :
    markLabel n k o s = (raise .orphanLabel 0 [b1 n.val, b2 k.toNat, o.item] s, .orphanLabel) := by
  rw [markLabel, labelTarget_closed hopen, recsWhere_nil hnone]
  rfl

theorem markLabel_target (h : labelTarget n s = some i) (k : W16) (o : Origin) :
    markLabel n k o s = addLabel i k s := by
  rw [markLabel, h]

end

/-! ## CLIP_LABEL (R145) -/

section
variable {c : Command} {i : Fin 256} {s : State}

theorem clipLabel_badOp (h : 1 < c.word 1) : clipLabel c s = (s, .refused .badField 1) := by
  rw [clipLabel, asFin_eq_none.2 h]
  rfl

theorem clipLabel_badCode (h1 : c.word 1 ≤ 1) (h : c.low16 2 = 0) : clipLabel c s = (s, .refused .badField 2) := by
  rw [clipLabel, asFin_lt (Nat.lt_succ_of_le h1)]
  exact if_pos h

theorem clipLabel_notFound (h1 : c.word 1 ≤ 1) (h2 : c.low16 2 ≠ 0) (h : findClip (c.word 0) s = none) :
    clipLabel c s = (s, .refused .notFound 1) := by
  simp only [clipLabel, asFin_lt (Nat.lt_succ_of_le h1), if_neg h2, h]
  rfl

theorem clipLabel_add (h1 : c.word 1 = 0) (h2 : c.low16 2 ≠ 0) (h : findClip (c.word 0) s = some i)
    {r : State × MarkOutcome} (hr : addLabel i (BitVec.ofNat 16 (c.low16 2)) s = r) :
    clipLabel c s = (r.1, labelResult r.2) := by
  subst hr
  have hop : asFin 2 (c.word 1) = some 0 := by rw [h1]; rfl
  simp only [clipLabel, hop, if_neg h2, h, if_true]

theorem clipLabel_remove (h1 : c.word 1 = 1) (h2 : c.low16 2 ≠ 0) (h : findClip (c.word 0) s = some i) :
    clipLabel c s = removeLabel i (BitVec.ofNat 16 (c.low16 2)) s := by
  have hop : asFin 2 (c.word 1) = some 1 := by rw [h1]; rfl
  simp only [clipLabel, hop, if_neg h2, h]
  rfl

/-! ## CLIP_DELETE (R146) -/

theorem clipDelete_notFound (h : findClip (c.word 0) s = none) : clipDelete c s = (s, .refused .notFound 1) := by
  rw [clipDelete, h]
  rfl

theorem clipDelete_sending (h : findClip (c.word 0) s = some i) (hi : (s.log.recs.get i).state = .sending) :
    clipDelete c s = (s, .refused .state 1) := by
  rw [clipDelete, h]
  exact if_pos hi

theorem clipDelete_freed (h : findClip (c.word 0) s = some i) (hi : (s.log.recs.get i).state ≠ .sending) :
    clipDelete c s = (freeRecord i s, .done 0) := by
  rw [clipDelete, h]
  exact if_neg hi

end

/-- A record becomes FREE and is mirrored; its pointer goes with it. -/
theorem freeRecord_eq (i : Fin 256) (s : State) : freeRecord i s = { s with
    log := { s.log with
      recs := s.log.recs.set i (Clip.free ((s.log.recs.get i).rev + 1))
      opens := if (s.log.recs.get i).state = .opened then s.log.opens.set (s.log.recs.get i).source none
        else s.log.opens }
    ins := (freeRecord i s).ins } := by
  rw [← freeRecord_log]
  unfold freeRecord
  dsimp only
  rw [changeRec_eq i (g := fun R => Clip.free (R.rev + 1)) fun _ => rfl]
  split <;> rfl

theorem freeRecord_ins (i : Fin 256) (s : State) :
    (freeRecord i s).ins = (changedAt [i] (fun R => Clip.free (R.rev + 1)) s).ins := by
  unfold freeRecord
  dsimp only
  rw [changeRec_eq i (g := fun R => Clip.free (R.rev + 1)) fun _ => rfl]
  split <;> rfl

/-- Settles O54. -/
theorem clipsAreLabelledAndDeleted : Obligations.ClipsAreLabelledAndDeleted := by
  refine ⟨⟨fun s c hh hc => ?_, fun s c hh hc h1 h2 => ?_, fun s c hh hc => ?_⟩, fun i s R hR => ?_,
    fun s n k g tc p o closed hok hclosed => ?_⟩
  · have hlabel {r : State × Result} := exec_answers (r := r) (exec_clipLabel (s := s)) hh hc
    exact ⟨fun h => hlabel (clipLabel_badOp h), fun h1 h => hlabel (clipLabel_badCode h1 h)⟩
  · have hlabel {r : State × Result} := exec_answers (r := r) (exec_clipLabel (s := s)) hh hc
    refine ⟨fun h => hlabel (clipLabel_notFound h1 h2 h), fun i R k hi hR hk => ?_⟩
    subst hk
    refine ⟨fun h hk => hlabel (clipLabel_add h h2 hi (addLabel_present hR hk)), fun X w hw => ⟨?_, ?_⟩,
      fun h hk => hlabel ((clipLabel_remove h h2 hi).trans (removeLabel_absent hR hk))⟩
    · intro h hk hfull hX
      rw [hw]
      exact hlabel (clipLabel_add h h2 hi (addLabel_dropped hR hk hfull hX))
    · intro hX
      have hsame : (X.source = R.source ∧ X.num = R.num) ∧ X.rev = R.rev := by
        obtain ⟨-, -, -, rfl⟩ | ⟨-, -, rfl⟩ := hX <;> exact ⟨⟨rfl, rfl⟩, rfl⟩
      obtain ⟨hnamed, hrev⟩ := hsame
      rw [← sendTag_mirrored hnamed hw]
      refine ⟨?_, ?_⟩
      · obtain ⟨h, hk, hroom, hX⟩ | ⟨h, hk, hX⟩ := hX
        · exact hlabel (clipLabel_add h h2 hi (addLabel_joined hR hk hroom hX hw))
        · exact hlabel ((clipLabel_remove h h2 hi).trans (removeLabel_left hR hk hX hw))
      · rintro v rfl
        rw [← hrev, hw, ← mirror_set_log]
        simp
  · have hdelete {r : State × Result} := exec_answers (r := r) (exec_clipDelete (s := s)) hh hc
    refine ⟨fun h => hdelete (clipDelete_notFound h), fun i R hi hR => ?_⟩
    subst hR
    refine ⟨fun h => hdelete (clipDelete_sending hi h), fun h => ⟨freeRecord i s,
      hdelete (clipDelete_freed hi h), freeRecord_eq i s, fun ha => ?_, fun a ha => ?_⟩⟩
    · rw [freeRecord_ins, changedAt_ins_unset i s _ ha]
    · rw [freeRecord_ins, changedAt_ins_set i s _ ha]
      rfl
  · subst hR
    rw [mirror_state, mirror_eq]
    cases ha : ap .log s with
    | none => simp only [changedAt_ins_unset i s _ ha]
    | some a => simp only [changedAt_ins_set i s _ ha]
  · have hof {R : Clip} : closed R ↔ closedOf n R = true := (hclosed R).trans closedOf_iff.symm
    refine ⟨fun hopen hnone => markLabel_orphan hopen (fun j => ?_) k o, fun i R hR htarget => ?_⟩
    · exact Bool.eq_false_iff.2 fun hj => hnone j (hof.2 hj)
    have hadd : markArrival .label n k g tc p o s = addLabel i k s := by
      refine markLabel_target ?_ k o
      subst hR
      obtain ⟨hopen, hsrc⟩ | ⟨hopen, hi, y, hy, hmax⟩ := htarget
      · exact labelTarget_open (openClip_source hok hopen hsrc)
      · rw [labelTarget_closed hopen]
        exact latestStamp_recsWhere (hof.1 hi) hy fun j hj hjc => hmax j hj (hof.2 hjc)
    rw [hadd]
    refine ⟨addLabel_present hR, fun hk hfull => addLabel_dropped hR hk hfull rfl, fun hk hroom X w hX hw => ?_⟩
    rw [← sendTag_mirrored (by rw [hX]; exact ⟨rfl, rfl⟩) hw]
    exact addLabel_joined hR hk hroom hX hw

end Sys2Proof.Machine
end

section
/-! The samples of a MARK pin: candidates, confirmed edges and their mark arrivals, and where a pin's sample stands in a
tick (R133 to R135; log 3, log 4). -/

namespace Sys2Proof.Machine

open Sys2Proof.Safety

/-! ## One sample (R133, R134) -/

theorem selects_iff {e : Edge} {lv : Bool} : e.selects lv = true ↔
    e = .both ∨ (e = .rising ∧ lv = true) ∨ (e = .falling ∧ lv = false) := by
  cases e <;> simp [Edge.selects]

section
variable {P : Pin} {lv : Bool} {f : W32} {tc : Nat} {c : Candidate}

theorem candidateAt_absent (hc : P.cand = none) (h : lv = P.confirmed) : P.candidateAt lv f tc = none := by
  simp only [Pin.candidateAt, hc, if_neg (not_not.2 h)]

theorem candidateAt_forms (hc : P.cand = none) (h : lv ≠ P.confirmed) :
    P.candidateAt lv f tc = some ⟨f, tc, P.filter / 2⟩ := by
  simp only [Pin.candidateAt, hc, if_pos h]
  rfl

theorem candidateAt_restarts (hc : P.cand = some c) (h : lv ≠ P.last) :
    P.candidateAt lv f tc = some { c with left := P.filter / 2 } := by
  simp only [Pin.candidateAt, hc, if_pos h]
  rfl

theorem candidateAt_counts (hc : P.cand = some c) (h : lv = P.last) :
    P.candidateAt lv f tc = some { c with left := c.left - 1 } := by
  simp only [Pin.candidateAt, hc, if_neg (not_not.2 h)]

theorem sampled_absent (h : P.candidateAt lv f tc = none) :
    P.sampled lv f tc = ({ P with cand := none, last := lv }, none) := by
  rw [Pin.sampled, h]

theorem sampled_waits (h : P.candidateAt lv f tc = some c) (hleft : 0 < c.left) :
    P.sampled lv f tc = ({ P with cand := some c, last := lv }, none) := by
  simp only [Pin.sampled, h, if_pos hleft]

/-- The test at the end of the window finds the confirmed level: a glitch. -/
theorem sampled_glitch (h : P.candidateAt lv f tc = some c) (hleft : c.left = 0) (hlv : lv = P.confirmed) :
    P.sampled lv f tc = ({ P with cand := none, last := lv, glitches := P.glitches + 1 }, none) := by
  simp only [Pin.sampled, h, hleft, lt_irrefl, if_false, if_pos hlv]

/-- The test at the end of the window confirms an edge. -/
theorem sampled_confirmed (h : P.candidateAt lv f tc = some c) (hleft : c.left = 0) (hlv : lv ≠ P.confirmed) :
    P.sampled lv f tc = (confirmedAs P lv, if P.edge.selects lv = true then some c else none) := by
  simp only [Pin.sampled, h, hleft, lt_irrefl, if_false, if_neg hlv, confirmedAs, ← selects_iff]
  split <;> rfl

/-- What the test at the end of the window makes of the pin. -/
theorem sampled_tested (h : P.candidateAt lv f tc = some c) (hleft : c.left = 0) : (P.sampled lv f tc).1 =
    if lv = P.confirmed then { P with cand := none, last := lv, glitches := P.glitches + 1 } else confirmedAs P lv := by
  split
  next hlv => rw [sampled_glitch h hleft hlv]
  next hlv => rw [sampled_confirmed h hleft hlv]

theorem sampled_fn (P : Pin) (lv : Bool) (f : W32) (tc : Nat) : (P.sampled lv f tc).1.fn = P.fn := by
  cases hd : P.candidateAt lv f tc with
  | none => rw [sampled_absent hd]
  | some d =>
    rcases Nat.eq_zero_or_pos d.left with hleft | hleft
    · rw [sampled_tested hd hleft]
      split <;> rfl
    · rw [sampled_waits hd hleft]

/-- A sample confirms no edge of the selected polarity when the test does not fall, or finds none. -/
theorem sampled_quiet (h : ∀ d, P.candidateAt lv f tc = some d → d.left = 0 →
    lv = P.confirmed ∨ ¬P.edge.selects lv = true) : (P.sampled lv f tc).2 = none := by
  cases hd : P.candidateAt lv f tc with
  | none => rw [sampled_absent hd]
  | some d =>
    rcases Nat.eq_zero_or_pos d.left with hleft | hleft
    · by_cases hlv : lv = P.confirmed
      · rw [sampled_glitch hd hleft hlv]
      · rw [sampled_confirmed hd hleft hlv]
        exact if_neg ((h d hd hleft).resolve_left hlv)
    · rw [sampled_waits hd hleft]

theorem half_eq_zero_iff {n : Nat} : n / 2 = 0 ↔ n ≤ 1 := by omega

/-- Where the test falls, the candidate has run out. -/
theorem candidateAt_of_confirms (h : Confirms P lv f tc c) : P.candidateAt lv f tc = some { c with left := 0 } := by
  obtain ⟨hc, ⟨hlv, hf⟩ | ⟨hlv, hleft⟩⟩ | ⟨hc, hlv, hf, rfl⟩ := h
  · rw [candidateAt_restarts hc hlv, half_eq_zero_iff.2 hf]
  · rw [candidateAt_counts hc hlv, Nat.sub_eq_zero_of_le hleft]
  · rw [candidateAt_forms hc hlv, half_eq_zero_iff.2 hf]

theorem exists_confirms (h : P.candidateAt lv f tc = some c) (hleft : c.left = 0) : ∃ d, Confirms P lv f tc d := by
  cases hc : P.cand with
  | none =>
    by_cases hlv : lv = P.confirmed
    · rw [candidateAt_absent hc hlv] at h
      cases h
    · rw [candidateAt_forms hc hlv] at h
      cases h
      exact ⟨_, .inr ⟨hc, hlv, half_eq_zero_iff.1 hleft, rfl⟩⟩
  | some d =>
    refine ⟨d, .inl ⟨hc, ?_⟩⟩
    by_cases hlv : lv = P.last
    · rw [candidateAt_counts hc hlv] at h
      cases h
      exact .inr ⟨hlv, Nat.sub_eq_zero_iff_le.1 hleft⟩
    · rw [candidateAt_restarts hc hlv] at h
      cases h
      exact .inl ⟨hlv, half_eq_zero_iff.1 hleft⟩

end

/-! ## The sample of a pin (R135) -/

section
variable {p : Fin 12} {s : State} {P : Pin} {lv : Bool} (hP : P = s.pins.get p) (hlv : lv = s.epIn.getLsbD p.val)
  (hm : P.fn = .mark)
include hP hlv hm

theorem samplePin_quiet (h : (P.sampled lv s.clock.frame (timecode s)).2 = none) :
    samplePin p s = { s with pins := s.pins.set p (P.sampled lv s.clock.frame (timecode s)).1 } := by
  subst hP hlv
  simp only [samplePin, hm, ne_eq, not_true_eq_false, if_false, h]
  rfl

theorem samplePin_arrival {c : Candidate} (h : (P.sampled lv s.clock.frame (timecode s)).2 = some c) :
    samplePin p s = (markArrival P.action P.input P.label c.frame c.tc P.preroll (.pin p)
      { s with pins := s.pins.set p (P.sampled lv s.clock.frame (timecode s)).1 }).1 := by
  subst hP hlv
  simp only [samplePin, hm, ne_eq, not_true_eq_false, if_false, h]
  rfl

theorem samplePin_pins :
    (samplePin p s).pins = s.pins.set p (P.sampled lv s.clock.frame (timecode s)).1 := by
  cases h : (P.sampled lv s.clock.frame (timecode s)).2 with
  | none => rw [samplePin_quiet hP hlv hm h]
  | some c =>
    rw [samplePin_arrival hP hlv hm h]
    simp

end

theorem samplePin_other {p : Fin 12} {s : State} (h : (s.pins.get p).fn ≠ .mark) : samplePin p s = s := if_pos h

theorem samplePin_get_ne {p q : Fin 12} (h : q ≠ p) (s : State) : (samplePin q s).pins.get p = s.pins.get p := by
  by_cases hm : (s.pins.get q).fn = .mark
  · rw [samplePin_pins rfl rfl hm, Table.get_set, if_neg h]
  · rw [samplePin_other hm]

/-! ## A MARK pin in a tick -/

/-- From `s` to `t` pin `p`, if it is a MARK pin, is left. -/
def MarkPinKept (p : Fin 12) (s t : State) : Prop := (s.pins.get p).fn = .mark → t.pins.get p = s.pins.get p

section
variable {p : Fin 12} {s t u : State}

theorem MarkPinKept.of_pins (h : t.pins = s.pins) : MarkPinKept p s t := fun _ => by rw [h]

theorem MarkPinKept.trans (h : MarkPinKept p s t) (h' : MarkPinKept p t u) : MarkPinKept p s u := fun hm =>
  (h' (by rwa [h hm])).trans (h hm)

theorem raise_markPin (p : Fin 12) (k : NoticeKind) (j : Nat) (d : List Item) (s : State) :
    MarkPinKept p s (raise k j d s) := .of_pins (by simp)

theorem rebase_markPin (p : Fin 12) (s : State) : MarkPinKept p s (rebase s) := .of_pins (by simp)

/-- A level write reaches LINE pins alone (R161). -/
theorem applyAct_markPin (p : Fin 12) (id : Nat) (a : CueAct) (s : State) : MarkPinKept p s (applyAct id a s).1 := by
  cases a with
  | lines m d =>
    intro hm
    have hline : ¬(m.getLsbD p.val = true ∧ (s.pins.get p).fn = .line) := fun ⟨_, hline⟩ => by
      rw [hm] at hline
      cases hline
    exact (levelWrite_get m d s p).trans (if_neg hline)
  | switch l =>
    simp only [applyAct]
    split <;> exact .of_pins rfl
  | fade k x y =>
    simp only [applyAct]
    split <;> exact .of_pins rfl
  | _ => exact .of_pins (by simp [applyAct])

theorem fireHead_markPin (p : Fin 12) (s : State) : MarkPinKept p s (fireHead s) := by
  have hslot (e : Cue) (i : Fin 4) (r : State × List Nat) : MarkPinKept p r.1 (applySlot e i r).1 := by
    unfold applySlot
    dsimp only
    split
    · exact applyAct_markPin p _ _ _
    · exact (applyAct_markPin p _ _ _).trans (raise_markPin p _ _ _ _)
  have hslots (e : Cue) (l : List (Fin 4)) (r : State × List Nat) :
      MarkPinKept p r.1 (l.foldl (fun r i => applySlot e i r) r).1 := by
    induction l generalizing r with
    | nil => exact .of_pins rfl
    | cons i l ih => exact (hslot e i r).trans (ih _)
  unfold fireHead
  split
  · exact .of_pins rfl
  next e _ _ =>
    have happlied : MarkPinKept p s ((applySlots e s).1.modCues List.tail) := hslots e _ (s, [])
    exact happlied.trans (raise_markPin p _ _ _ _)

theorem fireDue_markPin (p : Fin 12) (k : Nat) (s : State) : MarkPinKept p s (fireDue k s) := by
  induction k generalizing s with
  | zero => exact .of_pins rfl
  | succ k ih =>
    unfold fireDue
    split
    · exact (fireHead_markPin p s).trans (ih _)
    · exact .of_pins rfl

/-- Of the acts of a tick only a MARK pin's own sample changes it. -/
theorem runAct_markPin (o : Opening) {a : TickAct} (ha : a ≠ .pin p) (s : State) : MarkPinKept p s (runAct o a s) := by
  cases a with
  | pin q => exact fun _ => samplePin_get_ne (fun hq => ha (by rw [hq])) s
  | cueNext =>
    simp only [runAct, fireNext]
    split
    · exact fireHead_markPin p s
    · exact .of_pins rfl
  | cues =>
    simp only [runAct]
    split
    · exact (fireDue_markPin p _ s).trans (rebase_markPin p _)
    · exact fireDue_markPin p _ s
  | midnight =>
    simp only [runAct]
    split <;> exact .of_pins (by simp)
  | _ => exact .of_pins (by simp [runAct])

theorem forEach_runAct_markPin (o : Opening) {acts : List TickAct} (h : .pin p ∉ acts) (s : State) :
    MarkPinKept p s (forEach acts (runAct o) s) :=
  forEach_inv (Inv := MarkPinKept p s) (.of_pins rfl) fun _ ha _ ht =>
    ht.trans (runAct_markPin o (fun hp => h (hp ▸ ha)) _)

/-- In any order a pin is sampled once (log 4). -/
theorem schedule_pin (p : Fin 12) (opening : Bool) (order : List TickAct) : ∃ before after,
    schedule opening order = before ++ .pin p :: after ∧ .pin p ∉ before ∧ .pin p ∉ after := by
  cases opening with
  | true => exact schedule_split (by revert p; decide) order
  | false =>
    have hperm := schedule_sample_perm order
    have hmem : TickAct.pin p ∈ sampleActs := by revert p; decide
    obtain ⟨before, after, hs⟩ := List.append_of_mem (hperm.mem_iff.2 hmem)
    have hn : (before ++ .pin p :: after).Nodup := hs ▸ hperm.nodup_iff.2 (by decide)
    obtain ⟨-, hright, hdisjoint⟩ := List.nodup_append.1 hn
    exact ⟨before, after, hs, fun h => hdisjoint _ h _ List.mem_cons_self rfl, (List.nodup_cons.1 hright).1⟩

/-- What the acts of a tick, taken in any order, make of a MARK pin: one sample, at the count and the timecode that
stand (R133; log 4). -/
theorem forEach_schedule_pin (o : Opening) (opening : Bool) (order : List TickAct) (hm : (s.pins.get p).fn = .mark) :
    (forEach (schedule opening order) (runAct o) s).pins.get p =
      ((s.pins.get p).sampled (s.epIn.getLsbD p.val) s.clock.frame (timecode s)).1 := by
  obtain ⟨before, after, hs, hbefore, hafter⟩ := schedule_pin p opening order
  obtain ⟨u, hu⟩ : ∃ u, u = forEach before (runAct o) s := ⟨_, rfl⟩
  have hticked : Ticked s u := hu ▸ forEach_ticked o before s
  have hpin : u.pins.get p = s.pins.get p := hu ▸ forEach_runAct_markPin o hbefore s hm
  have htc : timecode u = timecode s := timecode_of_clock hticked.frame hticked.rate hticked.offset
  have hsample : (samplePin p u).pins.get p =
      ((s.pins.get p).sampled (s.epIn.getLsbD p.val) s.clock.frame (timecode s)).1 := by
    rw [samplePin_pins hpin.symm (congrArg (·.getLsbD p.val) hticked.epIn.symm) hm, Table.get_set, if_pos rfl,
      hticked.frame, htc]
  have hmark : ((samplePin p u).pins.get p).fn = .mark := by
    rw [hsample, sampled_fn, hm]
  rw [hs, forEach_append, forEach_cons, ← hu, ← hsample]
  exact forEach_runAct_markPin o hafter (samplePin p u) hmark

end

/-- A MARK pin after a tick: the sample at the count and the timecode of the frame, opened where one opens (R16,
R133). -/
theorem tick_pin {p : Fin 12} {s : State} (hm : (s.pins.get p).fn = .mark) (i : TickIn) : ∃ f tc,
    (s.clock.pos ≠ 0 → f = s.clock.frame ∧ tc = timecode s) ∧
    (tick i s).pins.get p = ((s.pins.get p).sampled (i.levels.getLsbD p.val) f tc).1 := by
  obtain ⟨u, hu⟩ : ∃ u, u = openFrame (s.setLevels i.levels) := ⟨_, rfl⟩
  have hpins : u.pins = s.pins := by simp [hu, State.setLevels]
  have hlevels : u.epIn = i.levels := by simp [hu, State.setLevels]
  refine ⟨u.clock.frame, timecode u, fun hpos => ?_, ?_⟩
  · have hopen : openFrame (s.setLevels i.levels) = s.setLevels i.levels := if_neg hpos
    rw [hu, hopen]
    exact ⟨rfl, rfl⟩
  · have hacts := forEach_schedule_pin (s := u) (openingOf s) (decide (s.clock.pos = 0)) i.order (by rwa [hpins])
    rw [hpins, hlevels, hu] at hacts
    exact hacts.trans (by rw [← hu])

/-! ## The row MARK_CONFIRM (log 3) -/

theorem exec_markConfirm_due {p : Fin 12} {s : State} {i : TickIn} (hm : (s.pins.get p).fn = .mark) {c : Candidate}
    (hc : (s.pins.get p).candidateAt (i.levels.getLsbD p.val) s.clock.frame (timecode s) = some c)
    (hleft : c.left = 0) : exec (.markConfirm p i) s = .next (tick i s) := by
  have hdue : confirmDue p i.levels s = true := by
    simp only [confirmDue, hm, hc, hleft, Option.any_some, decide_true, Bool.and_self]
  rw [exec_markConfirm, hdue]
  rfl

theorem exec_markConfirm_other {p : Fin 12} {s : State} (hm : (s.pins.get p).fn ≠ .mark) (i : TickIn) :
    exec (.markConfirm p i) s = .next s := by
  have hdue : confirmDue p i.levels s = false := by simp [confirmDue, hm]
  rw [exec_markConfirm, hdue]
  rfl

/-! ## A sample tick with one MARK pin (log 4) -/

theorem mixerTick_rest (pos : Nat) (opening : Bool) (s : State) : mixerTick pos opening s = { s with
    snd := (mixerTick pos opening s).snd, ins := (mixerTick pos opening s).ins, ctl := (mixerTick pos opening s).ctl
    store := (mixerTick pos opening s).store, home := (mixerTick pos opening s).home
    log := (mixerTick pos opening s).log } := by
  obtain ⟨h1, h2, h3, h4, h5, h6, h7, h8, h9, h10, h11⟩ := mixerTick_frame (s := s) pos opening
  generalize mixerTick pos opening s = t at *
  cases t
  subst h1 h2 h3 h4 h5 h6 h7 h8 h9 h10 h11
  rfl

/-- Away from a sound unit's boundary the mixer hands nothing to the paths and the store. -/
theorem mixerTick_media {pos : Nat} (h : (pos + 1) % 40 ≠ 0) (opening : Bool) (s : State) :
    (mixerTick pos opening s).store = s.store ∧ (mixerTick pos opening s).home = s.home
      ∧ (mixerTick pos opening s).log = s.log := by
  have hmixed : (mixedAt pos opening s).store = s.store ∧ (mixedAt pos opening s).home = s.home
      ∧ (mixedAt pos opening s).log = s.log := by
    cases opening <;> simp [mixedAt_eq, mixedBefore, inputsSettled_eq]
  rw [mixerTick_eq]
  generalize mixedAt pos opening s = v at hmixed
  unfold accumulate
  split
  · exact hmixed
  · dsimp only
    rw [if_neg h]
    exact hmixed

/-- With no other MARK pin the samples of all pins are the one pin's. -/
theorem forEach_samplePin_only {p : Fin 12} {s : State} (h : ∀ q, q ≠ p → (s.pins.get q).fn ≠ .mark) :
    forEach (List.finRange 12) samplePin s = samplePin p s := by
  obtain ⟨before, after, hs⟩ := List.append_of_mem (List.mem_finRange p)
  have hn : (before ++ p :: after).Nodup := hs ▸ List.nodup_finRange 12
  obtain ⟨-, hright, hdisjoint⟩ := List.nodup_append.1 hn
  have hkeep (l : List (Fin 12)) (hl : p ∉ l) (t : State) (ht : ∀ q, q ≠ p → t.pins.get q = s.pins.get q) :
      forEach l samplePin t = t :=
    forEach_inv (Inv := fun u => u = t) rfl fun q hq u hu => by
      have hqp : q ≠ p := fun hqp => hl (hqp ▸ hq)
      rw [hu, samplePin_other (by rw [ht q hqp]; exact h q hqp)]
  rw [hs, forEach_append, forEach_cons, hkeep before (fun hp => hdisjoint _ hp _ List.mem_cons_self rfl) s
      fun _ _ => rfl, hkeep after (List.nodup_cons.1 hright).1 _ fun q hq => samplePin_get_ne hq.symm s]

theorem exec_sampleTick_only {p : Fin 12} {s : State} {i : TickIn} (hpos : s.clock.pos ≠ 0) (ho : i.order = [])
    (h : ∀ q, q ≠ p → (s.pins.get q).fn ≠ .mark) : exec (.sampleTick i) s = .next
      { samplePin p (mixerTick s.clock.pos false { s with epIn := i.levels }) with
        clock := clockAdvanced s.clock } := by
  have hacts : forEach (schedule false i.order) (runAct ⟨false, false⟩) { s with epIn := i.levels } =
      samplePin p (mixerTick s.clock.pos false { s with epIn := i.levels }) := by
    rw [ho, schedule_sample_default, sampledAround_eq (s := { s with epIn := i.levels }) hpos]
    exact forEach_samplePin_only (by simpa using h)
  rw [exec_sampleTick_inside hpos i hacts.symm]
  simp

/-- Settles O38. -/
theorem edgesAreConfirmedAfterTheWindow : Obligations.EdgesAreConfirmedAfterTheWindow := by
  refine ⟨fun s p i c hm hc hleft hlast => ?_, fun s p i hm => exec_markConfirm_other hm i,
    fun s p i P lv hpos hP hm hlv => ?_, fun s p P lv hP hm hlv => ⟨fun c hc hne hsel => ?_, fun h => ?_⟩,
    fun s i p hpos ho hother v hv => ⟨?_, fun hb => ?_, ?_⟩⟩
  · have hcand (f : W32) (tc : Nat) :
        (s.pins.get p).candidateAt (i.levels.getLsbD p.val) f tc = some { c with left := c.left - 1 } :=
      candidateAt_counts hc hlast
    have hzero : c.left - 1 = 0 := Nat.sub_eq_zero_of_le hleft
    obtain ⟨f, tc, -, hpin⟩ := tick_pin hm i
    refine ⟨tick i s, exec_markConfirm_due hm (hcand _ _) hzero, ?_⟩
    rw [hpin, sampled_tested (hcand f tc) hzero, hlast]
    refine ite_congr rfl (fun _ => rfl) fun _ => ?_
    simp only [confirmedAs]
    split <;> rfl
  · obtain ⟨f, tc, htime, hpin⟩ := tick_pin (hP ▸ hm) i
    obtain ⟨rfl, rfl⟩ := htime hpos
    rw [← hP, ← hlv] at hpin
    refine ⟨tick i s, _, exec_sampleTick (s := s) i, hpin, fun hc h => ?_, fun hc h hf => ?_, fun hc h hf => ?_,
      fun c hc => ⟨fun h hf => ?_, fun h hleft => ?_, fun h => ?_⟩⟩
    · rw [sampled_absent (candidateAt_absent hc h), ← hc]
    · rw [sampled_waits (candidateAt_forms hc h) (Nat.div_pos hf two_pos)]
    · rw [sampled_tested (candidateAt_forms hc h) (half_eq_zero_iff.2 hf), if_neg h]
    · rw [sampled_waits (candidateAt_restarts hc h) (Nat.div_pos hf two_pos)]
    · rw [sampled_waits (candidateAt_counts hc h) (Nat.sub_pos_of_lt hleft), h]
    · exact sampled_tested (candidateAt_of_confirms (.inl ⟨hc, h⟩)) rfl
  · have hsampled := sampled_confirmed (candidateAt_of_confirms hc) rfl hne
    rw [if_pos (selects_iff.2 hsel)] at hsampled
    rw [samplePin_arrival hP hlv hm (congrArg Prod.snd hsampled), hsampled]
  · refine ⟨_, samplePin_quiet hP hlv hm (sampled_quiet fun d hd hleft => ?_)⟩
    obtain hno | hsame | ⟨he, hl⟩ | ⟨he, hl⟩ := h
    · obtain ⟨c, hc⟩ := exists_confirms hd hleft
      exact absurd hc (hno c)
    · exact .inl hsame
    · exact .inr (by rw [he, hl]; decide)
    · exact .inr (by rw [he, hl]; decide)
  · rw [hv]
    exact mixerTick_rest ..
  · rw [hv]
    exact mixerTick_media hb false { s with epIn := i.levels }
  · rw [hv]
    exact exec_sampleTick_only hpos ho hother

end Sys2Proof.Machine
end
